-- ==== Sys2Proof/Syntax.lean ====
section
/-! DEFINITION. The syntax of the PSV-9640: one constructor per row of the opcode table.

The first group are the 291 instruction words (R33, R38, R40): every argument is one field of the word, read as a natural
number, under the name the manual gives the field (`d`, `a`, `b`, `c` register fields, `g` the guard predicate, `sz` and `sgn`
of R39, `fmt` a floating-point format, and so on). A field may hold any number here; `Instr.wellFormed` says which are
instructions.

The second group are the 118 rows of the table that have no word: the steps of the NI, of the engines, of the launch unit and
of the outside parties, each whole and indivisible (95_what_each_step_holds.md). Their arguments say which one of several it
is: `c` a packed core coordinate (R123), `k` a strand, `id` an outstanding operation of that strand, `m` a message in flight,
`cl` a cluster, `d` a die, `n` an entry; the others are the operands the outside party gives. -/

namespace Sys2Proof

inductive Instr where
  /-- BR (R50): Branches to pc plus 4·sext(off21) when predicate cond equals sense. -/
  | br (cond sense off : Nat)
  /-- CALL (R50): Conditional branch that also writes pc + 4 to g27 when taken. -/
  | call (cond sense off : Nat)
  /-- JMP (R51): Jumps to g[a] bits 47:0, trapping ALIGN on a misaligned target. -/
  | jmp (a g : Nat)
  /-- CALLR (R51): Writes pc + 4 to g27 and jumps to g[a] bits 47:0. -/
  | callr (a g : Nat)
  /-- RET (R51): Jumps to g27 bits 47:0. -/
  | ret (g : Nat)
  /-- LOOP (R52): Decrements the counter g[d] and branches back while it is non-zero. -/
  | loop (d imm g : Nat)
  /-- END (R24): Drains the strand's asynchronous operations, releases the lease and frees the strand. -/
  | exitEnd (g : Nat)
  /-- SUSPEND (R55): Drains like END, then enqueues a continuation to a queue and frees the strand once the controller confirms. -/
  | suspend (a b g : Nat)
  /-- YIELD (R56): Drains like END, then delivers a continuation to the core itself as an LP message and frees the strand. -/
  | yield (b g : Nat)
  /-- TRAP (R58): Raises SWTRAP at itself with TRAPINFO equal to imm12. -/
  | trap (imm g : Nat)
  /-- RFT (R59): Leaves the trap state and re-executes the trapping instruction. -/
  | rft (g : Nat)
  /-- RFT_SKIP (R59): Leaves the trap state and continues at TRAPPC + 4. -/
  | rftSkip (g : Nat)
  /-- SLEEP (R348): Holds the strand in WAIT until REFTIME reaches g[a]. -/
  | sleep (a g : Nat)
  /-- CSRR (R61): Reads a control register into g[d]. -/
  | csrr (d imm g : Nat)
  /-- CSRW (R61): Writes g[a] to a control register, subject to access codes and field checks. -/
  | csrw (a imm g : Nat)
  /-- TLBINV (R366): Invalidates translations of a 64 KiB-aligned range and waits until every agent has stopped using them. -/
  | tlbinv (a b g : Nat)
  /-- TLBINV_ALL (R366): Invalidates every translation of the context and waits for the drain. -/
  | tlbinvAll (g : Nat)
  /-- PGATE_S (R346): Gates or wakes the issuing core's scratchpad banks by mask. -/
  | pgateS (a g : Nat)
  /-- PGATE_W (R346): Gates or wakes ways of the cluster cache slice, needing the power right. -/
  | pgateW (a g : Nat)
  /-- CTXLOAD (R376): Creates, seals or destroys a context table entry from a descriptor and returns a status. -/
  | ctxload (d a b g : Nat)
  /-- CTXSAVE (R376): Writes a context table entry to memory as a descriptor, hiding darkroom addresses. -/
  | ctxsave (d a b g : Nat)
  /-- FLAGS_GET (R108): Copies FPFLAGS bits 4:0 into g[d]. -/
  | flagsGet (d g : Nat)
  /-- FLAGS_CLR (R108): Clears the FPFLAGS bits set in g[a]. -/
  | flagsClr (a g : Nat)
  /-- FLAGS_SET (R108): Sets the FPFLAGS bits set in g[a] without trapping. -/
  | flagsSet (a g : Nat)
  /-- ADD (R110): Integer addition modulo 2^n. -/
  | add (d a b sz sgn g : Nat)
  /-- SUB (R110): Integer subtraction modulo 2^n. -/
  | sub (d a b sz sgn g : Nat)
  /-- AND (R110): Bitwise and. -/
  | and (d a b sz sgn g : Nat)
  /-- OR (R110): Bitwise or. -/
  | or (d a b sz sgn g : Nat)
  /-- XOR (R110): Bitwise exclusive or. -/
  | xor (d a b sz sgn g : Nat)
  /-- ANDN (R110): a and not b. -/
  | andn (d a b sz sgn g : Nat)
  /-- ORN (R110): a or not b. -/
  | orn (d a b sz sgn g : Nat)
  /-- XNOR (R110): not (a xor b). -/
  | xnor (d a b sz sgn g : Nat)
  /-- SHL (R110): Shift left by b mod n. -/
  | shl (d a b sz sgn g : Nat)
  /-- SHR (R110): Logical shift right by b mod n. -/
  | shr (d a b sz sgn g : Nat)
  /-- SRA (R110): Arithmetic shift right by b mod n. -/
  | sra (d a b sz sgn g : Nat)
  /-- ROL (R110): Rotate left within n bits. -/
  | rol (d a b sz sgn g : Nat)
  /-- ROR (R110): Rotate right within n bits. -/
  | ror (d a b sz sgn g : Nat)
  /-- ADDI (R111): Adds a sign-extended 12-bit immediate in 64 bits. -/
  | addi (d a imm g : Nat)
  /-- ANDI (R111): Ands a sign-extended immediate. -/
  | andi (d a imm g : Nat)
  /-- ORI (R111): Ors a sign-extended immediate. -/
  | ori (d a imm g : Nat)
  /-- XORI (R111): Exclusive-ors a sign-extended immediate. -/
  | xori (d a imm g : Nat)
  /-- SHLI (R112): 64-bit shift left by an immediate. -/
  | shli (d a sh g : Nat)
  /-- SHRI (R112): 64-bit logical shift right by an immediate. -/
  | shri (d a sh g : Nat)
  /-- SRAI (R112): 64-bit arithmetic shift right by an immediate. -/
  | srai (d a sh g : Nat)
  /-- MUL (R114): Low n bits of the product. -/
  | mul (d a b sz sgn g : Nat)
  /-- MULH (R114): High n bits of the signed or unsigned product. -/
  | mulh (d a b sz sgn g : Nat)
  /-- DIV (R115): Quotient truncated toward zero, with the division-by-zero cases of R85. -/
  | div (d a b sz sgn g : Nat)
  /-- REM (R115): Remainder with the sign of the dividend. -/
  | rem (d a b sz sgn g : Nat)
  /-- CMP_EQ (R117): Sets a predicate when a equals b. -/
  | cmpEq (p a b sz sgn g : Nat)
  /-- CMP_NE (R117): Sets a predicate when a differs from b. -/
  | cmpNe (p a b sz sgn g : Nat)
  /-- CMP_LT (R117): Sets a predicate when a < b. -/
  | cmpLt (p a b sz sgn g : Nat)
  /-- CMP_LE (R117): Sets a predicate when a ≤ b. -/
  | cmpLe (p a b sz sgn g : Nat)
  /-- CMP_GT (R117): Sets a predicate when a > b. -/
  | cmpGt (p a b sz sgn g : Nat)
  /-- CMP_GE (R117): Sets a predicate when a ≥ b. -/
  | cmpGe (p a b sz sgn g : Nat)
  /-- CMPI_EQ (R117): 64-bit compare with an immediate for equality. -/
  | cmpiEq (p a imm g : Nat)
  /-- CMPI_NE (R117): 64-bit compare with an immediate for inequality. -/
  | cmpiNe (p a imm g : Nat)
  /-- CMPI_LT_S64 (R117): Signed less-than against an immediate. -/
  | cmpiLtS64 (p a imm g : Nat)
  /-- CMPI_LE_S64 (R117): Signed less-or-equal against an immediate. -/
  | cmpiLeS64 (p a imm g : Nat)
  /-- CMPI_GT_S64 (R117): Signed greater-than against an immediate. -/
  | cmpiGtS64 (p a imm g : Nat)
  /-- CMPI_GE_S64 (R117): Signed greater-or-equal against an immediate. -/
  | cmpiGeS64 (p a imm g : Nat)
  /-- CMPI_LT_Z64 (R117): Unsigned less-than against an immediate. -/
  | cmpiLtZ64 (p a imm g : Nat)
  /-- CMPI_GE_Z64 (R117): Unsigned greater-or-equal against an immediate. -/
  | cmpiGeZ64 (p a imm g : Nat)
  /-- CLZ (R118): Counts leading zeros. -/
  | clz (d a sz sgn g : Nat)
  /-- CTZ (R118): Counts trailing zeros. -/
  | ctz (d a sz sgn g : Nat)
  /-- POPC (R118): Counts 1 bits. -/
  | popc (d a sz sgn g : Nat)
  /-- BREV (R118): Reverses the n bits. -/
  | brev (d a sz sgn g : Nat)
  /-- BSWAP (R118): Reverses the n/8 bytes. -/
  | bswap (d a sz sgn g : Nat)
  /-- SEL (R119): Selects g[a] or g[b] by a predicate. -/
  | sel (d a b p g : Nat)
  /-- LI (R113): Loads a sign-extended 20-bit immediate; unguarded. -/
  | li (d imm : Nat)
  /-- LUI (R113): Loads a 20-bit immediate shifted left by 12; unguarded. -/
  | lui (d imm : Nat)
  /-- ADDA (R121): Adds a byte offset to a pointer's VA, trapping ADDR_OVF. -/
  | adda (d a b g : Nat)
  /-- ADDAI (R121): Adds an immediate byte offset to a pointer's VA. -/
  | addai (d a imm g : Nat)
  /-- PTR_SET (R122): Sets pointer bits 63:48 from g[b] over VA of g[a]. -/
  | ptrSet (d a b g : Nat)
  /-- PTR_GET (R122): Extracts pointer bits 63:48. -/
  | ptrGet (d a g : Nat)
  /-- PTR_CLR (R122): Clears pointer bits 63:48. -/
  | ptrClr (d a g : Nat)
  /-- PRED_AND (R120): Predicate and. -/
  | predAnd (d a b g : Nat)
  /-- PRED_OR (R120): Predicate or. -/
  | predOr (d a b g : Nat)
  /-- PRED_XOR (R120): Predicate exclusive or. -/
  | predXor (d a b g : Nat)
  /-- PRED_ANDN (R120): Predicate a and not b. -/
  | predAndn (d a b g : Nat)
  /-- PRED_NOT (R120): Predicate negation. -/
  | predNot (d a g : Nat)
  /-- PRED_FROMG (R120): Sets a predicate when a general register is non-zero. -/
  | predFromg (d a g : Nat)
  /-- PRED_TOG (R120): Writes 1 or 0 to a general register from a predicate. -/
  | predTog (d a g : Nat)
  /-- COORD_SELF (R123): Writes the core's packed coordinate. -/
  | coordSelf (d g : Nat)
  /-- COORD_PACK (R123): Packs x and y into a coordinate. -/
  | coordPack (d a b g : Nat)
  /-- COORD_X (R123): Extracts x of a packed coordinate. -/
  | coordX (d a g : Nat)
  /-- COORD_Y (R123): Extracts y of a packed coordinate. -/
  | coordY (d a g : Nat)
  /-- COORD_ADD (R123): Adds two packed coordinates per half modulo 4,096. -/
  | coordAdd (d a b g : Nat)
  /-- MIN (R116): Signed or unsigned minimum. -/
  | min (d a b sz sgn g : Nat)
  /-- MAX (R116): Signed or unsigned maximum. -/
  | max (d a b sz sgn g : Nat)
  /-- ABSD (R116): Absolute difference, zero-extended. -/
  | absd (d a b sz sgn g : Nat)
  /-- MULI (R111): Low 64 bits of the product with an immediate. -/
  | muli (d a imm g : Nat)
  /-- FADD (R125): Scalar floating-point addition rounded once. -/
  | fadd (d a b fmt g : Nat)
  /-- FSUB (R125): Scalar floating-point subtraction. -/
  | fsub (d a b fmt g : Nat)
  /-- FMUL (R125): Scalar floating-point multiplication. -/
  | fmul (d a b fmt g : Nat)
  /-- FDIV (R125): Correctly rounded scalar division. -/
  | fdiv (d a b fmt g : Nat)
  /-- FMIN (R126): Floating-point minimum with NaN treated as absent. -/
  | fmin (d a b fmt g : Nat)
  /-- FMAX (R126): Floating-point maximum with NaN treated as absent. -/
  | fmax (d a b fmt g : Nat)
  /-- FABS (R125): Clears the sign bit without flags. -/
  | fabs (d a fmt g : Nat)
  /-- FNEG (R125): Flips the sign bit without flags. -/
  | fneg (d a fmt g : Nat)
  /-- FMA (R127): FP32 a·b + c rounded once. -/
  | fma (d a b c g : Nat)
  /-- FMS (R127): FP32 a·b − c rounded once. -/
  | fms (d a b c g : Nat)
  /-- FNMA (R127): FP32 −(a·b) + c rounded once. -/
  | fnma (d a b c g : Nat)
  /-- FNMS (R127): FP32 −(a·b) − c rounded once. -/
  | fnms (d a b c g : Nat)
  /-- FCMP_EQ (R128): Floating-point equality into a predicate. -/
  | fcmpEq (p a b fmt g : Nat)
  /-- FCMP_NE (R128): Floating-point inequality into a predicate. -/
  | fcmpNe (p a b fmt g : Nat)
  /-- FCMP_LT (R128): Floating-point less-than into a predicate. -/
  | fcmpLt (p a b fmt g : Nat)
  /-- FCMP_LE (R128): Floating-point less-or-equal into a predicate. -/
  | fcmpLe (p a b fmt g : Nat)
  /-- FCMP_UN (R128): Unordered test into a predicate. -/
  | fcmpUn (p a b fmt g : Nat)
  /-- FSQRT (R129): Correctly rounded FP32 square root. -/
  | fsqrt (d a g : Nat)
  /-- RCP (R129): Correctly rounded FP32 reciprocal. -/
  | rcp (d a g : Nat)
  /-- RSQRT (R129): Correctly rounded FP32 reciprocal square root. -/
  | rsqrt (d a g : Nat)
  /-- EXP2 (R129): Correctly rounded FP32 power of two. -/
  | exp2 (d a g : Nat)
  /-- LOG2 (R129): Correctly rounded FP32 base-2 logarithm. -/
  | log2 (d a g : Nat)
  /-- CVT (R130): Converts between types with one rounding by the captured mode. -/
  | cvt (d a t u g : Nat)
  /-- CVTO (R130): Converts between types rounding to odd. -/
  | cvto (d a t u g : Nat)
  /-- XACC (R133): Adds a floating-point value exactly into an 80-byte exact accumulator. -/
  | xacc (a b fmt g : Nat)
  /-- XACCP (R133): Adds the exact product of two FP16 or BF16 halves into an accumulator. -/
  | xaccp (a b fmt g : Nat)
  /-- XRND (R133): Rounds an accumulator once into FP32 or binary64. -/
  | xrnd (d a fmt g : Nat)
  /-- XMRG (R133): Adds one accumulator into another. -/
  | xmrg (a b g : Nat)
  /-- XCLR (R133): Zeroes an accumulator. -/
  | xclr (a g : Nat)
  /-- FLI (R131): Loads the 20 high bits of an FP32 value; unguarded. -/
  | fli (d imm : Nat)
  /-- VADD (R136): Lane-wise add. -/
  | vadd (d a b sz sgn g : Nat)
  /-- VSUB (R136): Lane-wise subtract. -/
  | vsub (d a b sz sgn g : Nat)
  /-- VAND (R136): Lane-wise and. -/
  | vand (d a b sz sgn g : Nat)
  /-- VOR (R136): Lane-wise or. -/
  | vor (d a b sz sgn g : Nat)
  /-- VXOR (R136): Lane-wise exclusive or. -/
  | vxor (d a b sz sgn g : Nat)
  /-- VANDN (R136): Lane-wise a and not b. -/
  | vandn (d a b sz sgn g : Nat)
  /-- VORN (R136): Lane-wise a or not b. -/
  | vorn (d a b sz sgn g : Nat)
  /-- VXNOR (R136): Lane-wise xnor. -/
  | vxnor (d a b sz sgn g : Nat)
  /-- VSHL (R136): Lane-wise shift left. -/
  | vshl (d a b sz sgn g : Nat)
  /-- VSHR (R136): Lane-wise logical shift right. -/
  | vshr (d a b sz sgn g : Nat)
  /-- VSRA (R136): Lane-wise arithmetic shift right. -/
  | vsra (d a b sz sgn g : Nat)
  /-- VROL (R136): Lane-wise rotate left. -/
  | vrol (d a b sz sgn g : Nat)
  /-- VROR (R136): Lane-wise rotate right. -/
  | vror (d a b sz sgn g : Nat)
  /-- VADDS (R136): Lane-wise saturating add. -/
  | vadds (d a b sz sgn g : Nat)
  /-- VSUBS (R136): Lane-wise saturating subtract. -/
  | vsubs (d a b sz sgn g : Nat)
  /-- VFADD (R137): Lane-wise floating-point add. -/
  | vfadd (d a b fmt g : Nat)
  /-- VFSUB (R137): Lane-wise floating-point subtract. -/
  | vfsub (d a b fmt g : Nat)
  /-- VFMUL (R137): Lane-wise floating-point multiply. -/
  | vfmul (d a b fmt g : Nat)
  /-- VFDIV (R137): Lane-wise floating-point divide. -/
  | vfdiv (d a b fmt g : Nat)
  /-- VFMIN (R137): Lane-wise floating-point minimum. -/
  | vfmin (d a b fmt g : Nat)
  /-- VFMAX (R137): Lane-wise floating-point maximum. -/
  | vfmax (d a b fmt g : Nat)
  /-- VFABS (R137): Lane-wise absolute value. -/
  | vfabs (d a fmt g : Nat)
  /-- VFNEG (R137): Lane-wise negation. -/
  | vfneg (d a fmt g : Nat)
  /-- VFMA (R137): Lane-wise FP32 a·b + c. -/
  | vfma (d a b c g : Nat)
  /-- VFMS (R137): Lane-wise FP32 a·b − c. -/
  | vfms (d a b c g : Nat)
  /-- VFNMA (R137): Lane-wise FP32 −(a·b) + c. -/
  | vfnma (d a b c g : Nat)
  /-- VFNMS (R137): Lane-wise FP32 −(a·b) − c. -/
  | vfnms (d a b c g : Nat)
  /-- VCMP_EQ (R138): Lane-wise equality mask. -/
  | vcmpEq (d a b t g : Nat)
  /-- VCMP_NE (R138): Lane-wise inequality mask. -/
  | vcmpNe (d a b t g : Nat)
  /-- VCMP_LT (R138): Lane-wise less-than mask. -/
  | vcmpLt (d a b t g : Nat)
  /-- VCMP_LE (R138): Lane-wise less-or-equal mask. -/
  | vcmpLe (d a b t g : Nat)
  /-- VCMP_LTZ (R138): Lane-wise less-than-zero mask, integer types. -/
  | vcmpLtz (d a t g : Nat)
  /-- VCMP_LEZ (R138): Lane-wise less-or-equal-zero mask, integer types. -/
  | vcmpLez (d a t g : Nat)
  /-- VRED_SUM (R139): Reduces lanes by exact sum into a general register. -/
  | vredSum (d a t g : Nat)
  /-- VRED_MIN (R139): Reduces lanes by minimum. -/
  | vredMin (d a t g : Nat)
  /-- VRED_MAX (R139): Reduces lanes by maximum. -/
  | vredMax (d a t g : Nat)
  /-- VRED_AND (R139): Reduces integer lanes by and. -/
  | vredAnd (d a t g : Nat)
  /-- VRED_OR (R139): Reduces integer lanes by or. -/
  | vredOr (d a t g : Nat)
  /-- VRED_XOR (R139): Reduces integer lanes by xor. -/
  | vredXor (d a t g : Nat)
  /-- VSHUF (R140): Shuffles lanes of w[a] by indices in w[b]. -/
  | vshuf (d a b l g : Nat)
  /-- VROTL (R140): Rotates lanes by a count in a general register. -/
  | vrotl (d a b l g : Nat)
  /-- VZIP (R140): Interleaves the low halves of two wide registers. -/
  | vzip (d a b l g : Nat)
  /-- VUNZIP (R140): Takes the even lanes of two concatenated wide registers. -/
  | vunzip (d a b l g : Nat)
  /-- VCVT (R141): Converts a part of a wide register between types. -/
  | vcvt (d a k t u g : Nat)
  /-- VCVTO (R141): Converts a part of a wide register rounding to odd. -/
  | vcvto (d a k t u g : Nat)
  /-- VSEL (R138): Selects lanes of w[a] or w[b] by the top bit of w[d]. -/
  | vsel (d a b l g : Nat)
  /-- VDOT (R142): Per-lane dot product accumulated into 32-bit lanes. -/
  | vdot (d a b t g : Nat)
  /-- VSPLAT (R143): Fills lanes with g[a] + i·k. -/
  | vsplat (d a l k g : Nat)
  /-- GANG_2 (R145): Waits to form a gang of two cores of one row. -/
  | gang2 (g : Nat)
  /-- GANG_4 (R145): Waits to form a gang of four cores. -/
  | gang4 (g : Nat)
  /-- GANG_8 (R145): Waits to form a gang of eight cores. -/
  | gang8 (g : Nat)
  /-- DISBAND (R147): Dissolves the gang and empties q3 buffers. -/
  | disband (g : Nat)
  /-- NGET_G (R149): Reads a register of the same-numbered strand on a neighbour core. -/
  | ngetG (d a b g : Nat)
  /-- NGET_S (R149): Reads a scratchpad doubleword of a neighbour core. -/
  | ngetS (d a b g : Nat)
  /-- NPUT (R149): Writes a scratchpad doubleword of a neighbour core. -/
  | nput (d a b g : Nat)
  /-- LD (R65): Local scratchpad load through the region and swizzle rules. -/
  | ld (d a off sz z g : Nat)
  /-- ST (R65): Local scratchpad store. -/
  | st (d a off sz g : Nat)
  /-- LDW (R66): Loads 64 bytes into a wide register. -/
  | ldw (d a off g : Nat)
  /-- STW (R66): Stores a wide register as 64 bytes. -/
  | stw (d a off g : Nat)
  /-- LDX (R67): Indexed local load. -/
  | ldx (d a b sz sgn sc g : Nat)
  /-- STX (R67): Indexed local store. -/
  | stx (d a b sz sc g : Nat)
  /-- GLD (R70): Asynchronous global load counted in class L, marking g[d] pending. -/
  | gld (d a off sz z g : Nat)
  /-- GST (R70): Asynchronous global store counted in class S. -/
  | gst (d a off sz g : Nat)
  /-- PREF (R70): Prefetch into the cluster cache that may be discarded. -/
  | pref (a off g : Nat)
  /-- PREF_TIER (R70): Requests promotion of a page to HBM4; may be discarded. -/
  | prefTier (a off g : Nat)
  /-- CPY (R75): Issues a 1- to 3-dimensional copy, optionally converting, counted in class C. -/
  | cpy (cv n a b g : Nat)
  /-- CPY_ARM (R173): Arms a copy into an operand tile that starts on its operands-consumed event. -/
  | cpyArm (cv n b t g : Nat)
  /-- WAIT (R78): Stalls until each class count is at or below its field, consuming failures. -/
  | wait (nl ns nc nt nm g : Nat)
  /-- FENCE (R234): Waits until the strand's in-scope remote accesses complete and its messages leave the buffer. -/
  | fence (a g : Nat)
  /-- OWNER (R217): Computes the owner core and offset of an element from a distribution descriptor. -/
  | owner (d a b g : Nat)
  /-- SEND (R207): Forms a message from g[h], the destination and the q1 words and enters it in the outbound buffer. -/
  | send (pri ch fl h d kind g : Nat)
  /-- SENDM (R210): Sends one copy of a message to every core of a rectangle. -/
  | sendm (pri ch fl h d kind g : Nat)
  /-- REPLY (R211): Sends an HP handler reply to the source of the starting message. -/
  | reply (fl h g : Nat)
  /-- RST (R213): Remote store to another core's scratchpad on channel 0. -/
  | rst (d a b sz g : Nat)
  /-- RLD (R213): Remote load from another core's scratchpad. -/
  | rld (d a b sz sgn g : Nat)
  /-- RAMO_ADD (R213): Remote atomic add returning the old value. -/
  | ramoAdd (d a b sz sgn g : Nat)
  /-- RAMO_MIN (R213): Remote atomic minimum. -/
  | ramoMin (d a b sz sgn g : Nat)
  /-- RAMO_MAX (R213): Remote atomic maximum. -/
  | ramoMax (d a b sz sgn g : Nat)
  /-- RAMO_AND (R213): Remote atomic and. -/
  | ramoAnd (d a b sz sgn g : Nat)
  /-- RAMO_OR (R213): Remote atomic or. -/
  | ramoOr (d a b sz sgn g : Nat)
  /-- RAMO_XOR (R213): Remote atomic xor. -/
  | ramoXor (d a b sz sgn g : Nat)
  /-- RAMO_SWAP (R213): Remote atomic swap. -/
  | ramoSwap (d a b sz sgn g : Nat)
  /-- RAMO_FADD (R213): Remote FP32 atomic add rounded by the carried mode. -/
  | ramoFadd (d a b g : Nat)
  /-- MSG_PORCH (R216): Returns the porch segments of the starting message. -/
  | msgPorch (d g : Nat)
  /-- MSG_LEN (R216): Returns the payload capacity and next q0 index. -/
  | msgLen (d g : Nat)
  /-- MSG_SKIP (R216): Skips the remaining payload and releases its porch space. -/
  | msgSkip (g : Nat)
  /-- QENQ (R262): Enqueues and publishes a 64-byte entry, waiting while the queue is full. -/
  | qenq (a b g : Nat)
  /-- QENQ_R (R262): Reserves a queue entry, writes it and returns its ticket unpublished. -/
  | qenqR (d a b g : Nat)
  /-- QCLAIM (R262): Claims the next published entry of a queue. -/
  | qclaim (d a p g : Nat)
  /-- QPUB (R262): Publishes a reserved ticket. -/
  | qpub (a b g : Nat)
  /-- QSTAT (R262): Returns depth and state of a queue. -/
  | qstat (d a g : Nat)
  /-- QFREEZE (R262): Freezes claims from a queue. -/
  | qfreeze (a g : Nat)
  /-- QTHAW (R262): Thaws a frozen queue. -/
  | qthaw (a g : Nat)
  /-- QSKIP (R262): Takes the head entry of a frozen queue. -/
  | qskip (d a g : Nat)
  /-- AMO_ADD (R247): Synchronisation-engine atomic add returning the old value. -/
  | amoAdd (d a b sz g : Nat)
  /-- AMO_MIN (R247): Atomic signed minimum. -/
  | amoMin (d a b sz g : Nat)
  /-- AMO_MAX (R247): Atomic signed maximum. -/
  | amoMax (d a b sz g : Nat)
  /-- AMO_MINZ (R247): Atomic unsigned minimum. -/
  | amoMinz (d a b sz g : Nat)
  /-- AMO_MAXZ (R247): Atomic unsigned maximum. -/
  | amoMaxz (d a b sz g : Nat)
  /-- AMO_AND (R247): Atomic and. -/
  | amoAnd (d a b sz g : Nat)
  /-- AMO_OR (R247): Atomic or. -/
  | amoOr (d a b sz g : Nat)
  /-- AMO_XOR (R247): Atomic xor. -/
  | amoXor (d a b sz g : Nat)
  /-- AMO_SWAP (R247): Atomic swap. -/
  | amoSwap (d a b sz g : Nat)
  /-- AMOCAS (R248): Atomic compare-and-swap on a SYNC location. -/
  | amocas (d a b c sz g : Nat)
  /-- FAMO_FADDX (R250): Reads the rounded XSUM value and adds x exactly. -/
  | famoFaddx (d a b fmt g : Nat)
  /-- FAMO_FMIN (R251): Floating-point atomic minimum on an INT cell. -/
  | famoFmin (d a b fmt g : Nat)
  /-- FAMO_FMAX (R251): Floating-point atomic maximum on an INT cell. -/
  | famoFmax (d a b fmt g : Nat)
  /-- FAMO_FRDX (R250): Reads an XSUM value rounded, optionally clearing it. -/
  | famoFrdx (d a b fmt g : Nat)
  /-- RED_ADD (R253): Non-returning atomic add counted in class S. -/
  | redAdd (a b sz g : Nat)
  /-- RED_MIN (R253): Non-returning signed minimum. -/
  | redMin (a b sz g : Nat)
  /-- RED_MAX (R253): Non-returning signed maximum. -/
  | redMax (a b sz g : Nat)
  /-- RED_MINZ (R253): Non-returning unsigned minimum. -/
  | redMinz (a b sz g : Nat)
  /-- RED_MAXZ (R253): Non-returning unsigned maximum. -/
  | redMaxz (a b sz g : Nat)
  /-- RED_AND (R253): Non-returning atomic and. -/
  | redAnd (a b sz g : Nat)
  /-- RED_OR (R253): Non-returning atomic or. -/
  | redOr (a b sz g : Nat)
  /-- RED_XOR (R253): Non-returning atomic xor. -/
  | redXor (a b sz g : Nat)
  /-- RED_FADDX (R253): Non-returning exact addition into an XSUM cell. -/
  | redFaddx (a b fmt g : Nat)
  /-- RED_FMIN (R253): Non-returning floating-point minimum. -/
  | redFmin (a b fmt g : Nat)
  /-- RED_FMAX (R253): Non-returning floating-point maximum. -/
  | redFmax (a b fmt g : Nat)
  /-- BAR_ARR (R255): Arrives at a barrier and returns the phase as ticket. -/
  | barArr (d a g : Nat)
  /-- BAR_DROP (R255): Arrives and removes one party from the next phase. -/
  | barDrop (d a g : Nat)
  /-- BAR_WAIT (R255): Waits until a barrier phase has completed, checking the scope. -/
  | barWait (a b g : Nat)
  /-- BAR_TEST (R255): Sets a predicate when a barrier phase has completed. -/
  | barTest (p a b g : Nat)
  /-- TSPAWN (R268): Sends a timestamped task spawn to a task unit. -/
  | tspawn (d a b g : Nat)
  /-- TASK_GVT (R279): Reads the last global virtual time received. -/
  | taskGvt (d g : Nat)
  /-- TASK_TS (R279): Reads the current task's timestamp. -/
  | taskTs (d g : Nat)
  /-- MXMA (R168): Issues a matrix step accumulating into an accumulator tile. -/
  | mxma (a b batch acc g : Nat)
  /-- MXMA_Z (R168): Issues a matrix step that ignores the prior accumulator value. -/
  | mxmaZ (a b batch acc g : Nat)
  /-- MXMAS (R168): Issues a 2:4-sparse matrix step accumulating. -/
  | mxmas (a b batch acc g : Nat)
  /-- MXMAS_Z (R168): Issues a 2:4-sparse matrix step without prior term. -/
  | mxmasZ (a b batch acc g : Nat)
  /-- MXMT (R168): Issues a ternary integer matrix step accumulating with saturation. -/
  | mxmt (a b batch acc g : Nat)
  /-- MXMT_Z (R168): Issues a ternary integer matrix step without prior term. -/
  | mxmtZ (a b batch acc g : Nat)
  /-- LEASE (R164): Requests the cluster's array lease, waiting for the grant. -/
  | lease (g : Nat)
  /-- UNLEASE (R164): Releases the array lease if held. -/
  | unlease (g : Nat)
  /-- MXWAITB (R171): Waits for the strand's steps of one batch and consumes their failure. -/
  | mxwaitb (batch g : Nat)
  /-- TLD (R159): Issues an asynchronous tile load from memory. -/
  | tld (t b g : Nat)
  /-- TST (R159): Issues an asynchronous tile store to memory. -/
  | tst (t b g : Nat)
  /-- TZERO (R159): Issues an asynchronous zeroing of a tile. -/
  | tzero (t g : Nat)
  /-- TWAITC (R161): Waits until an operand tile has been read and refilled, consuming failures. -/
  | twaitc (t g : Nat)
  /-- QNT (R175): Quantises memory rows into a block-format tile with outliers. -/
  | qnt (t b g : Nat)
  /-- DQNT (R177): Dequantises a block-format tile to memory. -/
  | dqnt (t b g : Nat)
  /-- ISECT (R186): Intersects two compressed-row lists row by row. -/
  | isect (a b g : Nat)
  /-- PART (R187): Divides rows into parts of near-equal work. -/
  | part (a b g : Nat)
  /-- BMPACK_P (R188): Packs a dense matrix into a bitmap tile. -/
  | bmpackP (a b g : Nat)
  /-- BMPACK_X (R188): Expands a bitmap tile into a dense matrix. -/
  | bmpackX (a b g : Nat)
  /-- BMPACK_C (R188): Converts a bitmap tile to a 2:4-compressed image. -/
  | bmpackC (a b g : Nat)
  /-- BMPACK_CT (R188): Converts a bitmap tile to a 2:4-compressed image of its transpose. -/
  | bmpackCt (a b g : Nat)
  /-- PRUNE (R189): Keeps the N most salient of every M weights into a bitmap tile. -/
  | prune (a b m g : Nat)
  /-- MSEARCH (R190): Searches a 2:4 mask valid both ways for each 4×4 block. -/
  | msearch (a b g : Nat)
  /-- APASS (R283): Opens a page-major attention pass and returns its handle. -/
  | apass (a g : Nat)
  /-- ASUB (R285): Subscribes a query to a pass, or holds it for the next pass. -/
  | asub (a b g : Nat)
  /-- ASUB_ND (R285): Subscribes a query, refusing it if the pass has started. -/
  | asubNd (a b g : Nat)
  /-- AUNSUB (R286): Ends the subscription on a tray slot. -/
  | aunsub (a b g : Nat)
  /-- TRAYPUT (R290): Puts a partial record into a tray slot for merging. -/
  | trayput (a b g : Nat)
  /-- TRAYGET (R293): Waits for a slot's merge and writes the normalised result. -/
  | trayget (a b g : Nat)
  /-- ACLOSE (R294): Closes a pass after begun deliveries. -/
  | aclose (a g : Nat)
  /-- TREC (R327): Starts recording a negative on the issuing core. -/
  | trec (a g : Nat)
  /-- TEND (R327): Ends recording on the issuing core. -/
  | tend (g : Nat)
  /-- TREPLAY (R329): Replays the core's stream of a negative as a print. -/
  | treplay (a b g : Nat)
  /-- TPATCH_A (R328): Declares a retouch slot on operand a of the next recorded command. -/
  | tpatchA (a g : Nat)
  /-- TPATCH_B (R328): Declares a retouch slot on operand b of the next recorded command. -/
  | tpatchB (a g : Nat)
  /-- TPATCH_E (R328): Declares a retouch slot on an engine register of the next recorded command. -/
  | tpatchE (a b g : Nat)
  /-- TGUARD (R328): Appends a value guard checked at its entry. -/
  | tguard (a b g : Nat)
  /-- TGUARD_EARLY (R328): Appends a value guard checked before the print begins. -/
  | tguardEarly (a b g : Nat)
  /-- ESET (R73): Writes an engine shadow register of the strand. -/
  | eset (idx a eng g : Nat)
  /-- TRACE (R418): Sets the strand's trace bit. -/
  | trace (a g : Nat)
  /-- MARK (R418): Forms a MARK trace record. -/
  | mark (a b g : Nat)
  /-- DBG_SET (R423): Arms a breakpoint slot on every core of the job. -/
  | dbgSet (slot a b g : Nat)
  /-- DBG_CLR (R423): Disarms a breakpoint slot. -/
  | dbgClr (slot g : Nat)
  /-- DBG_RD (R423): Reads a doubleword of a breakpoint slot. -/
  | dbgRd (d h slot g : Nat)
  /-- MESSAGE_DELIVERY (R306): The NI consumes an arriving LP message into the LP queue or the cellar. -/
  | messageDelivery (m : Nat)
  /-- ROUTER_BOUNCE (R13): A router consumes a message addressed to no core and bounces it UNREACHABLE. -/
  | routerBounce (m : Nat)
  /-- REMOTE_STORE (R202): The NI performs a kind-1 store and answers with a group-0 reply. -/
  | remoteStore (m : Nat)
  /-- INSTRUCTION_STORE_WRITE (R202): A launch-unit kind-1 message writes the instruction store. -/
  | instructionStoreWrite (m : Nat)
  /-- REMOTE_LOAD (R202): The NI performs a kind-2 read and answers with a group-1 reply. -/
  | remoteLoad (m : Nat)
  /-- REMOTE_ATOMIC (R202): The NI performs a kind-4 atomic and returns the old value. -/
  | remoteAtomic (m : Nat)
  /-- COMPLETION_REPLY (R204): A completion reply matches a reply-table entry and completes the request. -/
  | completionReply (m : Nat)
  /-- HANDLER_REPLY (R204): A handler reply frees its entry and is queued for HP dispatch. -/
  | handlerReply (m : Nat)
  /-- BOUNCE_RECEIVE (R204): A returned bounce completes its request as bounced. -/
  | bounceReceive (m : Nat)
  /-- ENGINE_COMMAND_HANDOFF (R205): A kind-6 message is handed to its engine or answered ILLEGAL. -/
  | engineCommandHandoff (m : Nat)
  /-- START_MESSAGE (R306): A kind-7 start message is held in the start slot for dispatch. -/
  | startMessage (m : Nat)
  /-- PREEMPT_MESSAGE (R322): A kind-7 pre-empt message parks the crew and writes its image. -/
  | preemptMessage (m : Nat)
  /-- FAULT_MESSAGE (R409): A kind-7 fault message starts parking for module-failure recovery. -/
  | faultMessage (m : Nat)
  /-- FREEZE_MESSAGE (R395): A kind-7 freeze message freezes the core's input queue. -/
  | freezeMessage (m : Nat)
  /-- DISPATCH (R9): The NI places the chosen message in the lowest FREE strand and initialises it. -/
  | dispatch (c : Nat)
  /-- CELLAR_DRAIN (R308): The NI moves the oldest cellar message into the LP queue. -/
  | cellarDrain (c : Nat)
  /-- MESSAGE_INJECT (R212): A message leaves the outbound buffer with its STAMP. -/
  | messageInject (c : Nat)
  /-- RUN_QUEUE_POLL (R16): The NI claims a continuation from its run queues. -/
  | runQueuePoll (c : Nat)
  /-- TASK_REQUEST (R271): A core with a FREE strand requests and receives a ready task. -/
  | taskRequest (c : Nat)
  /-- TASK_SPAWN_ACCEPT (R270): A task unit accepts or fails a spawn and spills if full. -/
  | taskSpawnAccept (c k id : Nat)
  /-- SPAWN_RETRY (R270): A waiting spawn is retried after 256 core cycles. -/
  | spawnRetry (c k id : Nat)
  /-- GVT_EPOCH (R274): The engines compute the global virtual time every 2,000 ns. -/
  | gvtEpoch
  /-- VERSIONED_ACCESS (R272): A task's global access is performed against versions at the home bank. -/
  | versionedAccess (c k id : Nat)
  /-- DEFERRED_TRAP_TAKEN (R277): A deferred task trap is taken once the task is earliest. -/
  | deferredTrapTaken (c k : Nat)
  /-- FAULT_BUFFER_RETRY (R396): The die publishes buffered fault records once the route has room. -/
  | faultBufferRetry (d : Nat)
  /-- BREAKPOINT_CLAIM (R422): The launch unit's answer to a ONCE claim stops or releases the strand. -/
  | breakpointClaim (c k : Nat)
  /-- GLOBAL_ACCESS_COMPLETE (R70): A GLD or GST completes with a value or status. -/
  | globalAccessComplete (c k id : Nat)
  /-- COPY_PIECE (R76): A copy piece is performed or fails once its page is available. -/
  | copyPiece (c k id : Nat)
  /-- ARMED_COPY_START (R173): An armed copy starts on its tile's operands-consumed event. -/
  | armedCopyStart (c k id : Nat)
  /-- TILE_COMMAND_COMPLETE (R162): A TLD, TST or TZERO completes, setting or clearing POISON. -/
  | tileCommandComplete (c k id : Nat)
  /-- LEASE_GRANT (R165): The array grants the lease to the next waiting requester. -/
  | leaseGrant (cl : Nat)
  /-- LEASE_RUN_END (R165): A lease run ends after 32 steps or 8 µs. -/
  | leaseRunEnd (cl : Nat)
  /-- MATRIX_STEP_EXECUTE (R168): The array takes the next queued step once its tiles are ready. -/
  | matrixStepExecute (cl : Nat)
  /-- MATRIX_STEP_COMPLETE (R170): A step writes its accumulator and merges flags. -/
  | matrixStepComplete (cl : Nat)
  /-- ARRAY_AGENT_REQUEST (R179): The array agent takes a request or answers busy. -/
  | arrayAgentRequest (m : Nat)
  /-- ARRAY_AGENT_REPLY (R179): The array agent completes a request and sends its reply. -/
  | arrayAgentReply (cl : Nat)
  /-- COPY_AGENT_REQUEST (R83): The copy agent takes a request or answers busy. -/
  | copyAgentRequest (m : Nat)
  /-- COPY_AGENT_REPLY (R83): The copy agent completes a copy and sends its reply. -/
  | copyAgentReply (cl : Nat)
  /-- QUANTISE_COMPLETE (R176): A QNT or DQNT completes, writing the tile or memory. -/
  | quantiseComplete (c k id : Nat)
  /-- INDEX_COMMAND_COMPLETE (R183): An index or pruning command completes. -/
  | indexCommandComplete (c k id : Nat)
  /-- QUEUE_CONTROLLER_REQUEST (R262): The queue controller performs a queue operation and answers. -/
  | queueControllerRequest (m : Nat)
  /-- QENQ_RETRY (R262): A QENQ on a full queue is retried after 256 cycles. -/
  | qenqRetry (c k : Nat)
  /-- SYNC_ACCESS_PERFORMED (R246): An atomic or SYNC-page access is performed at the synchronisation engine. -/
  | syncAccessPerformed (c k id : Nat)
  /-- BARRIER_ARRIVAL (R256): The engine applies an arrival or drop to a barrier cell. -/
  | barrierArrival (c k id : Nat)
  /-- NGET_RETRY (R149): A not-ready NGET or NPUT asks again after 16 cycles. -/
  | ngetRetry (c k : Nat)
  /-- NGET_TIMEOUT (R149): An NGET or NPUT times out and sets p1. -/
  | ngetTimeout (c k : Nat)
  /-- GANG_TIMEOUT (R145): A gang partner wait expires after 65,536 cycles. -/
  | gangTimeout (c k : Nat)
  /-- SLEEP_WAKE (R348): A sleeping strand leaves WAIT when REFTIME reaches its deadline. -/
  | sleepWake (c k : Nat)
  /-- PASS_OPEN (R283): The distributor finishes reading the page list and opens the pass. -/
  | passOpen (c k id : Nat)
  /-- PASS_WINDOW_EXPIRY (R285): A pass's WINDOW deadline starts the pass. -/
  | passWindowExpiry (d n : Nat)
  /-- HELD_SUBSCRIPTION_JOIN (R285): A held subscription joins the next pass of its layer. -/
  | heldSubscriptionJoin (d n : Nat)
  /-- PAGE_DELIVERY_BEGIN (R287): Delivery of the next page begins once buffers and slots allow. -/
  | pageDeliveryBegin (d n : Nat)
  /-- PAGE_READY (R288): A page read completes and is written to subscribers with page-ready messages. -/
  | pageReady (d n : Nat)
  /-- TRAYGET_COMPLETE (R293): A waiting TRAYGET writes its result once every page is merged. -/
  | traygetComplete (c k id : Nat)
  /-- ACLOSE_COMPLETE (R294): A pass closes after its begun deliveries end. -/
  | acloseComplete (c k id : Nat)
  /-- LAUNCH_CLAIM (R313): The launch unit takes the next record by priority. -/
  | launchClaim
  /-- LAUNCH_PLACE (R314): A crew is placed on a free rectangle, tables loaded and start messages sent. -/
  | launchPlace (n : Nat)
  /-- LAUNCH_AGED (R316): A waiting record becomes aged after 50 µs and holds a target. -/
  | launchAged (n : Nat)
  /-- CREW_COMPLETE (R19): The launch unit releases a completed crew's rectangle. -/
  | crewComplete (n : Nat)
  /-- CREW_RESUME (R324): A parked crew is restored from its image on its rectangle. -/
  | crewResume (n : Nat)
  /-- WATCHDOG_PREEMPT_REQUEST (R321): The running-time limit T1 requests pre-emption. -/
  | watchdogPreemptRequest (n : Nat)
  /-- WATCHDOG_KILL (R321): The T2 limit kills every crew of the job. -/
  | watchdogKill (n : Nat)
  /-- WATCHDOG_FENCE (R321): The T3 limit fences cores that have not stopped. -/
  | watchdogFence (n : Nat)
  /-- REPLAY_ENTRY (R335): The next stream entry of a print issues after its predecessor. -/
  | replayEntry (c k : Nat)
  /-- TLBINV_COMPLETE (R366): A TLBINV completes after every old-entry access has ended. -/
  | tlbinvComplete (c k : Nat)
  /-- PAGE_WALK_COMPLETE (R363): A table walk finishes and the translation is used. -/
  | pageWalkComplete (c k id : Nat)
  /-- ABSENT_WALK_RETRY (R364): A walk waiting on an ABSENT entry rereads it. -/
  | absentWalkRetry (c k id : Nat)
  /-- TIER_DEMOTION (R365): A tier below its watermark starts moving a candidate page down. -/
  | tierDemotion (t : Nat)
  /-- TIER_PROMOTION (R365): A PRM touch starts promoting a page to HBM4. -/
  | tierPromotion (c k id : Nat)
  /-- PAGE_MOVE_COMPLETE (R365): A page move rewrites the leaf and restarts waiting walks. -/
  | pageMoveComplete (n : Nat)
  /-- RELOCK_END (R341): The PLL relocks and the core domain restarts at the new frequency. -/
  | relockEnd (d : Nat)
  /-- POWER_LIMIT_STEP (R427): Above PLIMIT the hottest die's clock is lowered one step per 1 ms. -/
  | powerLimitStep (d watts : Nat)
  /-- BANK_WAKE_COMPLETE (R346): A woken bank or way finishes clearing after 2 µs. -/
  | bankWakeComplete (c : Nat)
  /-- MONITOR_SAMPLE (R420): The die samples its monitors every 100 ns. -/
  | monitorSample (d : Nat)
  /-- SCRUB (R410): SRAMs are scrubbed, fencing units with uncorrectable errors. -/
  | scrub (unit loc : Nat)
  /-- FLIT_REPLAY (R410): A flit failing CRC is replayed, fencing the link after 8 failures. -/
  | flitReplay (link fails : Nat)
  /-- MODULE_FAILURE (R409): A failed module is detected and recovery begins. -/
  | moduleFailure (m : Nat)
  /-- KEEPALIVE_SEND (R430): Every port sends a keep-alive flit every 100 µs. -/
  | keepaliveSend
  /-- TIME_FLIT_EXCHANGE (R427): Modules exchange time flits every 100 µs and slew REFTIME. -/
  | timeFlitExchange (adj : Nat)
  /-- FABRIC_PACKET_RECEIVE (R430): An Ethernet fabric packet delivers its messages; its port comes first. -/
  | fabricPacketReceive (words : List Nat)
  /-- ST2110_PACKET (R431): A receive-mode port lands an RTP packet and may send a group message. -/
  | st2110Packet (port stream sn stamp marker place : Nat) (data : List Nat)
  /-- FRAME_DEADLINE (R433): A frame's deadline ends it with an incomplete event. -/
  | frameDeadline (port stream : Nat)
  /-- AGEING_UPDATE (R435): The ageing values are updated every hour. -/
  | ageingUpdate (d : Nat) (words : List Nat)
  /-- SECURITY_ALARM (R384): A sensor raises the alarm at level 1, 2 or 3. -/
  | securityAlarm (level : Nat)
  /-- DEVICE_RESET (R381): Power-up or reset makes the boot ROM wait for a firmware image. -/
  | deviceReset
  /-- HOST_MEMORY_ACCESS (R424): A host CXL.mem access is served in the host-window context. -/
  | hostMemoryAccess (write addr : Nat) (data : List Nat)
  /-- HOST_SNOOP (R424): A host snoop is answered as not holding the line. -/
  | hostSnoop (addr : Nat)
  /-- DOORBELL (R264): A ticket written to DOORBELL reserves and publishes it. -/
  | doorbell (d q ticket : Nat)
  /-- QUEUE_CREATE (R264): Setting VALID to 1 creates a queue. -/
  | queueCreate (d q val : Nat)
  /-- QUEUE_DESTROY (R264): Setting VALID to 0 destroys a queue and increments GEN. -/
  | queueDestroy (d q : Nat)
  /-- SENDER_TABLE_CLEAR (R412): Writing CLEAR zeroes every sender-table entry. -/
  | senderTableClear (c : Nat)
  /-- TRACE_SESSION_OPEN (R414): Setting EN opens a trace session and zeroes SEQ. -/
  | traceSessionOpen (d n val : Nat)
  /-- TRACE_SESSION_CLOSE (R414): Clearing EN closes a session after pending records. -/
  | traceSessionClose (d n : Nat)
  /-- MONITOR_ENABLE (R420): Setting EN starts a monitor after checking its operands. -/
  | monitorEnable (d n val : Nat)
  /-- TAPE_DIRECTORY_WRITE (R330): A write to a tape directory entry is checked and applied. -/
  | tapeDirectoryWrite (d n dw val : Nat)
  /-- FAULT_ROUTE_WRITE (R396): A context writes its fault-route entry. -/
  | faultRouteWrite (d n val : Nat)
  /-- TIMESET (R427): The first TIMESET write after reset sets REFTIME. -/
  | timeset (val : Nat)
  /-- FTARGET (R427): A change of target frequency starts a frequency step. -/
  | ftarget (d val : Nat)
  /-- THAW (R398): Core command that thaws the input queue. -/
  | thaw (c ctx : Nat)
  /-- FREEZE (R398): Core command that freezes the input queue. -/
  | freeze (c ctx : Nat)
  /-- RESUME (R398): Core command that resumes a HALTED strand. -/
  | resume (c k skip ctx : Nat)
  /-- RESTART (R398): Core command that drains and redispatches a HALTED strand. -/
  | restart (c k ctx : Nat)
  /-- DISCARD (R398): Core command that drains and frees a HALTED strand. -/
  | discard (c k ctx : Nat)
  /-- CORE_PREEMPT (R398): Core command that requests pre-emption of the crew. -/
  | corePreempt (c ctx : Nat)
  /-- KILL (R398): Core command that kills every crew of the job. -/
  | kill (c ctx : Nat)
  /-- FWLOAD (R381): Mailbox command that checks and loads a firmware image. -/
  | fwload (addr len : Nat)
  /-- QUOTE (R382): Mailbox command that returns a signed quote. -/
  | quote (nonce gid : Nat)
  /-- CERT (R382): Mailbox command that returns the identity certificate chain. -/
  | cert
  /-- IMPORT (R379): Mailbox command that decrypts a blob into a darkroom context. -/
  | importBlob (gid va len : Nat) (blob : List Nat)
  /-- EXPORT (R379): Mailbox command that exports context data as an encrypted blob. -/
  | exportBlob (gid va len : Nat)
  /-- MAILBOX_CTX (R376): Mailbox command performing CTXLOAD or CTXSAVE for a die. -/
  | mailboxCtx (load n d : Nat) (words : List Nat)
  /-- DBGSET (R423): Mailbox command that sets a breakpoint slot of a job. -/
  | dbgset (job slot pc task : Nat)
  /-- RELEASE (R409): Mailbox command that releases or kills a held crew. -/
  | release (q ticket killed : Nat)
  /-- UNFENCE (R400): Mailbox command that clears a core's fence. -/
  | unfence (c : Nat)
  /-- MAILBOX_PREEMPT (R401): Mailbox command that requests pre-emption of a crew. -/
  | mailboxPreempt (job crew : Nat)
  /-- REGISTER_WRITE (R426): A write to a device register without a row of its own, checked for rights. -/
  | registerWrite (d off val ctx : Nat)
  /-- UNASSIGNED_ENCODING (R41): A strand reaches an instruction word with an unassigned opcode, function or sub code, a non-zero reserved field, an out-of-range number or the all-zero or all-one word, and traps ILLEGAL with its class before the guard is read. -/
  | unassignedEncoding (w cls : Nat)
  /-- INSTRUCTION_FETCH_FAILED (R53): A fetch that cannot complete (resident address at or above 0x8000, unmapped or non-executable page, uncorrectable instruction-store error) traps COPY_ERR sub-reason FETCH, or SOFT_ERR, at the unfetched instruction. -/
  | instructionFetchFailed (why : Nat)
  deriving DecidableEq, Repr

end Sys2Proof
end

