-- ==== Sys2Proof/Machine/Encoding.lean ====
section
/-! DEFINITION. The encoding checks of R41, one by one. `Instr.operands` says how each field of an instruction is read (R28, R29). `Operand.outOfRange`, `Operand.reservedBits` and `Operand.portMisuse` are the checks of a
field, and `Instr.flaw1` and `Instr.flaw2` those combinations of fields that the table excludes.
Log entry 10 says which class is taken where a word breaks several checks. -/

namespace Sys2Proof

/-- How one field of an instruction word is read (R28, R29). -/
inductive Operand where
  /-- a plain number of `w` bits: an immediate, a selector, a guard -/
  | field (v w : Nat)
  /-- a general register or a port that is read: q1 cannot be read -/
  | source (r : Nat)
  /-- a general register or a port that is written: q0 and q2 cannot be written -/
  | dest (r : Nat)
  /-- a general register; a port is port misuse -/
  | noPort (r : Nat)
  /-- g1 to g27; g0 and the ports are port misuse (R376) -/
  | oneUp (r : Nat)
  /-- g0 to g27; a port is out of range (R113) -/
  | general (r : Nat)
  /-- g1 to g27; anything else is out of range (R52, R37) -/
  | counter (r : Nat)
  /-- a predicate in a five-bit field -/
  | pred (p : Nat)
  /-- a wide register -/
  | wide (r : Nat)
  /-- a tile number below `n` -/
  | tile (t n : Nat)
  /-- a breakpoint slot (R423) -/
  | slot (n : Nat)
  deriving DecidableEq, Repr

/-- The value of the field fits the bits that hold it. -/
def Operand.fits : Operand → Bool
  | .field v w => v < 2 ^ w
  | .source r => r < 32
  | .dest r => r < 32
  | .noPort r => r < 32
  | .oneUp r => r < 32
  | .general r => r < 32
  | .counter r => r < 32
  | .pred p => p < 32
  | .wide r => r < 32
  | .tile t _ => t < 32
  | .slot n => n < 32

/-- Class 3 of R41: a register, wide, tile or slot number out of range. -/
def Operand.outOfRange : Operand → Bool
  | .general r => 28 ≤ r
  | .counter r => r == 0 || 28 ≤ r
  | .wide r => 16 ≤ r
  | .tile t n => n ≤ t
  | .slot n => 8 ≤ n
  | _ => false

/-- The reserved high 2 bits of a field that names a predicate (R28): class 2 (DEDUCED, log entry 10). -/
def Operand.reservedBits : Operand → Bool
  | .pred p => 8 ≤ p
  | _ => false

/-- Class 4 of R41: a port in a direction, or in a field, that does not support it. -/
def Operand.portMisuse : Operand → Bool
  | .source r => r == 29
  | .dest r => r == 28 || r == 30
  | .noPort r => 28 ≤ r
  | .oneUp r => r == 0 || 28 ≤ r
  | _ => false

/-- How each field of each instruction is read; an event has no fields. -/
def Instr.operands : Instr → List Operand
  | .br cond sense off => [.field cond 3, .field sense 1, .field off 21]
  | .call cond sense off => [.field cond 3, .field sense 1, .field off 21]
  | .jmp a g => [.source a, .field g 3]
  | .callr a g => [.source a, .field g 3]
  | .ret g => [.field g 3]
  | .loop d imm g => [.counter d, .field imm 12, .field g 3]
  | .exitEnd g => [.field g 3]
  | .suspend a b g => [.source a, .source b, .field g 3]
  | .yield b g => [.source b, .field g 3]
  | .trap imm g => [.field imm 12, .field g 3]
  | .rft g => [.field g 3]
  | .rftSkip g => [.field g 3]
  | .sleep a g => [.noPort a, .field g 3]
  | .csrr d imm g => [.dest d, .field imm 12, .field g 3]
  | .csrw a imm g => [.source a, .field imm 12, .field g 3]
  | .tlbinv a b g => [.noPort a, .noPort b, .field g 3]
  | .tlbinvAll g => [.field g 3]
  | .pgateS a g => [.noPort a, .field g 3]
  | .pgateW a g => [.noPort a, .field g 3]
  | .ctxload d a b g => [.oneUp d, .noPort a, .noPort b, .field g 3]
  | .ctxsave d a b g => [.oneUp d, .noPort a, .noPort b, .field g 3]
  | .flagsGet d g => [.noPort d, .field g 3]
  | .flagsClr a g => [.source a, .field g 3]
  | .flagsSet a g => [.source a, .field g 3]
  | .add d a b sz sgn g => [.dest d, .source a, .source b, .field sz 2, .field sgn 1, .field g 3]
  | .sub d a b sz sgn g => [.dest d, .source a, .source b, .field sz 2, .field sgn 1, .field g 3]
  | .and d a b sz sgn g => [.dest d, .source a, .source b, .field sz 2, .field sgn 1, .field g 3]
  | .or d a b sz sgn g => [.dest d, .source a, .source b, .field sz 2, .field sgn 1, .field g 3]
  | .xor d a b sz sgn g => [.dest d, .source a, .source b, .field sz 2, .field sgn 1, .field g 3]
  | .andn d a b sz sgn g => [.dest d, .source a, .source b, .field sz 2, .field sgn 1, .field g 3]
  | .orn d a b sz sgn g => [.dest d, .source a, .source b, .field sz 2, .field sgn 1, .field g 3]
  | .xnor d a b sz sgn g => [.dest d, .source a, .source b, .field sz 2, .field sgn 1, .field g 3]
  | .shl d a b sz sgn g => [.dest d, .source a, .source b, .field sz 2, .field sgn 1, .field g 3]
  | .shr d a b sz sgn g => [.dest d, .source a, .source b, .field sz 2, .field sgn 1, .field g 3]
  | .sra d a b sz sgn g => [.dest d, .source a, .source b, .field sz 2, .field sgn 1, .field g 3]
  | .rol d a b sz sgn g => [.dest d, .source a, .source b, .field sz 2, .field sgn 1, .field g 3]
  | .ror d a b sz sgn g => [.dest d, .source a, .source b, .field sz 2, .field sgn 1, .field g 3]
  | .addi d a imm g => [.dest d, .source a, .field imm 12, .field g 3]
  | .andi d a imm g => [.dest d, .source a, .field imm 12, .field g 3]
  | .ori d a imm g => [.dest d, .source a, .field imm 12, .field g 3]
  | .xori d a imm g => [.dest d, .source a, .field imm 12, .field g 3]
  | .shli d a sh g => [.dest d, .source a, .field sh 6, .field g 3]
  | .shri d a sh g => [.dest d, .source a, .field sh 6, .field g 3]
  | .srai d a sh g => [.dest d, .source a, .field sh 6, .field g 3]
  | .mul d a b sz sgn g => [.dest d, .source a, .source b, .field sz 2, .field sgn 1, .field g 3]
  | .mulh d a b sz sgn g => [.dest d, .source a, .source b, .field sz 2, .field sgn 1, .field g 3]
  | .div d a b sz sgn g => [.dest d, .source a, .source b, .field sz 2, .field sgn 1, .field g 3]
  | .rem d a b sz sgn g => [.dest d, .source a, .source b, .field sz 2, .field sgn 1, .field g 3]
  | .cmpEq p a b sz sgn g => [.pred p, .source a, .source b, .field sz 2, .field sgn 1, .field g 3]
  | .cmpNe p a b sz sgn g => [.pred p, .source a, .source b, .field sz 2, .field sgn 1, .field g 3]
  | .cmpLt p a b sz sgn g => [.pred p, .source a, .source b, .field sz 2, .field sgn 1, .field g 3]
  | .cmpLe p a b sz sgn g => [.pred p, .source a, .source b, .field sz 2, .field sgn 1, .field g 3]
  | .cmpGt p a b sz sgn g => [.pred p, .source a, .source b, .field sz 2, .field sgn 1, .field g 3]
  | .cmpGe p a b sz sgn g => [.pred p, .source a, .source b, .field sz 2, .field sgn 1, .field g 3]
  | .cmpiEq p a imm g => [.pred p, .source a, .field imm 9, .field g 3]
  | .cmpiNe p a imm g => [.pred p, .source a, .field imm 9, .field g 3]
  | .cmpiLtS64 p a imm g => [.pred p, .source a, .field imm 9, .field g 3]
  | .cmpiLeS64 p a imm g => [.pred p, .source a, .field imm 9, .field g 3]
  | .cmpiGtS64 p a imm g => [.pred p, .source a, .field imm 9, .field g 3]
  | .cmpiGeS64 p a imm g => [.pred p, .source a, .field imm 9, .field g 3]
  | .cmpiLtZ64 p a imm g => [.pred p, .source a, .field imm 9, .field g 3]
  | .cmpiGeZ64 p a imm g => [.pred p, .source a, .field imm 9, .field g 3]
  | .clz d a sz sgn g => [.dest d, .source a, .field sz 2, .field sgn 1, .field g 3]
  | .ctz d a sz sgn g => [.dest d, .source a, .field sz 2, .field sgn 1, .field g 3]
  | .popc d a sz sgn g => [.dest d, .source a, .field sz 2, .field sgn 1, .field g 3]
  | .brev d a sz sgn g => [.dest d, .source a, .field sz 2, .field sgn 1, .field g 3]
  | .bswap d a sz sgn g => [.dest d, .source a, .field sz 2, .field sgn 1, .field g 3]
  | .sel d a b p g => [.dest d, .source a, .source b, .field p 3, .field g 3]
  | .li d imm => [.general d, .field imm 20]
  | .lui d imm => [.general d, .field imm 20]
  | .adda d a b g => [.dest d, .source a, .source b, .field g 3]
  | .addai d a imm g => [.dest d, .source a, .field imm 12, .field g 3]
  | .ptrSet d a b g => [.dest d, .source a, .source b, .field g 3]
  | .ptrGet d a g => [.dest d, .source a, .field g 3]
  | .ptrClr d a g => [.dest d, .source a, .field g 3]
  | .predAnd d a b g => [.pred d, .pred a, .pred b, .field g 3]
  | .predOr d a b g => [.pred d, .pred a, .pred b, .field g 3]
  | .predXor d a b g => [.pred d, .pred a, .pred b, .field g 3]
  | .predAndn d a b g => [.pred d, .pred a, .pred b, .field g 3]
  | .predNot d a g => [.pred d, .pred a, .field g 3]
  | .predFromg d a g => [.pred d, .source a, .field g 3]
  | .predTog d a g => [.dest d, .pred a, .field g 3]
  | .coordSelf d g => [.dest d, .field g 3]
  | .coordPack d a b g => [.dest d, .source a, .source b, .field g 3]
  | .coordX d a g => [.dest d, .source a, .field g 3]
  | .coordY d a g => [.dest d, .source a, .field g 3]
  | .coordAdd d a b g => [.dest d, .source a, .source b, .field g 3]
  | .min d a b sz sgn g => [.dest d, .source a, .source b, .field sz 2, .field sgn 1, .field g 3]
  | .max d a b sz sgn g => [.dest d, .source a, .source b, .field sz 2, .field sgn 1, .field g 3]
  | .absd d a b sz sgn g => [.dest d, .source a, .source b, .field sz 2, .field sgn 1, .field g 3]
  | .muli d a imm g => [.dest d, .source a, .field imm 12, .field g 3]
  | .fadd d a b fmt g => [.dest d, .source a, .source b, .field fmt 2, .field g 3]
  | .fsub d a b fmt g => [.dest d, .source a, .source b, .field fmt 2, .field g 3]
  | .fmul d a b fmt g => [.dest d, .source a, .source b, .field fmt 2, .field g 3]
  | .fdiv d a b fmt g => [.dest d, .source a, .source b, .field fmt 2, .field g 3]
  | .fmin d a b fmt g => [.dest d, .source a, .source b, .field fmt 2, .field g 3]
  | .fmax d a b fmt g => [.dest d, .source a, .source b, .field fmt 2, .field g 3]
  | .fabs d a fmt g => [.dest d, .source a, .field fmt 2, .field g 3]
  | .fneg d a fmt g => [.dest d, .source a, .field fmt 2, .field g 3]
  | .fma d a b c g => [.dest d, .source a, .source b, .source c, .field g 3]
  | .fms d a b c g => [.dest d, .source a, .source b, .source c, .field g 3]
  | .fnma d a b c g => [.dest d, .source a, .source b, .source c, .field g 3]
  | .fnms d a b c g => [.dest d, .source a, .source b, .source c, .field g 3]
  | .fcmpEq p a b fmt g => [.pred p, .source a, .source b, .field fmt 2, .field g 3]
  | .fcmpNe p a b fmt g => [.pred p, .source a, .source b, .field fmt 2, .field g 3]
  | .fcmpLt p a b fmt g => [.pred p, .source a, .source b, .field fmt 2, .field g 3]
  | .fcmpLe p a b fmt g => [.pred p, .source a, .source b, .field fmt 2, .field g 3]
  | .fcmpUn p a b fmt g => [.pred p, .source a, .source b, .field fmt 2, .field g 3]
  | .fsqrt d a g => [.dest d, .source a, .field g 3]
  | .rcp d a g => [.dest d, .source a, .field g 3]
  | .rsqrt d a g => [.dest d, .source a, .field g 3]
  | .exp2 d a g => [.dest d, .source a, .field g 3]
  | .log2 d a g => [.dest d, .source a, .field g 3]
  | .cvt d a t u g => [.dest d, .source a, .field t 3, .field u 3, .field g 3]
  | .cvto d a t u g => [.dest d, .source a, .field t 3, .field u 3, .field g 3]
  | .xacc a b fmt g => [.source a, .source b, .field fmt 2, .field g 3]
  | .xaccp a b fmt g => [.source a, .source b, .field fmt 2, .field g 3]
  | .xrnd d a fmt g => [.dest d, .source a, .field fmt 2, .field g 3]
  | .xmrg a b g => [.source a, .source b, .field g 3]
  | .xclr a g => [.source a, .field g 3]
  | .fli d imm => [.dest d, .field imm 20]
  | .vadd d a b sz sgn g => [.wide d, .wide a, .wide b, .field sz 2, .field sgn 1, .field g 3]
  | .vsub d a b sz sgn g => [.wide d, .wide a, .wide b, .field sz 2, .field sgn 1, .field g 3]
  | .vand d a b sz sgn g => [.wide d, .wide a, .wide b, .field sz 2, .field sgn 1, .field g 3]
  | .vor d a b sz sgn g => [.wide d, .wide a, .wide b, .field sz 2, .field sgn 1, .field g 3]
  | .vxor d a b sz sgn g => [.wide d, .wide a, .wide b, .field sz 2, .field sgn 1, .field g 3]
  | .vandn d a b sz sgn g => [.wide d, .wide a, .wide b, .field sz 2, .field sgn 1, .field g 3]
  | .vorn d a b sz sgn g => [.wide d, .wide a, .wide b, .field sz 2, .field sgn 1, .field g 3]
  | .vxnor d a b sz sgn g => [.wide d, .wide a, .wide b, .field sz 2, .field sgn 1, .field g 3]
  | .vshl d a b sz sgn g => [.wide d, .wide a, .wide b, .field sz 2, .field sgn 1, .field g 3]
  | .vshr d a b sz sgn g => [.wide d, .wide a, .wide b, .field sz 2, .field sgn 1, .field g 3]
  | .vsra d a b sz sgn g => [.wide d, .wide a, .wide b, .field sz 2, .field sgn 1, .field g 3]
  | .vrol d a b sz sgn g => [.wide d, .wide a, .wide b, .field sz 2, .field sgn 1, .field g 3]
  | .vror d a b sz sgn g => [.wide d, .wide a, .wide b, .field sz 2, .field sgn 1, .field g 3]
  | .vadds d a b sz sgn g => [.wide d, .wide a, .wide b, .field sz 2, .field sgn 1, .field g 3]
  | .vsubs d a b sz sgn g => [.wide d, .wide a, .wide b, .field sz 2, .field sgn 1, .field g 3]
  | .vfadd d a b fmt g => [.wide d, .wide a, .wide b, .field fmt 2, .field g 3]
  | .vfsub d a b fmt g => [.wide d, .wide a, .wide b, .field fmt 2, .field g 3]
  | .vfmul d a b fmt g => [.wide d, .wide a, .wide b, .field fmt 2, .field g 3]
  | .vfdiv d a b fmt g => [.wide d, .wide a, .wide b, .field fmt 2, .field g 3]
  | .vfmin d a b fmt g => [.wide d, .wide a, .wide b, .field fmt 2, .field g 3]
  | .vfmax d a b fmt g => [.wide d, .wide a, .wide b, .field fmt 2, .field g 3]
  | .vfabs d a fmt g => [.wide d, .wide a, .field fmt 2, .field g 3]
  | .vfneg d a fmt g => [.wide d, .wide a, .field fmt 2, .field g 3]
  | .vfma d a b c g => [.wide d, .wide a, .wide b, .wide c, .field g 3]
  | .vfms d a b c g => [.wide d, .wide a, .wide b, .wide c, .field g 3]
  | .vfnma d a b c g => [.wide d, .wide a, .wide b, .wide c, .field g 3]
  | .vfnms d a b c g => [.wide d, .wide a, .wide b, .wide c, .field g 3]
  | .vcmpEq d a b t g => [.wide d, .wide a, .wide b, .field t 3, .field g 3]
  | .vcmpNe d a b t g => [.wide d, .wide a, .wide b, .field t 3, .field g 3]
  | .vcmpLt d a b t g => [.wide d, .wide a, .wide b, .field t 3, .field g 3]
  | .vcmpLe d a b t g => [.wide d, .wide a, .wide b, .field t 3, .field g 3]
  | .vcmpLtz d a t g => [.wide d, .wide a, .field t 3, .field g 3]
  | .vcmpLez d a t g => [.wide d, .wide a, .field t 3, .field g 3]
  | .vredSum d a t g => [.dest d, .wide a, .field t 3, .field g 3]
  | .vredMin d a t g => [.dest d, .wide a, .field t 3, .field g 3]
  | .vredMax d a t g => [.dest d, .wide a, .field t 3, .field g 3]
  | .vredAnd d a t g => [.dest d, .wide a, .field t 3, .field g 3]
  | .vredOr d a t g => [.dest d, .wide a, .field t 3, .field g 3]
  | .vredXor d a t g => [.dest d, .wide a, .field t 3, .field g 3]
  | .vshuf d a b l g => [.wide d, .wide a, .wide b, .field l 2, .field g 3]
  | .vrotl d a b l g => [.wide d, .wide a, .source b, .field l 2, .field g 3]
  | .vzip d a b l g => [.wide d, .wide a, .wide b, .field l 2, .field g 3]
  | .vunzip d a b l g => [.wide d, .wide a, .wide b, .field l 2, .field g 3]
  | .vcvt d a k t u g => [.wide d, .wide a, .field k 5, .field t 3, .field u 3, .field g 3]
  | .vcvto d a k t u g => [.wide d, .wide a, .field k 5, .field t 3, .field u 3, .field g 3]
  | .vsel d a b l g => [.wide d, .wide a, .wide b, .field l 2, .field g 3]
  | .vdot d a b t g => [.wide d, .wide a, .wide b, .field t 2, .field g 3]
  | .vsplat d a l k g => [.wide d, .source a, .field l 2, .field k 10, .field g 3]
  | .gang2 g => [.field g 3]
  | .gang4 g => [.field g 3]
  | .gang8 g => [.field g 3]
  | .disband g => [.field g 3]
  | .ngetG d a b g => [.noPort d, .source a, .noPort b, .field g 3]
  | .ngetS d a b g => [.noPort d, .source a, .source b, .field g 3]
  | .nput d a b g => [.noPort d, .source a, .source b, .field g 3]
  | .ld d a off sz z g => [.dest d, .source a, .field off 9, .field sz 2, .field z 1, .field g 3]
  | .st d a off sz g => [.source d, .source a, .field off 9, .field sz 2, .field g 3]
  | .ldw d a off g => [.wide d, .source a, .field off 9, .field g 3]
  | .stw d a off g => [.wide d, .source a, .field off 9, .field g 3]
  | .ldx d a b sz sgn sc g => [.dest d, .source a, .source b, .field sz 2, .field sgn 1, .field sc 2, .field g 3]
  | .stx d a b sz sc g => [.source d, .source a, .source b, .field sz 2, .field sc 2, .field g 3]
  | .gld d a off sz z g => [.noPort d, .source a, .field off 9, .field sz 2, .field z 1, .field g 3]
  | .gst d a off sz g => [.source d, .source a, .field off 9, .field sz 2, .field g 3]
  | .pref a off g => [.source a, .field off 9, .field g 3]
  | .prefTier a off g => [.source a, .field off 9, .field g 3]
  | .cpy cv n a b g => [.field cv 1, .field n 2, .source a, .source b, .field g 3]
  | .cpyArm cv n b t g => [.field cv 1, .field n 2, .source b, .field t 3, .field g 3]
  | .wait nl ns nc nt nm g => [.field nl 4, .field ns 4, .field nc 4, .field nt 4, .field nm 4, .field g 3]
  | .fence a g => [.source a, .field g 3]
  | .owner d a b g => [.dest d, .source a, .source b, .field g 3]
  | .send pri ch fl h d kind g => [.field pri 1, .field ch 2, .field fl 3, .counter h, .counter d, .field kind 3, .field g 3]
  | .sendm pri ch fl h d kind g => [.field pri 1, .field ch 2, .field fl 3, .counter h, .counter d, .field kind 3, .field g 3]
  | .reply fl h g => [.field fl 3, .counter h, .field g 3]
  | .rst d a b sz g => [.source d, .source a, .source b, .field sz 2, .field g 3]
  | .rld d a b sz sgn g => [.noPort d, .source a, .source b, .field sz 2, .field sgn 1, .field g 3]
  | .ramoAdd d a b sz sgn g => [.noPort d, .source a, .source b, .field sz 2, .field sgn 1, .field g 3]
  | .ramoMin d a b sz sgn g => [.noPort d, .source a, .source b, .field sz 2, .field sgn 1, .field g 3]
  | .ramoMax d a b sz sgn g => [.noPort d, .source a, .source b, .field sz 2, .field sgn 1, .field g 3]
  | .ramoAnd d a b sz sgn g => [.noPort d, .source a, .source b, .field sz 2, .field sgn 1, .field g 3]
  | .ramoOr d a b sz sgn g => [.noPort d, .source a, .source b, .field sz 2, .field sgn 1, .field g 3]
  | .ramoXor d a b sz sgn g => [.noPort d, .source a, .source b, .field sz 2, .field sgn 1, .field g 3]
  | .ramoSwap d a b sz sgn g => [.noPort d, .source a, .source b, .field sz 2, .field sgn 1, .field g 3]
  | .ramoFadd d a b g => [.noPort d, .source a, .source b, .field g 3]
  | .msgPorch d g => [.noPort d, .field g 3]
  | .msgLen d g => [.noPort d, .field g 3]
  | .msgSkip g => [.field g 3]
  | .qenq a b g => [.source a, .wide b, .field g 3]
  | .qenqR d a b g => [.oneUp d, .source a, .wide b, .field g 3]
  | .qclaim d a p g => [.wide d, .source a, .pred p, .field g 3]
  | .qpub a b g => [.source a, .source b, .field g 3]
  | .qstat d a g => [.noPort d, .source a, .field g 3]
  | .qfreeze a g => [.source a, .field g 3]
  | .qthaw a g => [.source a, .field g 3]
  | .qskip d a g => [.wide d, .source a, .field g 3]
  | .amoAdd d a b sz g => [.noPort d, .source a, .source b, .field sz 2, .field g 3]
  | .amoMin d a b sz g => [.noPort d, .source a, .source b, .field sz 2, .field g 3]
  | .amoMax d a b sz g => [.noPort d, .source a, .source b, .field sz 2, .field g 3]
  | .amoMinz d a b sz g => [.noPort d, .source a, .source b, .field sz 2, .field g 3]
  | .amoMaxz d a b sz g => [.noPort d, .source a, .source b, .field sz 2, .field g 3]
  | .amoAnd d a b sz g => [.noPort d, .source a, .source b, .field sz 2, .field g 3]
  | .amoOr d a b sz g => [.noPort d, .source a, .source b, .field sz 2, .field g 3]
  | .amoXor d a b sz g => [.noPort d, .source a, .source b, .field sz 2, .field g 3]
  | .amoSwap d a b sz g => [.noPort d, .source a, .source b, .field sz 2, .field g 3]
  | .amocas d a b c sz g => [.noPort d, .source a, .source b, .source c, .field sz 2, .field g 3]
  | .famoFaddx d a b fmt g => [.noPort d, .source a, .source b, .field fmt 2, .field g 3]
  | .famoFmin d a b fmt g => [.noPort d, .source a, .source b, .field fmt 2, .field g 3]
  | .famoFmax d a b fmt g => [.noPort d, .source a, .source b, .field fmt 2, .field g 3]
  | .famoFrdx d a b fmt g => [.noPort d, .source a, .source b, .field fmt 2, .field g 3]
  | .redAdd a b sz g => [.source a, .source b, .field sz 2, .field g 3]
  | .redMin a b sz g => [.source a, .source b, .field sz 2, .field g 3]
  | .redMax a b sz g => [.source a, .source b, .field sz 2, .field g 3]
  | .redMinz a b sz g => [.source a, .source b, .field sz 2, .field g 3]
  | .redMaxz a b sz g => [.source a, .source b, .field sz 2, .field g 3]
  | .redAnd a b sz g => [.source a, .source b, .field sz 2, .field g 3]
  | .redOr a b sz g => [.source a, .source b, .field sz 2, .field g 3]
  | .redXor a b sz g => [.source a, .source b, .field sz 2, .field g 3]
  | .redFaddx a b fmt g => [.source a, .source b, .field fmt 2, .field g 3]
  | .redFmin a b fmt g => [.source a, .source b, .field fmt 2, .field g 3]
  | .redFmax a b fmt g => [.source a, .source b, .field fmt 2, .field g 3]
  | .barArr d a g => [.noPort d, .source a, .field g 3]
  | .barDrop d a g => [.noPort d, .source a, .field g 3]
  | .barWait a b g => [.source a, .source b, .field g 3]
  | .barTest p a b g => [.pred p, .source a, .source b, .field g 3]
  | .tspawn d a b g => [.noPort d, .noPort a, .noPort b, .field g 3]
  | .taskGvt d g => [.noPort d, .field g 3]
  | .taskTs d g => [.noPort d, .field g 3]
  | .mxma a b batch acc g => [.tile a 8, .tile b 8, .field batch 2, .field acc 2, .field g 3]
  | .mxmaZ a b batch acc g => [.tile a 8, .tile b 8, .field batch 2, .field acc 2, .field g 3]
  | .mxmas a b batch acc g => [.tile a 8, .tile b 8, .field batch 2, .field acc 2, .field g 3]
  | .mxmasZ a b batch acc g => [.tile a 8, .tile b 8, .field batch 2, .field acc 2, .field g 3]
  | .mxmt a b batch acc g => [.tile a 8, .tile b 8, .field batch 2, .field acc 2, .field g 3]
  | .mxmtZ a b batch acc g => [.tile a 8, .tile b 8, .field batch 2, .field acc 2, .field g 3]
  | .lease g => [.field g 3]
  | .unlease g => [.field g 3]
  | .mxwaitb batch g => [.field batch 2, .field g 3]
  | .tld t b g => [.tile t 12, .source b, .field g 3]
  | .tst t b g => [.tile t 12, .source b, .field g 3]
  | .tzero t g => [.tile t 12, .field g 3]
  | .twaitc t g => [.tile t 8, .field g 3]
  | .qnt t b g => [.tile t 8, .source b, .field g 3]
  | .dqnt t b g => [.tile t 8, .source b, .field g 3]
  | .isect a b g => [.noPort a, .noPort b, .field g 3]
  | .part a b g => [.noPort a, .noPort b, .field g 3]
  | .bmpackP a b g => [.noPort a, .noPort b, .field g 3]
  | .bmpackX a b g => [.noPort a, .noPort b, .field g 3]
  | .bmpackC a b g => [.noPort a, .noPort b, .field g 3]
  | .bmpackCt a b g => [.noPort a, .noPort b, .field g 3]
  | .prune a b m g => [.noPort a, .noPort b, .field m 5, .field g 3]
  | .msearch a b g => [.noPort a, .noPort b, .field g 3]
  | .apass a g => [.noPort a, .field g 3]
  | .asub a b g => [.noPort a, .noPort b, .field g 3]
  | .asubNd a b g => [.noPort a, .noPort b, .field g 3]
  | .aunsub a b g => [.noPort a, .noPort b, .field g 3]
  | .trayput a b g => [.noPort a, .noPort b, .field g 3]
  | .trayget a b g => [.noPort a, .noPort b, .field g 3]
  | .aclose a g => [.noPort a, .field g 3]
  | .trec a g => [.noPort a, .field g 3]
  | .tend g => [.field g 3]
  | .treplay a b g => [.noPort a, .noPort b, .field g 3]
  | .tpatchA a g => [.noPort a, .field g 3]
  | .tpatchB a g => [.noPort a, .field g 3]
  | .tpatchE a b g => [.noPort a, .noPort b, .field g 3]
  | .tguard a b g => [.noPort a, .noPort b, .field g 3]
  | .tguardEarly a b g => [.noPort a, .noPort b, .field g 3]
  | .eset idx a eng g => [.field idx 7, .source a, .field eng 5, .field g 3]
  | .trace a g => [.noPort a, .field g 3]
  | .mark a b g => [.noPort a, .noPort b, .field g 3]
  | .dbgSet slot a b g => [.slot slot, .noPort a, .noPort b, .field g 3]
  | .dbgClr slot g => [.slot slot, .field g 3]
  | .dbgRd d h slot g => [.noPort d, .field h 5, .slot slot, .field g 3]
  | .messageDelivery _ => []
  | .routerBounce _ => []
  | .remoteStore _ => []
  | .instructionStoreWrite _ => []
  | .remoteLoad _ => []
  | .remoteAtomic _ => []
  | .completionReply _ => []
  | .handlerReply _ => []
  | .bounceReceive _ => []
  | .engineCommandHandoff _ => []
  | .startMessage _ => []
  | .preemptMessage _ => []
  | .faultMessage _ => []
  | .freezeMessage _ => []
  | .dispatch _ => []
  | .cellarDrain _ => []
  | .messageInject _ => []
  | .runQueuePoll _ => []
  | .taskRequest _ => []
  | .taskSpawnAccept _ _ _ => []
  | .spawnRetry _ _ _ => []
  | .gvtEpoch => []
  | .versionedAccess _ _ _ => []
  | .deferredTrapTaken _ _ => []
  | .faultBufferRetry _ => []
  | .breakpointClaim _ _ => []
  | .globalAccessComplete _ _ _ => []
  | .copyPiece _ _ _ => []
  | .armedCopyStart _ _ _ => []
  | .tileCommandComplete _ _ _ => []
  | .leaseGrant _ => []
  | .leaseRunEnd _ => []
  | .matrixStepExecute _ => []
  | .matrixStepComplete _ => []
  | .arrayAgentRequest _ => []
  | .arrayAgentReply _ => []
  | .copyAgentRequest _ => []
  | .copyAgentReply _ => []
  | .quantiseComplete _ _ _ => []
  | .indexCommandComplete _ _ _ => []
  | .queueControllerRequest _ => []
  | .qenqRetry _ _ => []
  | .syncAccessPerformed _ _ _ => []
  | .barrierArrival _ _ _ => []
  | .ngetRetry _ _ => []
  | .ngetTimeout _ _ => []
  | .gangTimeout _ _ => []
  | .sleepWake _ _ => []
  | .passOpen _ _ _ => []
  | .passWindowExpiry _ _ => []
  | .heldSubscriptionJoin _ _ => []
  | .pageDeliveryBegin _ _ => []
  | .pageReady _ _ => []
  | .traygetComplete _ _ _ => []
  | .acloseComplete _ _ _ => []
  | .launchClaim => []
  | .launchPlace _ => []
  | .launchAged _ => []
  | .crewComplete _ => []
  | .crewResume _ => []
  | .watchdogPreemptRequest _ => []
  | .watchdogKill _ => []
  | .watchdogFence _ => []
  | .replayEntry _ _ => []
  | .tlbinvComplete _ _ => []
  | .pageWalkComplete _ _ _ => []
  | .absentWalkRetry _ _ _ => []
  | .tierDemotion _ => []
  | .tierPromotion _ _ _ => []
  | .pageMoveComplete _ => []
  | .relockEnd _ => []
  | .powerLimitStep _ _ => []
  | .bankWakeComplete _ => []
  | .monitorSample _ => []
  | .scrub _ _ => []
  | .flitReplay _ _ => []
  | .moduleFailure _ => []
  | .keepaliveSend => []
  | .timeFlitExchange _ => []
  | .fabricPacketReceive _ => []
  | .st2110Packet _ _ _ _ _ _ _ => []
  | .frameDeadline _ _ => []
  | .ageingUpdate _ _ => []
  | .securityAlarm _ => []
  | .deviceReset => []
  | .hostMemoryAccess _ _ _ => []
  | .hostSnoop _ => []
  | .doorbell _ _ _ => []
  | .queueCreate _ _ _ => []
  | .queueDestroy _ _ => []
  | .senderTableClear _ => []
  | .traceSessionOpen _ _ _ => []
  | .traceSessionClose _ _ => []
  | .monitorEnable _ _ _ => []
  | .tapeDirectoryWrite _ _ _ _ => []
  | .faultRouteWrite _ _ _ => []
  | .timeset _ => []
  | .ftarget _ _ => []
  | .thaw _ _ => []
  | .freeze _ _ => []
  | .resume _ _ _ _ => []
  | .restart _ _ _ => []
  | .discard _ _ _ => []
  | .corePreempt _ _ => []
  | .kill _ _ => []
  | .fwload _ _ => []
  | .quote _ _ => []
  | .cert => []
  | .importBlob _ _ _ _ => []
  | .exportBlob _ _ _ => []
  | .mailboxCtx _ _ _ _ => []
  | .dbgset _ _ _ _ => []
  | .release _ _ _ => []
  | .unfence _ => []
  | .mailboxPreempt _ _ => []
  | .registerWrite _ _ _ _ => []
  | .unassignedEncoding _ _ => []
  | .instructionFetchFailed _ => []

/-- The control registers of R31. -/
def csrListed (n : Nat) : Bool :=
  n == 0x000 || n == 0x001 || (0x010 ≤ n && n ≤ 0x013) || (0x020 ≤ n && n ≤ 0x026) || (0x030 ≤ n && n ≤ 0x03B)
    || (0x040 ≤ n && n ≤ 0x043) || (0x050 ≤ n && n ≤ 0x05F) || n == 0x070 || n == 0x071

/-- The registers each engine lists (R74, R158, R184, R174, R281); engine 5 lists none (R326). -/
def shadowListed (eng idx : Nat) : Bool :=
  (eng == 0 && idx < 8) || (eng == 1 && idx < 1) || (eng == 2 && idx < 12) || (eng == 3 && idx < 2) || (eng == 4 && idx < 8)

/-- Element width in bits of a VCVT type code (R141). -/
def vcvtWidth (t : Nat) : Nat := if t ≤ 2 then 32 else if t ≤ 4 then 16 else if t = 6 then 4 else 8

/-- The part numbers of a VCVT: k is below the ratio of the two widths (R141). -/
def vcvtPart (t u k : Nat) : Bool := k < max (vcvtWidth t) (vcvtWidth u) / min (vcvtWidth t) (vcvtWidth u)

/-- Class 1 of R41: a combination of function-code fields that the R40 table excludes. -/
def Instr.flaw1 : Instr → Bool
  | .fadd _ _ _ fmt _ => fmt == 3
  | .fsub _ _ _ fmt _ => fmt == 3
  | .fmul _ _ _ fmt _ => fmt == 3
  | .fdiv _ _ _ fmt _ => fmt == 3
  | .fmin _ _ _ fmt _ => fmt == 3
  | .fmax _ _ _ fmt _ => fmt == 3
  | .fabs _ _ fmt _ => fmt == 3
  | .fneg _ _ fmt _ => fmt == 3
  | .fcmpEq _ _ _ fmt _ => fmt == 3
  | .fcmpNe _ _ _ fmt _ => fmt == 3
  | .fcmpLt _ _ _ fmt _ => fmt == 3
  | .fcmpLe _ _ _ fmt _ => fmt == 3
  | .fcmpUn _ _ _ fmt _ => fmt == 3
  | .vfadd _ _ _ fmt _ => fmt == 3
  | .vfsub _ _ _ fmt _ => fmt == 3
  | .vfmul _ _ _ fmt _ => fmt == 3
  | .vfdiv _ _ _ fmt _ => fmt == 3
  | .vfmin _ _ _ fmt _ => fmt == 3
  | .vfmax _ _ _ fmt _ => fmt == 3
  | .vfabs _ _ fmt _ => fmt == 3
  | .vfneg _ _ fmt _ => fmt == 3
  | .famoFaddx _ _ _ fmt _ => fmt == 3
  | .famoFmin _ _ _ fmt _ => fmt == 3
  | .famoFmax _ _ _ fmt _ => fmt == 3
  | .famoFrdx _ _ _ fmt _ => fmt == 3
  | .redFaddx _ _ fmt _ => fmt == 3
  | .redFmin _ _ fmt _ => fmt == 3
  | .redFmax _ _ fmt _ => fmt == 3
  | .xacc _ _ fmt _ => fmt == 3
  | .xaccp _ _ fmt _ => fmt == 0 || fmt == 3
  | .xrnd _ _ fmt _ => fmt == 1 || fmt == 2
  | .cvt _ _ t u _ => t == u
  | .cvto _ _ t u _ => t == u
  | .vcvt _ _ _ t u _ => t == u
  | .vcvto _ _ _ t u _ => t == u
  | .vcmpEq _ _ _ t _ => t == 7
  | .vcmpNe _ _ _ t _ => t == 7
  | .vcmpLt _ _ _ t _ => t == 7
  | .vcmpLe _ _ _ t _ => t == 7
  | .vredSum _ _ t _ => t == 7
  | .vredMin _ _ t _ => t == 7
  | .vredMax _ _ t _ => t == 7
  | .vcmpLtz _ _ t _ => 4 ≤ t
  | .vcmpLez _ _ t _ => 4 ≤ t
  | .vredAnd _ _ t _ => 4 ≤ t
  | .vredOr _ _ t _ => 4 ≤ t
  | .vredXor _ _ t _ => 4 ≤ t
  | .bswap _ _ sz _ _ => sz == 3
  | .cpy _ n _ _ _ => n == 0
  | .cpyArm _ n _ _ _ => n == 0
  | .eset idx _ eng _ => !shadowListed eng idx
  | .csrr _ imm _ => !csrListed imm
  | .csrw _ imm _ => !csrListed imm
  | .prune _ _ m _ => 3 ≤ m
  | _ => false

/-- Class 2 of R41: the reserved combinations of R35 and R37, and `h` of DBG.RD above 1 (R423). DESIGN CHOICE (log entry 84): R41 makes the first two
ILLEGAL, and its class table names a class for neither. -/
def Instr.reservedForm : Instr → Bool
  | .br cond sense _ => cond == 0 && sense == 0
  | .call cond sense _ => cond == 0 && sense == 0
  | .send pri _ fl _ _ kind _ => fl == 0 || (pri == 1 && kind != 3)
  | .sendm pri _ fl _ _ kind _ => fl == 0 || (pri == 1 && kind != 3)
  | .reply fl _ _ => fl == 0
  | .dbgRd _ h _ _ => 2 ≤ h
  | _ => false

/-- Class 2 of R41: a reserved combination, or a predicate field with one of its reserved bits set (R28). -/
def Instr.flaw2 (i : Instr) : Bool := i.reservedForm || i.operands.any Operand.reservedBits

/-- Class 3 of R41: a number out of range; for VCVT also the part number (R141). -/
def Instr.flaw3 (i : Instr) : Bool :=
  i.operands.any Operand.outOfRange ||
    match i with
    | .vcvt _ _ k t u _ => !vcvtPart t u k
    | .vcvto _ _ k t u _ => !vcvtPart t u k
    | _ => false

/-- Class 4 of R41: port misuse. -/
def Instr.flaw4 (i : Instr) : Bool := i.operands.any Operand.portMisuse

/-- Every field fits its bits. -/
def Instr.fits (i : Instr) : Bool := i.operands.all Operand.fits

end Sys2Proof
end

