-- ==== Sys2Proof/WellFormed.lean ====
section
/-! DEFINITION. Which terms of `Instr` are instructions: those that pass every encoding check of R41 (Machine/Encoding.lean). -/

namespace Sys2Proof

/-- An instruction whose word passes every check of R41 that the word alone decides. The one check that needs the machine, q3
outside a gang, is made at issue. An event passes. -/
def Instr.wellFormed (i : Instr) : Bool :=
  i.fits && !i.flaw1 && !i.flaw2 && !i.flaw3 && !i.flaw4

end Sys2Proof
end

