-- ==== Sys2Proof/Decode.lean ====
section
/-! DEFINITION. Decoding and encoding of instruction words (R33, R38, R39, R40, R41), both written from the tables of R33, R38
and R40.

`Instr.encode` puts the fields of an instruction into its word. `candidate` reads the primary opcode and the function code of a
word, and the fields that the function-code entry names. `decode` refuses a word by the class of R41: the all-zero and all-one
words, an unassigned opcode or function, a bit that no field of the entry holds, a number out of range, a port misused. -/

namespace Sys2Proof

/-- Bits hi:lo of a word, as a number. -/
def field (w lo width : Nat) : Nat := w / 2 ^ lo % 2 ^ width

/-- The word with these fields (value and lowest bit) put into the fixed bits of an instruction. -/
def place (base : Nat) : List (Nat × Nat) → Nat
  | [] => base
  | (v, lo) :: fs => place base fs + v * 2 ^ lo

/-- The word of an instruction; events have none. -/
def Instr.encode : Instr → Option Nat
  | .br cond sense off => some (place 0x02000000 [(cond, 22), (sense, 21), (off, 0)])
  | .call cond sense off => some (place 0x04000000 [(cond, 22), (sense, 21), (off, 0)])
  | .jmp a g => some (place 0x06000000 [(a, 15), (g, 0)])
  | .callr a g => some (place 0x06000008 [(a, 15), (g, 0)])
  | .ret g => some (place 0x06000010 [(g, 0)])
  | .loop d imm g => some (place 0x08000000 [(d, 20), (imm, 3), (g, 0)])
  | .exitEnd g => some (place 0x0A000000 [(g, 0)])
  | .suspend a b g => some (place 0x0A000008 [(a, 15), (b, 10), (g, 0)])
  | .yield b g => some (place 0x0A000010 [(b, 10), (g, 0)])
  | .trap imm g => some (place 0x0C000000 [(imm, 3), (g, 0)])
  | .rft g => some (place 0x0E000000 [(g, 0)])
  | .rftSkip g => some (place 0x0E100000 [(g, 0)])
  | .sleep a g => some (place 0x0E000008 [(a, 15), (g, 0)])
  | .csrr d imm g => some (place 0x10000000 [(d, 20), (imm, 3), (g, 0)])
  | .csrw a imm g => some (place 0x12000000 [(a, 15), (imm, 3), (g, 0)])
  | .tlbinv a b g => some (place 0x14000000 [(a, 15), (b, 10), (g, 0)])
  | .tlbinvAll g => some (place 0x14100000 [(g, 0)])
  | .pgateS a g => some (place 0x14000008 [(a, 15), (g, 0)])
  | .pgateW a g => some (place 0x14100008 [(a, 15), (g, 0)])
  | .ctxload d a b g => some (place 0x14000010 [(d, 20), (a, 15), (b, 10), (g, 0)])
  | .ctxsave d a b g => some (place 0x14000018 [(d, 20), (a, 15), (b, 10), (g, 0)])
  | .flagsGet d g => some (place 0x16000000 [(d, 20), (g, 0)])
  | .flagsClr a g => some (place 0x16000008 [(a, 15), (g, 0)])
  | .flagsSet a g => some (place 0x16000010 [(a, 15), (g, 0)])
  | .add d a b sz sgn g => some (place 0x20000000 [(d, 20), (a, 15), (b, 10), (sz, 8), (sgn, 7), (g, 0)])
  | .sub d a b sz sgn g => some (place 0x20000008 [(d, 20), (a, 15), (b, 10), (sz, 8), (sgn, 7), (g, 0)])
  | .and d a b sz sgn g => some (place 0x20000010 [(d, 20), (a, 15), (b, 10), (sz, 8), (sgn, 7), (g, 0)])
  | .or d a b sz sgn g => some (place 0x20000018 [(d, 20), (a, 15), (b, 10), (sz, 8), (sgn, 7), (g, 0)])
  | .xor d a b sz sgn g => some (place 0x20000020 [(d, 20), (a, 15), (b, 10), (sz, 8), (sgn, 7), (g, 0)])
  | .andn d a b sz sgn g => some (place 0x20000028 [(d, 20), (a, 15), (b, 10), (sz, 8), (sgn, 7), (g, 0)])
  | .orn d a b sz sgn g => some (place 0x20000030 [(d, 20), (a, 15), (b, 10), (sz, 8), (sgn, 7), (g, 0)])
  | .xnor d a b sz sgn g => some (place 0x20000038 [(d, 20), (a, 15), (b, 10), (sz, 8), (sgn, 7), (g, 0)])
  | .shl d a b sz sgn g => some (place 0x20000040 [(d, 20), (a, 15), (b, 10), (sz, 8), (sgn, 7), (g, 0)])
  | .shr d a b sz sgn g => some (place 0x20000048 [(d, 20), (a, 15), (b, 10), (sz, 8), (sgn, 7), (g, 0)])
  | .sra d a b sz sgn g => some (place 0x20000050 [(d, 20), (a, 15), (b, 10), (sz, 8), (sgn, 7), (g, 0)])
  | .rol d a b sz sgn g => some (place 0x20000058 [(d, 20), (a, 15), (b, 10), (sz, 8), (sgn, 7), (g, 0)])
  | .ror d a b sz sgn g => some (place 0x20000060 [(d, 20), (a, 15), (b, 10), (sz, 8), (sgn, 7), (g, 0)])
  | .addi d a imm g => some (place 0x22000000 [(d, 20), (a, 15), (imm, 3), (g, 0)])
  | .andi d a imm g => some (place 0x24000000 [(d, 20), (a, 15), (imm, 3), (g, 0)])
  | .ori d a imm g => some (place 0x26000000 [(d, 20), (a, 15), (imm, 3), (g, 0)])
  | .xori d a imm g => some (place 0x28000000 [(d, 20), (a, 15), (imm, 3), (g, 0)])
  | .shli d a sh g => some (place 0x2A000000 [(d, 20), (a, 15), (sh, 3), (g, 0)])
  | .shri d a sh g => some (place 0x2C000000 [(d, 20), (a, 15), (sh, 3), (g, 0)])
  | .srai d a sh g => some (place 0x2E000000 [(d, 20), (a, 15), (sh, 3), (g, 0)])
  | .mul d a b sz sgn g => some (place 0x30000000 [(d, 20), (a, 15), (b, 10), (sz, 8), (sgn, 7), (g, 0)])
  | .mulh d a b sz sgn g => some (place 0x30000008 [(d, 20), (a, 15), (b, 10), (sz, 8), (sgn, 7), (g, 0)])
  | .div d a b sz sgn g => some (place 0x32000000 [(d, 20), (a, 15), (b, 10), (sz, 8), (sgn, 7), (g, 0)])
  | .rem d a b sz sgn g => some (place 0x32000008 [(d, 20), (a, 15), (b, 10), (sz, 8), (sgn, 7), (g, 0)])
  | .cmpEq p a b sz sgn g => some (place 0x34000000 [(p, 20), (a, 15), (b, 10), (sz, 8), (sgn, 7), (g, 0)])
  | .cmpNe p a b sz sgn g => some (place 0x34000008 [(p, 20), (a, 15), (b, 10), (sz, 8), (sgn, 7), (g, 0)])
  | .cmpLt p a b sz sgn g => some (place 0x34000010 [(p, 20), (a, 15), (b, 10), (sz, 8), (sgn, 7), (g, 0)])
  | .cmpLe p a b sz sgn g => some (place 0x34000018 [(p, 20), (a, 15), (b, 10), (sz, 8), (sgn, 7), (g, 0)])
  | .cmpGt p a b sz sgn g => some (place 0x34000020 [(p, 20), (a, 15), (b, 10), (sz, 8), (sgn, 7), (g, 0)])
  | .cmpGe p a b sz sgn g => some (place 0x34000028 [(p, 20), (a, 15), (b, 10), (sz, 8), (sgn, 7), (g, 0)])
  | .cmpiEq p a imm g => some (place 0x36000000 [(p, 20), (a, 15), (imm, 3), (g, 0)])
  | .cmpiNe p a imm g => some (place 0x36001000 [(p, 20), (a, 15), (imm, 3), (g, 0)])
  | .cmpiLtS64 p a imm g => some (place 0x36002000 [(p, 20), (a, 15), (imm, 3), (g, 0)])
  | .cmpiLeS64 p a imm g => some (place 0x36003000 [(p, 20), (a, 15), (imm, 3), (g, 0)])
  | .cmpiGtS64 p a imm g => some (place 0x36004000 [(p, 20), (a, 15), (imm, 3), (g, 0)])
  | .cmpiGeS64 p a imm g => some (place 0x36005000 [(p, 20), (a, 15), (imm, 3), (g, 0)])
  | .cmpiLtZ64 p a imm g => some (place 0x36006000 [(p, 20), (a, 15), (imm, 3), (g, 0)])
  | .cmpiGeZ64 p a imm g => some (place 0x36007000 [(p, 20), (a, 15), (imm, 3), (g, 0)])
  | .clz d a sz sgn g => some (place 0x38000000 [(d, 20), (a, 15), (sz, 8), (sgn, 7), (g, 0)])
  | .ctz d a sz sgn g => some (place 0x38000008 [(d, 20), (a, 15), (sz, 8), (sgn, 7), (g, 0)])
  | .popc d a sz sgn g => some (place 0x38000010 [(d, 20), (a, 15), (sz, 8), (sgn, 7), (g, 0)])
  | .brev d a sz sgn g => some (place 0x38000018 [(d, 20), (a, 15), (sz, 8), (sgn, 7), (g, 0)])
  | .bswap d a sz sgn g => some (place 0x38000020 [(d, 20), (a, 15), (sz, 8), (sgn, 7), (g, 0)])
  | .sel d a b p g => some (place 0x3A000000 [(d, 20), (a, 15), (b, 10), (p, 3), (g, 0)])
  | .li d imm => some (place 0x3C000000 [(d, 20), (imm, 0)])
  | .lui d imm => some (place 0x3E000000 [(d, 20), (imm, 0)])
  | .adda d a b g => some (place 0x40000000 [(d, 20), (a, 15), (b, 10), (g, 0)])
  | .addai d a imm g => some (place 0x42000000 [(d, 20), (a, 15), (imm, 3), (g, 0)])
  | .ptrSet d a b g => some (place 0x44000000 [(d, 20), (a, 15), (b, 10), (g, 0)])
  | .ptrGet d a g => some (place 0x44000008 [(d, 20), (a, 15), (g, 0)])
  | .ptrClr d a g => some (place 0x44000010 [(d, 20), (a, 15), (g, 0)])
  | .predAnd d a b g => some (place 0x46000000 [(d, 20), (a, 15), (b, 10), (g, 0)])
  | .predOr d a b g => some (place 0x46000008 [(d, 20), (a, 15), (b, 10), (g, 0)])
  | .predXor d a b g => some (place 0x46000010 [(d, 20), (a, 15), (b, 10), (g, 0)])
  | .predAndn d a b g => some (place 0x46000018 [(d, 20), (a, 15), (b, 10), (g, 0)])
  | .predNot d a g => some (place 0x46000020 [(d, 20), (a, 15), (g, 0)])
  | .predFromg d a g => some (place 0x46000028 [(d, 20), (a, 15), (g, 0)])
  | .predTog d a g => some (place 0x46000030 [(d, 20), (a, 15), (g, 0)])
  | .coordSelf d g => some (place 0x48000000 [(d, 20), (g, 0)])
  | .coordPack d a b g => some (place 0x48000008 [(d, 20), (a, 15), (b, 10), (g, 0)])
  | .coordX d a g => some (place 0x48000010 [(d, 20), (a, 15), (g, 0)])
  | .coordY d a g => some (place 0x48000018 [(d, 20), (a, 15), (g, 0)])
  | .coordAdd d a b g => some (place 0x48000020 [(d, 20), (a, 15), (b, 10), (g, 0)])
  | .min d a b sz sgn g => some (place 0x4A000000 [(d, 20), (a, 15), (b, 10), (sz, 8), (sgn, 7), (g, 0)])
  | .max d a b sz sgn g => some (place 0x4A000008 [(d, 20), (a, 15), (b, 10), (sz, 8), (sgn, 7), (g, 0)])
  | .absd d a b sz sgn g => some (place 0x4A000010 [(d, 20), (a, 15), (b, 10), (sz, 8), (sgn, 7), (g, 0)])
  | .muli d a imm g => some (place 0x4C000000 [(d, 20), (a, 15), (imm, 3), (g, 0)])
  | .fadd d a b fmt g => some (place 0x60000000 [(d, 20), (a, 15), (b, 10), (fmt, 8), (g, 0)])
  | .fsub d a b fmt g => some (place 0x60000008 [(d, 20), (a, 15), (b, 10), (fmt, 8), (g, 0)])
  | .fmul d a b fmt g => some (place 0x60000010 [(d, 20), (a, 15), (b, 10), (fmt, 8), (g, 0)])
  | .fdiv d a b fmt g => some (place 0x60000018 [(d, 20), (a, 15), (b, 10), (fmt, 8), (g, 0)])
  | .fmin d a b fmt g => some (place 0x60000020 [(d, 20), (a, 15), (b, 10), (fmt, 8), (g, 0)])
  | .fmax d a b fmt g => some (place 0x60000028 [(d, 20), (a, 15), (b, 10), (fmt, 8), (g, 0)])
  | .fabs d a fmt g => some (place 0x60000030 [(d, 20), (a, 15), (fmt, 8), (g, 0)])
  | .fneg d a fmt g => some (place 0x60000038 [(d, 20), (a, 15), (fmt, 8), (g, 0)])
  | .fma d a b c g => some (place 0x62000000 [(d, 20), (a, 15), (b, 10), (c, 5), (g, 0)])
  | .fms d a b c g => some (place 0x62000008 [(d, 20), (a, 15), (b, 10), (c, 5), (g, 0)])
  | .fnma d a b c g => some (place 0x62000010 [(d, 20), (a, 15), (b, 10), (c, 5), (g, 0)])
  | .fnms d a b c g => some (place 0x62000018 [(d, 20), (a, 15), (b, 10), (c, 5), (g, 0)])
  | .fcmpEq p a b fmt g => some (place 0x64000000 [(p, 20), (a, 15), (b, 10), (fmt, 8), (g, 0)])
  | .fcmpNe p a b fmt g => some (place 0x64000008 [(p, 20), (a, 15), (b, 10), (fmt, 8), (g, 0)])
  | .fcmpLt p a b fmt g => some (place 0x64000010 [(p, 20), (a, 15), (b, 10), (fmt, 8), (g, 0)])
  | .fcmpLe p a b fmt g => some (place 0x64000018 [(p, 20), (a, 15), (b, 10), (fmt, 8), (g, 0)])
  | .fcmpUn p a b fmt g => some (place 0x64000020 [(p, 20), (a, 15), (b, 10), (fmt, 8), (g, 0)])
  | .fsqrt d a g => some (place 0x66000000 [(d, 20), (a, 15), (g, 0)])
  | .rcp d a g => some (place 0x66000008 [(d, 20), (a, 15), (g, 0)])
  | .rsqrt d a g => some (place 0x66000010 [(d, 20), (a, 15), (g, 0)])
  | .exp2 d a g => some (place 0x66000018 [(d, 20), (a, 15), (g, 0)])
  | .log2 d a g => some (place 0x66000020 [(d, 20), (a, 15), (g, 0)])
  | .cvt d a t u g => some (place 0x68000000 [(d, 20), (a, 15), (t, 7), (u, 4), (g, 0)])
  | .cvto d a t u g => some (place 0x68000008 [(d, 20), (a, 15), (t, 7), (u, 4), (g, 0)])
  | .xacc a b fmt g => some (place 0x6A000000 [(a, 15), (b, 10), (fmt, 8), (g, 0)])
  | .xaccp a b fmt g => some (place 0x6A000008 [(a, 15), (b, 10), (fmt, 8), (g, 0)])
  | .xrnd d a fmt g => some (place 0x6A000010 [(d, 20), (a, 15), (fmt, 8), (g, 0)])
  | .xmrg a b g => some (place 0x6A000018 [(a, 15), (b, 10), (g, 0)])
  | .xclr a g => some (place 0x6A000020 [(a, 15), (g, 0)])
  | .fli d imm => some (place 0x6C000000 [(d, 20), (imm, 0)])
  | .vadd d a b sz sgn g => some (place 0x70000000 [(d, 20), (a, 15), (b, 10), (sz, 8), (sgn, 7), (g, 0)])
  | .vsub d a b sz sgn g => some (place 0x70000008 [(d, 20), (a, 15), (b, 10), (sz, 8), (sgn, 7), (g, 0)])
  | .vand d a b sz sgn g => some (place 0x70000010 [(d, 20), (a, 15), (b, 10), (sz, 8), (sgn, 7), (g, 0)])
  | .vor d a b sz sgn g => some (place 0x70000018 [(d, 20), (a, 15), (b, 10), (sz, 8), (sgn, 7), (g, 0)])
  | .vxor d a b sz sgn g => some (place 0x70000020 [(d, 20), (a, 15), (b, 10), (sz, 8), (sgn, 7), (g, 0)])
  | .vandn d a b sz sgn g => some (place 0x70000028 [(d, 20), (a, 15), (b, 10), (sz, 8), (sgn, 7), (g, 0)])
  | .vorn d a b sz sgn g => some (place 0x70000030 [(d, 20), (a, 15), (b, 10), (sz, 8), (sgn, 7), (g, 0)])
  | .vxnor d a b sz sgn g => some (place 0x70000038 [(d, 20), (a, 15), (b, 10), (sz, 8), (sgn, 7), (g, 0)])
  | .vshl d a b sz sgn g => some (place 0x70000040 [(d, 20), (a, 15), (b, 10), (sz, 8), (sgn, 7), (g, 0)])
  | .vshr d a b sz sgn g => some (place 0x70000048 [(d, 20), (a, 15), (b, 10), (sz, 8), (sgn, 7), (g, 0)])
  | .vsra d a b sz sgn g => some (place 0x70000050 [(d, 20), (a, 15), (b, 10), (sz, 8), (sgn, 7), (g, 0)])
  | .vrol d a b sz sgn g => some (place 0x70000058 [(d, 20), (a, 15), (b, 10), (sz, 8), (sgn, 7), (g, 0)])
  | .vror d a b sz sgn g => some (place 0x70000060 [(d, 20), (a, 15), (b, 10), (sz, 8), (sgn, 7), (g, 0)])
  | .vadds d a b sz sgn g => some (place 0x70000068 [(d, 20), (a, 15), (b, 10), (sz, 8), (sgn, 7), (g, 0)])
  | .vsubs d a b sz sgn g => some (place 0x70000070 [(d, 20), (a, 15), (b, 10), (sz, 8), (sgn, 7), (g, 0)])
  | .vfadd d a b fmt g => some (place 0x72000000 [(d, 20), (a, 15), (b, 10), (fmt, 8), (g, 0)])
  | .vfsub d a b fmt g => some (place 0x72000008 [(d, 20), (a, 15), (b, 10), (fmt, 8), (g, 0)])
  | .vfmul d a b fmt g => some (place 0x72000010 [(d, 20), (a, 15), (b, 10), (fmt, 8), (g, 0)])
  | .vfdiv d a b fmt g => some (place 0x72000018 [(d, 20), (a, 15), (b, 10), (fmt, 8), (g, 0)])
  | .vfmin d a b fmt g => some (place 0x72000020 [(d, 20), (a, 15), (b, 10), (fmt, 8), (g, 0)])
  | .vfmax d a b fmt g => some (place 0x72000028 [(d, 20), (a, 15), (b, 10), (fmt, 8), (g, 0)])
  | .vfabs d a fmt g => some (place 0x72000030 [(d, 20), (a, 15), (fmt, 8), (g, 0)])
  | .vfneg d a fmt g => some (place 0x72000038 [(d, 20), (a, 15), (fmt, 8), (g, 0)])
  | .vfma d a b c g => some (place 0x74000000 [(d, 20), (a, 15), (b, 10), (c, 5), (g, 0)])
  | .vfms d a b c g => some (place 0x74000008 [(d, 20), (a, 15), (b, 10), (c, 5), (g, 0)])
  | .vfnma d a b c g => some (place 0x74000010 [(d, 20), (a, 15), (b, 10), (c, 5), (g, 0)])
  | .vfnms d a b c g => some (place 0x74000018 [(d, 20), (a, 15), (b, 10), (c, 5), (g, 0)])
  | .vcmpEq d a b t g => some (place 0x76000000 [(d, 20), (a, 15), (b, 10), (t, 7), (g, 0)])
  | .vcmpNe d a b t g => some (place 0x76000008 [(d, 20), (a, 15), (b, 10), (t, 7), (g, 0)])
  | .vcmpLt d a b t g => some (place 0x76000010 [(d, 20), (a, 15), (b, 10), (t, 7), (g, 0)])
  | .vcmpLe d a b t g => some (place 0x76000018 [(d, 20), (a, 15), (b, 10), (t, 7), (g, 0)])
  | .vcmpLtz d a t g => some (place 0x76000020 [(d, 20), (a, 15), (t, 7), (g, 0)])
  | .vcmpLez d a t g => some (place 0x76000028 [(d, 20), (a, 15), (t, 7), (g, 0)])
  | .vredSum d a t g => some (place 0x78000000 [(d, 20), (a, 15), (t, 7), (g, 0)])
  | .vredMin d a t g => some (place 0x78000008 [(d, 20), (a, 15), (t, 7), (g, 0)])
  | .vredMax d a t g => some (place 0x78000010 [(d, 20), (a, 15), (t, 7), (g, 0)])
  | .vredAnd d a t g => some (place 0x78000018 [(d, 20), (a, 15), (t, 7), (g, 0)])
  | .vredOr d a t g => some (place 0x78000020 [(d, 20), (a, 15), (t, 7), (g, 0)])
  | .vredXor d a t g => some (place 0x78000028 [(d, 20), (a, 15), (t, 7), (g, 0)])
  | .vshuf d a b l g => some (place 0x7A000000 [(d, 20), (a, 15), (b, 10), (l, 8), (g, 0)])
  | .vrotl d a b l g => some (place 0x7A000008 [(d, 20), (a, 15), (b, 10), (l, 8), (g, 0)])
  | .vzip d a b l g => some (place 0x7A000010 [(d, 20), (a, 15), (b, 10), (l, 8), (g, 0)])
  | .vunzip d a b l g => some (place 0x7A000018 [(d, 20), (a, 15), (b, 10), (l, 8), (g, 0)])
  | .vcvt d a k t u g => some (place 0x7C000000 [(d, 20), (a, 15), (k, 10), (t, 7), (u, 4), (g, 0)])
  | .vcvto d a k t u g => some (place 0x7C000008 [(d, 20), (a, 15), (k, 10), (t, 7), (u, 4), (g, 0)])
  | .vsel d a b l g => some (place 0x7E000000 [(d, 20), (a, 15), (b, 10), (l, 8), (g, 0)])
  | .vdot d a b t g => some (place 0x80000000 [(d, 20), (a, 15), (b, 10), (t, 8), (g, 0)])
  | .vsplat d a l k g => some (place 0x82000000 [(d, 20), (a, 15), (l, 13), (k, 3), (g, 0)])
  | .gang2 g => some (place 0x84000000 [(g, 0)])
  | .gang4 g => some (place 0x84000008 [(g, 0)])
  | .gang8 g => some (place 0x84000010 [(g, 0)])
  | .disband g => some (place 0x84000018 [(g, 0)])
  | .ngetG d a b g => some (place 0x86000000 [(d, 20), (a, 15), (b, 10), (g, 0)])
  | .ngetS d a b g => some (place 0x86000008 [(d, 20), (a, 15), (b, 10), (g, 0)])
  | .nput d a b g => some (place 0x88000000 [(d, 20), (a, 15), (b, 10), (g, 0)])
  | .ld d a off sz z g => some (place 0x90000000 [(d, 20), (a, 15), (off, 6), (sz, 4), (z, 3), (g, 0)])
  | .st d a off sz g => some (place 0x92000000 [(d, 20), (a, 15), (off, 6), (sz, 4), (g, 0)])
  | .ldw d a off g => some (place 0x94000000 [(d, 20), (a, 15), (off, 6), (g, 0)])
  | .stw d a off g => some (place 0x96000000 [(d, 20), (a, 15), (off, 6), (g, 0)])
  | .ldx d a b sz sgn sc g => some (place 0x98000000 [(d, 20), (a, 15), (b, 10), (sz, 8), (sgn, 7), (sc, 3), (g, 0)])
  | .stx d a b sz sc g => some (place 0x9A000000 [(d, 20), (a, 15), (b, 10), (sz, 8), (sc, 3), (g, 0)])
  | .gld d a off sz z g => some (place 0xA0000000 [(d, 20), (a, 15), (off, 6), (sz, 4), (z, 3), (g, 0)])
  | .gst d a off sz g => some (place 0xA2000000 [(d, 20), (a, 15), (off, 6), (sz, 4), (g, 0)])
  | .pref a off g => some (place 0xAC000000 [(a, 15), (off, 6), (g, 0)])
  | .prefTier a off g => some (place 0xAC100000 [(a, 15), (off, 6), (g, 0)])
  | .cpy cv n a b g => some (place 0xA4000000 [(cv, 20), (n, 18), (a, 13), (b, 8), (g, 0)])
  | .cpyArm cv n b t g => some (place 0xA4200000 [(cv, 20), (n, 18), (b, 8), (t, 3), (g, 0)])
  | .wait nl ns nc nt nm g => some (place 0xA6000000 [(nl, 21), (ns, 17), (nc, 13), (nt, 9), (nm, 5), (g, 0)])
  | .fence a g => some (place 0xA8000000 [(a, 15), (g, 0)])
  | .owner d a b g => some (place 0xAA000000 [(d, 20), (a, 15), (b, 10), (g, 0)])
  | .send pri ch fl h d kind g => some (place 0xB0000000 [(pri, 24), (ch, 22), (fl, 19), (h, 14), (d, 9), (kind, 6), (g, 0)])
  | .sendm pri ch fl h d kind g => some (place 0xB2000000 [(pri, 24), (ch, 22), (fl, 19), (h, 14), (d, 9), (kind, 6), (g, 0)])
  | .reply fl h g => some (place 0xBF0000C0 [(fl, 19), (h, 14), (g, 0)])
  | .rst d a b sz g => some (place 0xB4000000 [(d, 20), (a, 15), (b, 10), (sz, 8), (g, 0)])
  | .rld d a b sz sgn g => some (place 0xB6000000 [(d, 20), (a, 15), (b, 10), (sz, 8), (sgn, 7), (g, 0)])
  | .ramoAdd d a b sz sgn g => some (place 0xB8000000 [(d, 20), (a, 15), (b, 10), (sz, 8), (sgn, 7), (g, 0)])
  | .ramoMin d a b sz sgn g => some (place 0xB8000008 [(d, 20), (a, 15), (b, 10), (sz, 8), (sgn, 7), (g, 0)])
  | .ramoMax d a b sz sgn g => some (place 0xB8000010 [(d, 20), (a, 15), (b, 10), (sz, 8), (sgn, 7), (g, 0)])
  | .ramoAnd d a b sz sgn g => some (place 0xB8000018 [(d, 20), (a, 15), (b, 10), (sz, 8), (sgn, 7), (g, 0)])
  | .ramoOr d a b sz sgn g => some (place 0xB8000020 [(d, 20), (a, 15), (b, 10), (sz, 8), (sgn, 7), (g, 0)])
  | .ramoXor d a b sz sgn g => some (place 0xB8000028 [(d, 20), (a, 15), (b, 10), (sz, 8), (sgn, 7), (g, 0)])
  | .ramoSwap d a b sz sgn g => some (place 0xB8000030 [(d, 20), (a, 15), (b, 10), (sz, 8), (sgn, 7), (g, 0)])
  | .ramoFadd d a b g => some (place 0xB8000138 [(d, 20), (a, 15), (b, 10), (g, 0)])
  | .msgPorch d g => some (place 0xBA000000 [(d, 20), (g, 0)])
  | .msgLen d g => some (place 0xBA000008 [(d, 20), (g, 0)])
  | .msgSkip g => some (place 0xBA000010 [(g, 0)])
  | .qenq a b g => some (place 0xBC000000 [(a, 15), (b, 10), (g, 0)])
  | .qenqR d a b g => some (place 0xBC000000 [(d, 20), (a, 15), (b, 10), (g, 0)])
  | .qclaim d a p g => some (place 0xBC000008 [(d, 20), (a, 15), (p, 10), (g, 0)])
  | .qpub a b g => some (place 0xBC000010 [(a, 15), (b, 10), (g, 0)])
  | .qstat d a g => some (place 0xBC000018 [(d, 20), (a, 15), (g, 0)])
  | .qfreeze a g => some (place 0xBC000020 [(a, 15), (g, 0)])
  | .qthaw a g => some (place 0xBC000028 [(a, 15), (g, 0)])
  | .qskip d a g => some (place 0xBC000030 [(d, 20), (a, 15), (g, 0)])
  | .amoAdd d a b sz g => some (place 0xC0000000 [(d, 20), (a, 15), (b, 10), (sz, 8), (g, 0)])
  | .amoMin d a b sz g => some (place 0xC0000008 [(d, 20), (a, 15), (b, 10), (sz, 8), (g, 0)])
  | .amoMax d a b sz g => some (place 0xC0000010 [(d, 20), (a, 15), (b, 10), (sz, 8), (g, 0)])
  | .amoMinz d a b sz g => some (place 0xC0000018 [(d, 20), (a, 15), (b, 10), (sz, 8), (g, 0)])
  | .amoMaxz d a b sz g => some (place 0xC0000020 [(d, 20), (a, 15), (b, 10), (sz, 8), (g, 0)])
  | .amoAnd d a b sz g => some (place 0xC0000028 [(d, 20), (a, 15), (b, 10), (sz, 8), (g, 0)])
  | .amoOr d a b sz g => some (place 0xC0000030 [(d, 20), (a, 15), (b, 10), (sz, 8), (g, 0)])
  | .amoXor d a b sz g => some (place 0xC0000038 [(d, 20), (a, 15), (b, 10), (sz, 8), (g, 0)])
  | .amoSwap d a b sz g => some (place 0xC0000040 [(d, 20), (a, 15), (b, 10), (sz, 8), (g, 0)])
  | .amocas d a b c sz g => some (place 0xC2000000 [(d, 20), (a, 15), (b, 10), (c, 5), (sz, 3), (g, 0)])
  | .famoFaddx d a b fmt g => some (place 0xC4000000 [(d, 20), (a, 15), (b, 10), (fmt, 8), (g, 0)])
  | .famoFmin d a b fmt g => some (place 0xC4000008 [(d, 20), (a, 15), (b, 10), (fmt, 8), (g, 0)])
  | .famoFmax d a b fmt g => some (place 0xC4000010 [(d, 20), (a, 15), (b, 10), (fmt, 8), (g, 0)])
  | .famoFrdx d a b fmt g => some (place 0xC4000018 [(d, 20), (a, 15), (b, 10), (fmt, 8), (g, 0)])
  | .redAdd a b sz g => some (place 0xC6000000 [(a, 15), (b, 10), (sz, 8), (g, 0)])
  | .redMin a b sz g => some (place 0xC6000008 [(a, 15), (b, 10), (sz, 8), (g, 0)])
  | .redMax a b sz g => some (place 0xC6000010 [(a, 15), (b, 10), (sz, 8), (g, 0)])
  | .redMinz a b sz g => some (place 0xC6000018 [(a, 15), (b, 10), (sz, 8), (g, 0)])
  | .redMaxz a b sz g => some (place 0xC6000020 [(a, 15), (b, 10), (sz, 8), (g, 0)])
  | .redAnd a b sz g => some (place 0xC6000028 [(a, 15), (b, 10), (sz, 8), (g, 0)])
  | .redOr a b sz g => some (place 0xC6000030 [(a, 15), (b, 10), (sz, 8), (g, 0)])
  | .redXor a b sz g => some (place 0xC6000038 [(a, 15), (b, 10), (sz, 8), (g, 0)])
  | .redFaddx a b fmt g => some (place 0xC6000080 [(a, 15), (b, 10), (fmt, 8), (g, 0)])
  | .redFmin a b fmt g => some (place 0xC6000088 [(a, 15), (b, 10), (fmt, 8), (g, 0)])
  | .redFmax a b fmt g => some (place 0xC6000090 [(a, 15), (b, 10), (fmt, 8), (g, 0)])
  | .barArr d a g => some (place 0xC8000000 [(d, 20), (a, 15), (g, 0)])
  | .barDrop d a g => some (place 0xC8000008 [(d, 20), (a, 15), (g, 0)])
  | .barWait a b g => some (place 0xC8000010 [(a, 15), (b, 10), (g, 0)])
  | .barTest p a b g => some (place 0xC8000018 [(p, 20), (a, 15), (b, 10), (g, 0)])
  | .tspawn d a b g => some (place 0xCA000000 [(d, 20), (a, 15), (b, 10), (g, 0)])
  | .taskGvt d g => some (place 0xCC000000 [(d, 20), (g, 0)])
  | .taskTs d g => some (place 0xCC000008 [(d, 20), (g, 0)])
  | .mxma a b batch acc g => some (place 0xD0000000 [(a, 13), (b, 8), (batch, 5), (acc, 3), (g, 0)])
  | .mxmaZ a b batch acc g => some (place 0xD0040000 [(a, 13), (b, 8), (batch, 5), (acc, 3), (g, 0)])
  | .mxmas a b batch acc g => some (place 0xD2000000 [(a, 13), (b, 8), (batch, 5), (acc, 3), (g, 0)])
  | .mxmasZ a b batch acc g => some (place 0xD2040000 [(a, 13), (b, 8), (batch, 5), (acc, 3), (g, 0)])
  | .mxmt a b batch acc g => some (place 0xD4000000 [(a, 13), (b, 8), (batch, 5), (acc, 3), (g, 0)])
  | .mxmtZ a b batch acc g => some (place 0xD4040000 [(a, 13), (b, 8), (batch, 5), (acc, 3), (g, 0)])
  | .lease g => some (place 0xD6000000 [(g, 0)])
  | .unlease g => some (place 0xD6040000 [(g, 0)])
  | .mxwaitb batch g => some (place 0xD6080000 [(batch, 5), (g, 0)])
  | .tld t b g => some (place 0xD8000000 [(t, 13), (b, 8), (g, 0)])
  | .tst t b g => some (place 0xD8040000 [(t, 13), (b, 8), (g, 0)])
  | .tzero t g => some (place 0xD8080000 [(t, 13), (g, 0)])
  | .twaitc t g => some (place 0xD80C0000 [(t, 13), (g, 0)])
  | .qnt t b g => some (place 0xDA000000 [(t, 13), (b, 8), (g, 0)])
  | .dqnt t b g => some (place 0xDC000000 [(t, 13), (b, 8), (g, 0)])
  | .isect a b g => some (place 0xDE000000 [(a, 13), (b, 8), (g, 0)])
  | .part a b g => some (place 0xDE040000 [(a, 13), (b, 8), (g, 0)])
  | .bmpackP a b g => some (place 0xDE080000 [(a, 13), (b, 8), (g, 0)])
  | .bmpackX a b g => some (place 0xDE080008 [(a, 13), (b, 8), (g, 0)])
  | .bmpackC a b g => some (place 0xDE080010 [(a, 13), (b, 8), (g, 0)])
  | .bmpackCt a b g => some (place 0xDE080018 [(a, 13), (b, 8), (g, 0)])
  | .prune a b m g => some (place 0xE0000000 [(a, 13), (b, 8), (m, 3), (g, 0)])
  | .msearch a b g => some (place 0xE0040000 [(a, 13), (b, 8), (g, 0)])
  | .apass a g => some (place 0xE2000000 [(a, 13), (g, 0)])
  | .asub a b g => some (place 0xE2040000 [(a, 13), (b, 8), (g, 0)])
  | .asubNd a b g => some (place 0xE2040008 [(a, 13), (b, 8), (g, 0)])
  | .aunsub a b g => some (place 0xE2080000 [(a, 13), (b, 8), (g, 0)])
  | .trayput a b g => some (place 0xE20C0000 [(a, 13), (b, 8), (g, 0)])
  | .trayget a b g => some (place 0xE2100000 [(a, 13), (b, 8), (g, 0)])
  | .aclose a g => some (place 0xE2140000 [(a, 13), (g, 0)])
  | .trec a g => some (place 0xE4000000 [(a, 13), (g, 0)])
  | .tend g => some (place 0xE4040000 [(g, 0)])
  | .treplay a b g => some (place 0xE4080000 [(a, 13), (b, 8), (g, 0)])
  | .tpatchA a g => some (place 0xE40C0000 [(a, 13), (g, 0)])
  | .tpatchB a g => some (place 0xE40C0008 [(a, 13), (g, 0)])
  | .tpatchE a b g => some (place 0xE40C0010 [(a, 13), (b, 8), (g, 0)])
  | .tguard a b g => some (place 0xE4100000 [(a, 13), (b, 8), (g, 0)])
  | .tguardEarly a b g => some (place 0xE4100008 [(a, 13), (b, 8), (g, 0)])
  | .eset idx a eng g => some (place 0xE6000000 [(idx, 18), (a, 13), (eng, 3), (g, 0)])
  | .trace a g => some (place 0xE8000000 [(a, 15), (g, 0)])
  | .mark a b g => some (place 0xE8000008 [(a, 15), (b, 10), (g, 0)])
  | .dbgSet slot a b g => some (place 0xEA000000 [(slot, 20), (a, 15), (b, 10), (g, 0)])
  | .dbgClr slot g => some (place 0xEA000008 [(slot, 20), (g, 0)])
  | .dbgRd d h slot g => some (place 0xEA000010 [(d, 20), (h, 15), (slot, 10), (g, 0)])
  | .messageDelivery _ => none
  | .routerBounce _ => none
  | .remoteStore _ => none
  | .instructionStoreWrite _ => none
  | .remoteLoad _ => none
  | .remoteAtomic _ => none
  | .completionReply _ => none
  | .handlerReply _ => none
  | .bounceReceive _ => none
  | .engineCommandHandoff _ => none
  | .startMessage _ => none
  | .preemptMessage _ => none
  | .faultMessage _ => none
  | .freezeMessage _ => none
  | .dispatch _ => none
  | .cellarDrain _ => none
  | .messageInject _ => none
  | .runQueuePoll _ => none
  | .taskRequest _ => none
  | .taskSpawnAccept _ _ _ => none
  | .spawnRetry _ _ _ => none
  | .gvtEpoch => none
  | .versionedAccess _ _ _ => none
  | .deferredTrapTaken _ _ => none
  | .faultBufferRetry _ => none
  | .breakpointClaim _ _ => none
  | .globalAccessComplete _ _ _ => none
  | .copyPiece _ _ _ => none
  | .armedCopyStart _ _ _ => none
  | .tileCommandComplete _ _ _ => none
  | .leaseGrant _ => none
  | .leaseRunEnd _ => none
  | .matrixStepExecute _ => none
  | .matrixStepComplete _ => none
  | .arrayAgentRequest _ => none
  | .arrayAgentReply _ => none
  | .copyAgentRequest _ => none
  | .copyAgentReply _ => none
  | .quantiseComplete _ _ _ => none
  | .indexCommandComplete _ _ _ => none
  | .queueControllerRequest _ => none
  | .qenqRetry _ _ => none
  | .syncAccessPerformed _ _ _ => none
  | .barrierArrival _ _ _ => none
  | .ngetRetry _ _ => none
  | .ngetTimeout _ _ => none
  | .gangTimeout _ _ => none
  | .sleepWake _ _ => none
  | .passOpen _ _ _ => none
  | .passWindowExpiry _ _ => none
  | .heldSubscriptionJoin _ _ => none
  | .pageDeliveryBegin _ _ => none
  | .pageReady _ _ => none
  | .traygetComplete _ _ _ => none
  | .acloseComplete _ _ _ => none
  | .launchClaim => none
  | .launchPlace _ => none
  | .launchAged _ => none
  | .crewComplete _ => none
  | .crewResume _ => none
  | .watchdogPreemptRequest _ => none
  | .watchdogKill _ => none
  | .watchdogFence _ => none
  | .replayEntry _ _ => none
  | .tlbinvComplete _ _ => none
  | .pageWalkComplete _ _ _ => none
  | .absentWalkRetry _ _ _ => none
  | .tierDemotion _ => none
  | .tierPromotion _ _ _ => none
  | .pageMoveComplete _ => none
  | .relockEnd _ => none
  | .powerLimitStep _ _ => none
  | .bankWakeComplete _ => none
  | .monitorSample _ => none
  | .scrub _ _ => none
  | .flitReplay _ _ => none
  | .moduleFailure _ => none
  | .keepaliveSend => none
  | .timeFlitExchange _ => none
  | .fabricPacketReceive _ => none
  | .st2110Packet _ _ _ _ _ _ _ => none
  | .frameDeadline _ _ => none
  | .ageingUpdate _ _ => none
  | .securityAlarm _ => none
  | .deviceReset => none
  | .hostMemoryAccess _ _ _ => none
  | .hostSnoop _ => none
  | .doorbell _ _ _ => none
  | .queueCreate _ _ _ => none
  | .queueDestroy _ _ => none
  | .senderTableClear _ => none
  | .traceSessionOpen _ _ _ => none
  | .traceSessionClose _ _ => none
  | .monitorEnable _ _ _ => none
  | .tapeDirectoryWrite _ _ _ _ => none
  | .faultRouteWrite _ _ _ => none
  | .timeset _ => none
  | .ftarget _ _ => none
  | .thaw _ _ => none
  | .freeze _ _ => none
  | .resume _ _ _ _ => none
  | .restart _ _ _ => none
  | .discard _ _ _ => none
  | .corePreempt _ _ => none
  | .kill _ _ => none
  | .fwload _ _ => none
  | .quote _ _ => none
  | .cert => none
  | .importBlob _ _ _ _ => none
  | .exportBlob _ _ _ => none
  | .mailboxCtx _ _ _ _ => none
  | .dbgset _ _ _ _ => none
  | .release _ _ _ => none
  | .unfence _ => none
  | .mailboxPreempt _ _ => none
  | .registerWrite _ _ _ _ => none
  | .unassignedEncoding _ _ => none
  | .instructionFetchFailed _ => none

/-- Opcode 0x03 (R40): the function code f of the word w. -/
noncomputable def opcode03 (f w : Nat) : Except Nat Instr :=
  match f with
  | 0 => .ok (.jmp (field w 15 5) (field w 0 3))
  | 1 => .ok (.callr (field w 15 5) (field w 0 3))
  | 2 => .ok (.ret (field w 0 3))
  | _ => .error 1

/-- Opcode 0x05 (R40): the function code f of the word w. -/
noncomputable def opcode05 (f w : Nat) : Except Nat Instr :=
  match f with
  | 0 => .ok (.exitEnd (field w 0 3))
  | 1 => .ok (.suspend (field w 15 5) (field w 10 5) (field w 0 3))
  | 2 => .ok (.yield (field w 10 5) (field w 0 3))
  | _ => .error 1

/-- Opcode 0x07 (R40): the function code f of the word w. -/
noncomputable def opcode07 (f w : Nat) : Except Nat Instr :=
  match f with
  | 0 => if field w 20 5 = 1 then .ok (.rftSkip (field w 0 3)) else .ok (.rft (field w 0 3))
  | 1 => .ok (.sleep (field w 15 5) (field w 0 3))
  | _ => .error 1

/-- Opcode 0x0A (R40): the function code f of the word w. -/
noncomputable def opcode0a (f w : Nat) : Except Nat Instr :=
  match f with
  | 0 => if field w 20 5 = 1 then .ok (.tlbinvAll (field w 0 3)) else .ok (.tlbinv (field w 15 5) (field w 10 5) (field w 0 3))
  | 1 => if field w 20 5 = 1 then .ok (.pgateW (field w 15 5) (field w 0 3)) else .ok (.pgateS (field w 15 5) (field w 0 3))
  | 2 => .ok (.ctxload (field w 20 5) (field w 15 5) (field w 10 5) (field w 0 3))
  | 3 => .ok (.ctxsave (field w 20 5) (field w 15 5) (field w 10 5) (field w 0 3))
  | _ => .error 1

/-- Opcode 0x0B (R40): the function code f of the word w. -/
noncomputable def opcode0b (f w : Nat) : Except Nat Instr :=
  match f with
  | 0 => .ok (.flagsGet (field w 20 5) (field w 0 3))
  | 1 => .ok (.flagsClr (field w 15 5) (field w 0 3))
  | 2 => .ok (.flagsSet (field w 15 5) (field w 0 3))
  | _ => .error 1

/-- Opcode 0x10 (R40): the function code f of the word w. -/
noncomputable def opcode10 (f w : Nat) : Except Nat Instr :=
  match f with
  | 0 => .ok (.add (field w 20 5) (field w 15 5) (field w 10 5) (field w 8 2) (field w 7 1) (field w 0 3))
  | 1 => .ok (.sub (field w 20 5) (field w 15 5) (field w 10 5) (field w 8 2) (field w 7 1) (field w 0 3))
  | 2 => .ok (.and (field w 20 5) (field w 15 5) (field w 10 5) (field w 8 2) (field w 7 1) (field w 0 3))
  | 3 => .ok (.or (field w 20 5) (field w 15 5) (field w 10 5) (field w 8 2) (field w 7 1) (field w 0 3))
  | 4 => .ok (.xor (field w 20 5) (field w 15 5) (field w 10 5) (field w 8 2) (field w 7 1) (field w 0 3))
  | 5 => .ok (.andn (field w 20 5) (field w 15 5) (field w 10 5) (field w 8 2) (field w 7 1) (field w 0 3))
  | 6 => .ok (.orn (field w 20 5) (field w 15 5) (field w 10 5) (field w 8 2) (field w 7 1) (field w 0 3))
  | 7 => .ok (.xnor (field w 20 5) (field w 15 5) (field w 10 5) (field w 8 2) (field w 7 1) (field w 0 3))
  | 8 => .ok (.shl (field w 20 5) (field w 15 5) (field w 10 5) (field w 8 2) (field w 7 1) (field w 0 3))
  | 9 => .ok (.shr (field w 20 5) (field w 15 5) (field w 10 5) (field w 8 2) (field w 7 1) (field w 0 3))
  | 10 => .ok (.sra (field w 20 5) (field w 15 5) (field w 10 5) (field w 8 2) (field w 7 1) (field w 0 3))
  | 11 => .ok (.rol (field w 20 5) (field w 15 5) (field w 10 5) (field w 8 2) (field w 7 1) (field w 0 3))
  | 12 => .ok (.ror (field w 20 5) (field w 15 5) (field w 10 5) (field w 8 2) (field w 7 1) (field w 0 3))
  | _ => .error 1

/-- Opcode 0x18 (R40): the function code f of the word w. -/
noncomputable def opcode18 (f w : Nat) : Except Nat Instr :=
  match f with
  | 0 => .ok (.mul (field w 20 5) (field w 15 5) (field w 10 5) (field w 8 2) (field w 7 1) (field w 0 3))
  | 1 => .ok (.mulh (field w 20 5) (field w 15 5) (field w 10 5) (field w 8 2) (field w 7 1) (field w 0 3))
  | _ => .error 1

/-- Opcode 0x19 (R40): the function code f of the word w. -/
noncomputable def opcode19 (f w : Nat) : Except Nat Instr :=
  match f with
  | 0 => .ok (.div (field w 20 5) (field w 15 5) (field w 10 5) (field w 8 2) (field w 7 1) (field w 0 3))
  | 1 => .ok (.rem (field w 20 5) (field w 15 5) (field w 10 5) (field w 8 2) (field w 7 1) (field w 0 3))
  | _ => .error 1

/-- Opcode 0x1A (R40): the function code f of the word w. -/
noncomputable def opcode1a (f w : Nat) : Except Nat Instr :=
  match f with
  | 0 => .ok (.cmpEq (field w 20 5) (field w 15 5) (field w 10 5) (field w 8 2) (field w 7 1) (field w 0 3))
  | 1 => .ok (.cmpNe (field w 20 5) (field w 15 5) (field w 10 5) (field w 8 2) (field w 7 1) (field w 0 3))
  | 2 => .ok (.cmpLt (field w 20 5) (field w 15 5) (field w 10 5) (field w 8 2) (field w 7 1) (field w 0 3))
  | 3 => .ok (.cmpLe (field w 20 5) (field w 15 5) (field w 10 5) (field w 8 2) (field w 7 1) (field w 0 3))
  | 4 => .ok (.cmpGt (field w 20 5) (field w 15 5) (field w 10 5) (field w 8 2) (field w 7 1) (field w 0 3))
  | 5 => .ok (.cmpGe (field w 20 5) (field w 15 5) (field w 10 5) (field w 8 2) (field w 7 1) (field w 0 3))
  | _ => .error 1

/-- Opcode 0x1B (R40): the function code f of the word w. -/
noncomputable def opcode1b (f w : Nat) : Except Nat Instr :=
  match f with
  | 0 => .ok (.cmpiEq (field w 20 5) (field w 15 5) (field w 3 9) (field w 0 3))
  | 1 => .ok (.cmpiNe (field w 20 5) (field w 15 5) (field w 3 9) (field w 0 3))
  | 2 => .ok (.cmpiLtS64 (field w 20 5) (field w 15 5) (field w 3 9) (field w 0 3))
  | 3 => .ok (.cmpiLeS64 (field w 20 5) (field w 15 5) (field w 3 9) (field w 0 3))
  | 4 => .ok (.cmpiGtS64 (field w 20 5) (field w 15 5) (field w 3 9) (field w 0 3))
  | 5 => .ok (.cmpiGeS64 (field w 20 5) (field w 15 5) (field w 3 9) (field w 0 3))
  | 6 => .ok (.cmpiLtZ64 (field w 20 5) (field w 15 5) (field w 3 9) (field w 0 3))
  | 7 => .ok (.cmpiGeZ64 (field w 20 5) (field w 15 5) (field w 3 9) (field w 0 3))
  | _ => .error 1

/-- Opcode 0x1C (R40): the function code f of the word w. -/
noncomputable def opcode1c (f w : Nat) : Except Nat Instr :=
  match f with
  | 0 => .ok (.clz (field w 20 5) (field w 15 5) (field w 8 2) (field w 7 1) (field w 0 3))
  | 1 => .ok (.ctz (field w 20 5) (field w 15 5) (field w 8 2) (field w 7 1) (field w 0 3))
  | 2 => .ok (.popc (field w 20 5) (field w 15 5) (field w 8 2) (field w 7 1) (field w 0 3))
  | 3 => .ok (.brev (field w 20 5) (field w 15 5) (field w 8 2) (field w 7 1) (field w 0 3))
  | 4 => .ok (.bswap (field w 20 5) (field w 15 5) (field w 8 2) (field w 7 1) (field w 0 3))
  | _ => .error 1

/-- Opcode 0x1D (R40): the function code f of the word w. -/
noncomputable def opcode1d (f w : Nat) : Except Nat Instr :=
  match f with
  | 0 => .ok (.sel (field w 20 5) (field w 15 5) (field w 10 5) (field w 3 3) (field w 0 3))
  | _ => .error 1

/-- Opcode 0x20 (R40): the function code f of the word w. -/
noncomputable def opcode20 (f w : Nat) : Except Nat Instr :=
  match f with
  | 0 => .ok (.adda (field w 20 5) (field w 15 5) (field w 10 5) (field w 0 3))
  | _ => .error 1

/-- Opcode 0x22 (R40): the function code f of the word w. -/
noncomputable def opcode22 (f w : Nat) : Except Nat Instr :=
  match f with
  | 0 => .ok (.ptrSet (field w 20 5) (field w 15 5) (field w 10 5) (field w 0 3))
  | 1 => .ok (.ptrGet (field w 20 5) (field w 15 5) (field w 0 3))
  | 2 => .ok (.ptrClr (field w 20 5) (field w 15 5) (field w 0 3))
  | _ => .error 1

/-- Opcode 0x23 (R40): the function code f of the word w. -/
noncomputable def opcode23 (f w : Nat) : Except Nat Instr :=
  match f with
  | 0 => .ok (.predAnd (field w 20 5) (field w 15 5) (field w 10 5) (field w 0 3))
  | 1 => .ok (.predOr (field w 20 5) (field w 15 5) (field w 10 5) (field w 0 3))
  | 2 => .ok (.predXor (field w 20 5) (field w 15 5) (field w 10 5) (field w 0 3))
  | 3 => .ok (.predAndn (field w 20 5) (field w 15 5) (field w 10 5) (field w 0 3))
  | 4 => .ok (.predNot (field w 20 5) (field w 15 5) (field w 0 3))
  | 5 => .ok (.predFromg (field w 20 5) (field w 15 5) (field w 0 3))
  | 6 => .ok (.predTog (field w 20 5) (field w 15 5) (field w 0 3))
  | _ => .error 1

/-- Opcode 0x24 (R40): the function code f of the word w. -/
noncomputable def opcode24 (f w : Nat) : Except Nat Instr :=
  match f with
  | 0 => .ok (.coordSelf (field w 20 5) (field w 0 3))
  | 1 => .ok (.coordPack (field w 20 5) (field w 15 5) (field w 10 5) (field w 0 3))
  | 2 => .ok (.coordX (field w 20 5) (field w 15 5) (field w 0 3))
  | 3 => .ok (.coordY (field w 20 5) (field w 15 5) (field w 0 3))
  | 4 => .ok (.coordAdd (field w 20 5) (field w 15 5) (field w 10 5) (field w 0 3))
  | _ => .error 1

/-- Opcode 0x25 (R40): the function code f of the word w. -/
noncomputable def opcode25 (f w : Nat) : Except Nat Instr :=
  match f with
  | 0 => .ok (.min (field w 20 5) (field w 15 5) (field w 10 5) (field w 8 2) (field w 7 1) (field w 0 3))
  | 1 => .ok (.max (field w 20 5) (field w 15 5) (field w 10 5) (field w 8 2) (field w 7 1) (field w 0 3))
  | 2 => .ok (.absd (field w 20 5) (field w 15 5) (field w 10 5) (field w 8 2) (field w 7 1) (field w 0 3))
  | _ => .error 1

/-- Opcode 0x30 (R40): the function code f of the word w. -/
noncomputable def opcode30 (f w : Nat) : Except Nat Instr :=
  match f with
  | 0 => .ok (.fadd (field w 20 5) (field w 15 5) (field w 10 5) (field w 8 2) (field w 0 3))
  | 1 => .ok (.fsub (field w 20 5) (field w 15 5) (field w 10 5) (field w 8 2) (field w 0 3))
  | 2 => .ok (.fmul (field w 20 5) (field w 15 5) (field w 10 5) (field w 8 2) (field w 0 3))
  | 3 => .ok (.fdiv (field w 20 5) (field w 15 5) (field w 10 5) (field w 8 2) (field w 0 3))
  | 4 => .ok (.fmin (field w 20 5) (field w 15 5) (field w 10 5) (field w 8 2) (field w 0 3))
  | 5 => .ok (.fmax (field w 20 5) (field w 15 5) (field w 10 5) (field w 8 2) (field w 0 3))
  | 6 => .ok (.fabs (field w 20 5) (field w 15 5) (field w 8 2) (field w 0 3))
  | 7 => .ok (.fneg (field w 20 5) (field w 15 5) (field w 8 2) (field w 0 3))
  | _ => .error 1

/-- Opcode 0x31 (R40): the function code f of the word w. -/
noncomputable def opcode31 (f w : Nat) : Except Nat Instr :=
  match f with
  | 0 => .ok (.fma (field w 20 5) (field w 15 5) (field w 10 5) (field w 5 5) (field w 0 3))
  | 1 => .ok (.fms (field w 20 5) (field w 15 5) (field w 10 5) (field w 5 5) (field w 0 3))
  | 2 => .ok (.fnma (field w 20 5) (field w 15 5) (field w 10 5) (field w 5 5) (field w 0 3))
  | 3 => .ok (.fnms (field w 20 5) (field w 15 5) (field w 10 5) (field w 5 5) (field w 0 3))
  | _ => .error 1

/-- Opcode 0x32 (R40): the function code f of the word w. -/
noncomputable def opcode32 (f w : Nat) : Except Nat Instr :=
  match f with
  | 0 => .ok (.fcmpEq (field w 20 5) (field w 15 5) (field w 10 5) (field w 8 2) (field w 0 3))
  | 1 => .ok (.fcmpNe (field w 20 5) (field w 15 5) (field w 10 5) (field w 8 2) (field w 0 3))
  | 2 => .ok (.fcmpLt (field w 20 5) (field w 15 5) (field w 10 5) (field w 8 2) (field w 0 3))
  | 3 => .ok (.fcmpLe (field w 20 5) (field w 15 5) (field w 10 5) (field w 8 2) (field w 0 3))
  | 4 => .ok (.fcmpUn (field w 20 5) (field w 15 5) (field w 10 5) (field w 8 2) (field w 0 3))
  | _ => .error 1

/-- Opcode 0x33 (R40): the function code f of the word w. -/
noncomputable def opcode33 (f w : Nat) : Except Nat Instr :=
  match f with
  | 0 => .ok (.fsqrt (field w 20 5) (field w 15 5) (field w 0 3))
  | 1 => .ok (.rcp (field w 20 5) (field w 15 5) (field w 0 3))
  | 2 => .ok (.rsqrt (field w 20 5) (field w 15 5) (field w 0 3))
  | 3 => .ok (.exp2 (field w 20 5) (field w 15 5) (field w 0 3))
  | 4 => .ok (.log2 (field w 20 5) (field w 15 5) (field w 0 3))
  | _ => .error 1

/-- Opcode 0x34 (R40): the function code f of the word w. -/
noncomputable def opcode34 (f w : Nat) : Except Nat Instr :=
  match f with
  | 0 => .ok (.cvt (field w 20 5) (field w 15 5) (field w 7 3) (field w 4 3) (field w 0 3))
  | 1 => .ok (.cvto (field w 20 5) (field w 15 5) (field w 7 3) (field w 4 3) (field w 0 3))
  | _ => .error 1

/-- Opcode 0x35 (R40): the function code f of the word w. -/
noncomputable def opcode35 (f w : Nat) : Except Nat Instr :=
  match f with
  | 0 => .ok (.xacc (field w 15 5) (field w 10 5) (field w 8 2) (field w 0 3))
  | 1 => .ok (.xaccp (field w 15 5) (field w 10 5) (field w 8 2) (field w 0 3))
  | 2 => .ok (.xrnd (field w 20 5) (field w 15 5) (field w 8 2) (field w 0 3))
  | 3 => if field w 8 2 = 0 then .ok (.xmrg (field w 15 5) (field w 10 5) (field w 0 3)) else .error 1
  | 4 => if field w 8 2 = 0 then .ok (.xclr (field w 15 5) (field w 0 3)) else .error 1
  | _ => .error 1

/-- Opcode 0x38 (R40): the function code f of the word w. -/
noncomputable def opcode38 (f w : Nat) : Except Nat Instr :=
  match f with
  | 0 => .ok (.vadd (field w 20 5) (field w 15 5) (field w 10 5) (field w 8 2) (field w 7 1) (field w 0 3))
  | 1 => .ok (.vsub (field w 20 5) (field w 15 5) (field w 10 5) (field w 8 2) (field w 7 1) (field w 0 3))
  | 2 => .ok (.vand (field w 20 5) (field w 15 5) (field w 10 5) (field w 8 2) (field w 7 1) (field w 0 3))
  | 3 => .ok (.vor (field w 20 5) (field w 15 5) (field w 10 5) (field w 8 2) (field w 7 1) (field w 0 3))
  | 4 => .ok (.vxor (field w 20 5) (field w 15 5) (field w 10 5) (field w 8 2) (field w 7 1) (field w 0 3))
  | 5 => .ok (.vandn (field w 20 5) (field w 15 5) (field w 10 5) (field w 8 2) (field w 7 1) (field w 0 3))
  | 6 => .ok (.vorn (field w 20 5) (field w 15 5) (field w 10 5) (field w 8 2) (field w 7 1) (field w 0 3))
  | 7 => .ok (.vxnor (field w 20 5) (field w 15 5) (field w 10 5) (field w 8 2) (field w 7 1) (field w 0 3))
  | 8 => .ok (.vshl (field w 20 5) (field w 15 5) (field w 10 5) (field w 8 2) (field w 7 1) (field w 0 3))
  | 9 => .ok (.vshr (field w 20 5) (field w 15 5) (field w 10 5) (field w 8 2) (field w 7 1) (field w 0 3))
  | 10 => .ok (.vsra (field w 20 5) (field w 15 5) (field w 10 5) (field w 8 2) (field w 7 1) (field w 0 3))
  | 11 => .ok (.vrol (field w 20 5) (field w 15 5) (field w 10 5) (field w 8 2) (field w 7 1) (field w 0 3))
  | 12 => .ok (.vror (field w 20 5) (field w 15 5) (field w 10 5) (field w 8 2) (field w 7 1) (field w 0 3))
  | 13 => .ok (.vadds (field w 20 5) (field w 15 5) (field w 10 5) (field w 8 2) (field w 7 1) (field w 0 3))
  | 14 => .ok (.vsubs (field w 20 5) (field w 15 5) (field w 10 5) (field w 8 2) (field w 7 1) (field w 0 3))
  | _ => .error 1

/-- Opcode 0x39 (R40): the function code f of the word w. -/
noncomputable def opcode39 (f w : Nat) : Except Nat Instr :=
  match f with
  | 0 => .ok (.vfadd (field w 20 5) (field w 15 5) (field w 10 5) (field w 8 2) (field w 0 3))
  | 1 => .ok (.vfsub (field w 20 5) (field w 15 5) (field w 10 5) (field w 8 2) (field w 0 3))
  | 2 => .ok (.vfmul (field w 20 5) (field w 15 5) (field w 10 5) (field w 8 2) (field w 0 3))
  | 3 => .ok (.vfdiv (field w 20 5) (field w 15 5) (field w 10 5) (field w 8 2) (field w 0 3))
  | 4 => .ok (.vfmin (field w 20 5) (field w 15 5) (field w 10 5) (field w 8 2) (field w 0 3))
  | 5 => .ok (.vfmax (field w 20 5) (field w 15 5) (field w 10 5) (field w 8 2) (field w 0 3))
  | 6 => .ok (.vfabs (field w 20 5) (field w 15 5) (field w 8 2) (field w 0 3))
  | 7 => .ok (.vfneg (field w 20 5) (field w 15 5) (field w 8 2) (field w 0 3))
  | _ => .error 1

/-- Opcode 0x3A (R40): the function code f of the word w. -/
noncomputable def opcode3a (f w : Nat) : Except Nat Instr :=
  match f with
  | 0 => .ok (.vfma (field w 20 5) (field w 15 5) (field w 10 5) (field w 5 5) (field w 0 3))
  | 1 => .ok (.vfms (field w 20 5) (field w 15 5) (field w 10 5) (field w 5 5) (field w 0 3))
  | 2 => .ok (.vfnma (field w 20 5) (field w 15 5) (field w 10 5) (field w 5 5) (field w 0 3))
  | 3 => .ok (.vfnms (field w 20 5) (field w 15 5) (field w 10 5) (field w 5 5) (field w 0 3))
  | _ => .error 1

/-- Opcode 0x3B (R40): the function code f of the word w. -/
noncomputable def opcode3b (f w : Nat) : Except Nat Instr :=
  match f with
  | 0 => .ok (.vcmpEq (field w 20 5) (field w 15 5) (field w 10 5) (field w 7 3) (field w 0 3))
  | 1 => .ok (.vcmpNe (field w 20 5) (field w 15 5) (field w 10 5) (field w 7 3) (field w 0 3))
  | 2 => .ok (.vcmpLt (field w 20 5) (field w 15 5) (field w 10 5) (field w 7 3) (field w 0 3))
  | 3 => .ok (.vcmpLe (field w 20 5) (field w 15 5) (field w 10 5) (field w 7 3) (field w 0 3))
  | 4 => .ok (.vcmpLtz (field w 20 5) (field w 15 5) (field w 7 3) (field w 0 3))
  | 5 => .ok (.vcmpLez (field w 20 5) (field w 15 5) (field w 7 3) (field w 0 3))
  | _ => .error 1

/-- Opcode 0x3C (R40): the function code f of the word w. -/
noncomputable def opcode3c (f w : Nat) : Except Nat Instr :=
  match f with
  | 0 => .ok (.vredSum (field w 20 5) (field w 15 5) (field w 7 3) (field w 0 3))
  | 1 => .ok (.vredMin (field w 20 5) (field w 15 5) (field w 7 3) (field w 0 3))
  | 2 => .ok (.vredMax (field w 20 5) (field w 15 5) (field w 7 3) (field w 0 3))
  | 3 => .ok (.vredAnd (field w 20 5) (field w 15 5) (field w 7 3) (field w 0 3))
  | 4 => .ok (.vredOr (field w 20 5) (field w 15 5) (field w 7 3) (field w 0 3))
  | 5 => .ok (.vredXor (field w 20 5) (field w 15 5) (field w 7 3) (field w 0 3))
  | _ => .error 1

/-- Opcode 0x3D (R40): the function code f of the word w. -/
noncomputable def opcode3d (f w : Nat) : Except Nat Instr :=
  match f with
  | 0 => .ok (.vshuf (field w 20 5) (field w 15 5) (field w 10 5) (field w 8 2) (field w 0 3))
  | 1 => .ok (.vrotl (field w 20 5) (field w 15 5) (field w 10 5) (field w 8 2) (field w 0 3))
  | 2 => .ok (.vzip (field w 20 5) (field w 15 5) (field w 10 5) (field w 8 2) (field w 0 3))
  | 3 => .ok (.vunzip (field w 20 5) (field w 15 5) (field w 10 5) (field w 8 2) (field w 0 3))
  | _ => .error 1

/-- Opcode 0x3E (R40): the function code f of the word w. -/
noncomputable def opcode3e (f w : Nat) : Except Nat Instr :=
  match f with
  | 0 => .ok (.vcvt (field w 20 5) (field w 15 5) (field w 10 5) (field w 7 3) (field w 4 3) (field w 0 3))
  | 1 => .ok (.vcvto (field w 20 5) (field w 15 5) (field w 10 5) (field w 7 3) (field w 4 3) (field w 0 3))
  | _ => .error 1

/-- Opcode 0x3F (R40): the function code f of the word w. -/
noncomputable def opcode3f (f w : Nat) : Except Nat Instr :=
  match f with
  | 0 => .ok (.vsel (field w 20 5) (field w 15 5) (field w 10 5) (field w 8 2) (field w 0 3))
  | _ => .error 1

/-- Opcode 0x40 (R40): the function code f of the word w. -/
noncomputable def opcode40 (f w : Nat) : Except Nat Instr :=
  match f with
  | 0 => .ok (.vdot (field w 20 5) (field w 15 5) (field w 10 5) (field w 8 2) (field w 0 3))
  | _ => .error 1

/-- Opcode 0x42 (R40): the function code f of the word w. -/
noncomputable def opcode42 (f w : Nat) : Except Nat Instr :=
  match f with
  | 0 => .ok (.gang2 (field w 0 3))
  | 1 => .ok (.gang4 (field w 0 3))
  | 2 => .ok (.gang8 (field w 0 3))
  | 3 => .ok (.disband (field w 0 3))
  | _ => .error 1

/-- Opcode 0x43 (R40): the function code f of the word w. -/
noncomputable def opcode43 (f w : Nat) : Except Nat Instr :=
  match f with
  | 0 => .ok (.ngetG (field w 20 5) (field w 15 5) (field w 10 5) (field w 0 3))
  | 1 => .ok (.ngetS (field w 20 5) (field w 15 5) (field w 10 5) (field w 0 3))
  | _ => .error 1

/-- Opcode 0x44 (R40): the function code f of the word w. -/
noncomputable def opcode44 (f w : Nat) : Except Nat Instr :=
  match f with
  | 0 => .ok (.nput (field w 20 5) (field w 15 5) (field w 10 5) (field w 0 3))
  | _ => .error 1

/-- Opcode 0x4C (R40): the function code f of the word w. -/
noncomputable def opcode4c (f w : Nat) : Except Nat Instr :=
  match f with
  | 0 => .ok (.ldx (field w 20 5) (field w 15 5) (field w 10 5) (field w 8 2) (field w 7 1) (field w 3 2) (field w 0 3))
  | _ => .error 1

/-- Opcode 0x4D (R40): the function code f of the word w. -/
noncomputable def opcode4d (f w : Nat) : Except Nat Instr :=
  match f with
  | 0 => if field w 7 1 = 0 then .ok (.stx (field w 20 5) (field w 15 5) (field w 10 5) (field w 8 2) (field w 3 2) (field w 0 3)) else .error 1
  | _ => .error 1

/-- Opcode 0x54 (R40): the function code f of the word w. -/
noncomputable def opcode54 (f w : Nat) : Except Nat Instr :=
  match f with
  | 0 => .ok (.fence (field w 15 5) (field w 0 3))
  | _ => .error 1

/-- Opcode 0x55 (R40): the function code f of the word w. -/
noncomputable def opcode55 (f w : Nat) : Except Nat Instr :=
  match f with
  | 0 => .ok (.owner (field w 20 5) (field w 15 5) (field w 10 5) (field w 0 3))
  | _ => .error 1

/-- Opcode 0x5A (R40): the function code f of the word w. -/
noncomputable def opcode5a (f w : Nat) : Except Nat Instr :=
  match f with
  | 0 => if field w 7 1 = 0 then .ok (.rst (field w 20 5) (field w 15 5) (field w 10 5) (field w 8 2) (field w 0 3)) else .error 1
  | _ => .error 1

/-- Opcode 0x5B (R40): the function code f of the word w. -/
noncomputable def opcode5b (f w : Nat) : Except Nat Instr :=
  match f with
  | 0 => .ok (.rld (field w 20 5) (field w 15 5) (field w 10 5) (field w 8 2) (field w 7 1) (field w 0 3))
  | _ => .error 1

/-- Opcode 0x5C (R40): the function code f of the word w. -/
noncomputable def opcode5c (f w : Nat) : Except Nat Instr :=
  match f with
  | 0 => .ok (.ramoAdd (field w 20 5) (field w 15 5) (field w 10 5) (field w 8 2) (field w 7 1) (field w 0 3))
  | 1 => .ok (.ramoMin (field w 20 5) (field w 15 5) (field w 10 5) (field w 8 2) (field w 7 1) (field w 0 3))
  | 2 => .ok (.ramoMax (field w 20 5) (field w 15 5) (field w 10 5) (field w 8 2) (field w 7 1) (field w 0 3))
  | 3 => .ok (.ramoAnd (field w 20 5) (field w 15 5) (field w 10 5) (field w 8 2) (field w 7 1) (field w 0 3))
  | 4 => .ok (.ramoOr (field w 20 5) (field w 15 5) (field w 10 5) (field w 8 2) (field w 7 1) (field w 0 3))
  | 5 => .ok (.ramoXor (field w 20 5) (field w 15 5) (field w 10 5) (field w 8 2) (field w 7 1) (field w 0 3))
  | 6 => .ok (.ramoSwap (field w 20 5) (field w 15 5) (field w 10 5) (field w 8 2) (field w 7 1) (field w 0 3))
  | 7 => if field w 7 3 = 2 then .ok (.ramoFadd (field w 20 5) (field w 15 5) (field w 10 5) (field w 0 3)) else .error 1
  | _ => .error 1

/-- Opcode 0x5D (R40): the function code f of the word w. -/
noncomputable def opcode5d (f w : Nat) : Except Nat Instr :=
  match f with
  | 0 => .ok (.msgPorch (field w 20 5) (field w 0 3))
  | 1 => .ok (.msgLen (field w 20 5) (field w 0 3))
  | 2 => .ok (.msgSkip (field w 0 3))
  | _ => .error 1

/-- Opcode 0x5E (R40): the function code f of the word w. -/
noncomputable def opcode5e (f w : Nat) : Except Nat Instr :=
  match f with
  | 0 => if field w 20 5 = 0 then .ok (.qenq (field w 15 5) (field w 10 5) (field w 0 3)) else .ok (.qenqR (field w 20 5) (field w 15 5) (field w 10 5) (field w 0 3))
  | 1 => .ok (.qclaim (field w 20 5) (field w 15 5) (field w 10 5) (field w 0 3))
  | 2 => .ok (.qpub (field w 15 5) (field w 10 5) (field w 0 3))
  | 3 => .ok (.qstat (field w 20 5) (field w 15 5) (field w 0 3))
  | 4 => .ok (.qfreeze (field w 15 5) (field w 0 3))
  | 5 => .ok (.qthaw (field w 15 5) (field w 0 3))
  | 6 => .ok (.qskip (field w 20 5) (field w 15 5) (field w 0 3))
  | _ => .error 1

/-- Opcode 0x60 (R40): the function code f of the word w. -/
noncomputable def opcode60 (f w : Nat) : Except Nat Instr :=
  match f with
  | 0 => .ok (.amoAdd (field w 20 5) (field w 15 5) (field w 10 5) (field w 8 2) (field w 0 3))
  | 1 => .ok (.amoMin (field w 20 5) (field w 15 5) (field w 10 5) (field w 8 2) (field w 0 3))
  | 2 => .ok (.amoMax (field w 20 5) (field w 15 5) (field w 10 5) (field w 8 2) (field w 0 3))
  | 3 => .ok (.amoMinz (field w 20 5) (field w 15 5) (field w 10 5) (field w 8 2) (field w 0 3))
  | 4 => .ok (.amoMaxz (field w 20 5) (field w 15 5) (field w 10 5) (field w 8 2) (field w 0 3))
  | 5 => .ok (.amoAnd (field w 20 5) (field w 15 5) (field w 10 5) (field w 8 2) (field w 0 3))
  | 6 => .ok (.amoOr (field w 20 5) (field w 15 5) (field w 10 5) (field w 8 2) (field w 0 3))
  | 7 => .ok (.amoXor (field w 20 5) (field w 15 5) (field w 10 5) (field w 8 2) (field w 0 3))
  | 8 => .ok (.amoSwap (field w 20 5) (field w 15 5) (field w 10 5) (field w 8 2) (field w 0 3))
  | _ => .error 1

/-- Opcode 0x62 (R40): the function code f of the word w. -/
noncomputable def opcode62 (f w : Nat) : Except Nat Instr :=
  match f with
  | 0 => .ok (.famoFaddx (field w 20 5) (field w 15 5) (field w 10 5) (field w 8 2) (field w 0 3))
  | 1 => .ok (.famoFmin (field w 20 5) (field w 15 5) (field w 10 5) (field w 8 2) (field w 0 3))
  | 2 => .ok (.famoFmax (field w 20 5) (field w 15 5) (field w 10 5) (field w 8 2) (field w 0 3))
  | 3 => .ok (.famoFrdx (field w 20 5) (field w 15 5) (field w 10 5) (field w 8 2) (field w 0 3))
  | _ => .error 1

/-- Opcode 0x63 (R40): the function code f of the word w. -/
noncomputable def opcode63 (f w : Nat) : Except Nat Instr :=
  match f with
  | 0 => .ok (.redAdd (field w 15 5) (field w 10 5) (field w 8 2) (field w 0 3))
  | 1 => .ok (.redMin (field w 15 5) (field w 10 5) (field w 8 2) (field w 0 3))
  | 2 => .ok (.redMax (field w 15 5) (field w 10 5) (field w 8 2) (field w 0 3))
  | 3 => .ok (.redMinz (field w 15 5) (field w 10 5) (field w 8 2) (field w 0 3))
  | 4 => .ok (.redMaxz (field w 15 5) (field w 10 5) (field w 8 2) (field w 0 3))
  | 5 => .ok (.redAnd (field w 15 5) (field w 10 5) (field w 8 2) (field w 0 3))
  | 6 => .ok (.redOr (field w 15 5) (field w 10 5) (field w 8 2) (field w 0 3))
  | 7 => .ok (.redXor (field w 15 5) (field w 10 5) (field w 8 2) (field w 0 3))
  | 16 => .ok (.redFaddx (field w 15 5) (field w 10 5) (field w 8 2) (field w 0 3))
  | 17 => .ok (.redFmin (field w 15 5) (field w 10 5) (field w 8 2) (field w 0 3))
  | 18 => .ok (.redFmax (field w 15 5) (field w 10 5) (field w 8 2) (field w 0 3))
  | _ => .error 1

/-- Opcode 0x64 (R40): the function code f of the word w. -/
noncomputable def opcode64 (f w : Nat) : Except Nat Instr :=
  match f with
  | 0 => .ok (.barArr (field w 20 5) (field w 15 5) (field w 0 3))
  | 1 => .ok (.barDrop (field w 20 5) (field w 15 5) (field w 0 3))
  | 2 => .ok (.barWait (field w 15 5) (field w 10 5) (field w 0 3))
  | 3 => .ok (.barTest (field w 20 5) (field w 15 5) (field w 10 5) (field w 0 3))
  | _ => .error 1

/-- Opcode 0x65 (R40): the function code f of the word w. -/
noncomputable def opcode65 (f w : Nat) : Except Nat Instr :=
  match f with
  | 0 => .ok (.tspawn (field w 20 5) (field w 15 5) (field w 10 5) (field w 0 3))
  | _ => .error 1

/-- Opcode 0x66 (R40): the function code f of the word w. -/
noncomputable def opcode66 (f w : Nat) : Except Nat Instr :=
  match f with
  | 0 => .ok (.taskGvt (field w 20 5) (field w 0 3))
  | 1 => .ok (.taskTs (field w 20 5) (field w 0 3))
  | _ => .error 1

/-- Opcode 0x68 (R40): the function code f of the word w. -/
noncomputable def opcode68 (f w : Nat) : Except Nat Instr :=
  match f with
  | 0 => .ok (.mxma (field w 13 5) (field w 8 5) (field w 5 2) (field w 3 2) (field w 0 3))
  | 1 => .ok (.mxmaZ (field w 13 5) (field w 8 5) (field w 5 2) (field w 3 2) (field w 0 3))
  | _ => .error 1

/-- Opcode 0x69 (R40): the function code f of the word w. -/
noncomputable def opcode69 (f w : Nat) : Except Nat Instr :=
  match f with
  | 0 => .ok (.mxmas (field w 13 5) (field w 8 5) (field w 5 2) (field w 3 2) (field w 0 3))
  | 1 => .ok (.mxmasZ (field w 13 5) (field w 8 5) (field w 5 2) (field w 3 2) (field w 0 3))
  | _ => .error 1

/-- Opcode 0x6A (R40): the function code f of the word w. -/
noncomputable def opcode6a (f w : Nat) : Except Nat Instr :=
  match f with
  | 0 => .ok (.mxmt (field w 13 5) (field w 8 5) (field w 5 2) (field w 3 2) (field w 0 3))
  | 1 => .ok (.mxmtZ (field w 13 5) (field w 8 5) (field w 5 2) (field w 3 2) (field w 0 3))
  | _ => .error 1

/-- Opcode 0x6B (R40): the function code f of the word w. -/
noncomputable def opcode6b (f w : Nat) : Except Nat Instr :=
  match f with
  | 0 => .ok (.lease (field w 0 3))
  | 1 => .ok (.unlease (field w 0 3))
  | 2 => .ok (.mxwaitb (field w 5 2) (field w 0 3))
  | _ => .error 1

/-- Opcode 0x6C (R40): the function code f of the word w. -/
noncomputable def opcode6c (f w : Nat) : Except Nat Instr :=
  match f with
  | 0 => .ok (.tld (field w 13 5) (field w 8 5) (field w 0 3))
  | 1 => .ok (.tst (field w 13 5) (field w 8 5) (field w 0 3))
  | 2 => .ok (.tzero (field w 13 5) (field w 0 3))
  | 3 => .ok (.twaitc (field w 13 5) (field w 0 3))
  | _ => .error 1

/-- Opcode 0x6D (R40): the function code f of the word w. -/
noncomputable def opcode6d (f w : Nat) : Except Nat Instr :=
  match f with
  | 0 => .ok (.qnt (field w 13 5) (field w 8 5) (field w 0 3))
  | _ => .error 1

/-- Opcode 0x6E (R40): the function code f of the word w. -/
noncomputable def opcode6e (f w : Nat) : Except Nat Instr :=
  match f with
  | 0 => .ok (.dqnt (field w 13 5) (field w 8 5) (field w 0 3))
  | _ => .error 1

/-- Opcode 0x6F (R40): the function code f of the word w. -/
noncomputable def opcode6f (f w : Nat) : Except Nat Instr :=
  match f with
  | 0 => .ok (.isect (field w 13 5) (field w 8 5) (field w 0 3))
  | 1 => .ok (.part (field w 13 5) (field w 8 5) (field w 0 3))
  | 2 => match field w 3 5 with
    | 0 => .ok (.bmpackP (field w 13 5) (field w 8 5) (field w 0 3))
    | 1 => .ok (.bmpackX (field w 13 5) (field w 8 5) (field w 0 3))
    | 2 => .ok (.bmpackC (field w 13 5) (field w 8 5) (field w 0 3))
    | 3 => .ok (.bmpackCt (field w 13 5) (field w 8 5) (field w 0 3))
    | _ => .error 1
  | _ => .error 1

/-- Opcode 0x70 (R40): the function code f of the word w. -/
noncomputable def opcode70 (f w : Nat) : Except Nat Instr :=
  match f with
  | 0 => .ok (.prune (field w 13 5) (field w 8 5) (field w 3 5) (field w 0 3))
  | 1 => .ok (.msearch (field w 13 5) (field w 8 5) (field w 0 3))
  | _ => .error 1

/-- Opcode 0x71 (R40): the function code f of the word w. -/
noncomputable def opcode71 (f w : Nat) : Except Nat Instr :=
  match f with
  | 0 => .ok (.apass (field w 13 5) (field w 0 3))
  | 1 => match field w 3 5 with
    | 0 => .ok (.asub (field w 13 5) (field w 8 5) (field w 0 3))
    | 1 => .ok (.asubNd (field w 13 5) (field w 8 5) (field w 0 3))
    | _ => .error 1
  | 2 => .ok (.aunsub (field w 13 5) (field w 8 5) (field w 0 3))
  | 3 => .ok (.trayput (field w 13 5) (field w 8 5) (field w 0 3))
  | 4 => .ok (.trayget (field w 13 5) (field w 8 5) (field w 0 3))
  | 5 => .ok (.aclose (field w 13 5) (field w 0 3))
  | _ => .error 1

/-- Opcode 0x72 (R40): the function code f of the word w. -/
noncomputable def opcode72 (f w : Nat) : Except Nat Instr :=
  match f with
  | 0 => .ok (.trec (field w 13 5) (field w 0 3))
  | 1 => .ok (.tend (field w 0 3))
  | 2 => .ok (.treplay (field w 13 5) (field w 8 5) (field w 0 3))
  | 3 => match field w 3 5 with
    | 0 => .ok (.tpatchA (field w 13 5) (field w 0 3))
    | 1 => .ok (.tpatchB (field w 13 5) (field w 0 3))
    | 2 => .ok (.tpatchE (field w 13 5) (field w 8 5) (field w 0 3))
    | _ => .error 1
  | 4 => match field w 3 5 with
    | 0 => .ok (.tguard (field w 13 5) (field w 8 5) (field w 0 3))
    | 1 => .ok (.tguardEarly (field w 13 5) (field w 8 5) (field w 0 3))
    | _ => .error 1
  | _ => .error 1

/-- Opcode 0x74 (R40): the function code f of the word w. -/
noncomputable def opcode74 (f w : Nat) : Except Nat Instr :=
  match f with
  | 0 => .ok (.trace (field w 15 5) (field w 0 3))
  | 1 => .ok (.mark (field w 15 5) (field w 10 5) (field w 0 3))
  | _ => .error 1

/-- Opcode 0x75 (R40): the function code f of the word w. -/
noncomputable def opcode75 (f w : Nat) : Except Nat Instr :=
  match f with
  | 0 => .ok (.dbgSet (field w 20 5) (field w 15 5) (field w 10 5) (field w 0 3))
  | 1 => .ok (.dbgClr (field w 20 5) (field w 0 3))
  | 2 => .ok (.dbgRd (field w 20 5) (field w 15 5) (field w 10 5) (field w 0 3))
  | _ => .error 1

/-- Opcode 0x52 (R40) of the word w. -/
noncomputable def opcode52 (w : Nat) : Except Nat Instr :=
  if field w 22 3 ≠ 0 then .error 1 else if field w 21 1 = 1 then .ok (.cpyArm (field w 20 1) (field w 18 2) (field w 8 5) (field w 3 3) (field w 0 3)) else .ok (.cpy (field w 20 1) (field w 18 2) (field w 13 5) (field w 8 5) (field w 0 3))

/-- Opcode 0x56 (R40) of the word w. -/
noncomputable def opcode56 (w : Nat) : Except Nat Instr :=
  if field w 20 5 = 1 then .ok (.prefTier (field w 15 5) (field w 6 9) (field w 0 3)) else .ok (.pref (field w 15 5) (field w 6 9) (field w 0 3))

/-- The instruction of a word w with primary opcode op (R38, R40): class 0 for an unassigned opcode, class 1 for an unassigned function
code. -/
noncomputable def byOpcode (op w : Nat) : Except Nat Instr :=
  match op with
  | 0x01 => .ok (.br (field w 22 3) (field w 21 1) (field w 0 21))
  | 0x02 => .ok (.call (field w 22 3) (field w 21 1) (field w 0 21))
  | 0x03 => opcode03 (field w 3 7) w
  | 0x04 => .ok (.loop (field w 20 5) (field w 3 12) (field w 0 3))
  | 0x05 => opcode05 (field w 3 7) w
  | 0x06 => .ok (.trap (field w 3 12) (field w 0 3))
  | 0x07 => opcode07 (field w 3 7) w
  | 0x08 => .ok (.csrr (field w 20 5) (field w 3 12) (field w 0 3))
  | 0x09 => .ok (.csrw (field w 15 5) (field w 3 12) (field w 0 3))
  | 0x0A => opcode0a (field w 3 7) w
  | 0x0B => opcode0b (field w 3 7) w
  | 0x10 => opcode10 (field w 3 4) w
  | 0x11 => .ok (.addi (field w 20 5) (field w 15 5) (field w 3 12) (field w 0 3))
  | 0x12 => .ok (.andi (field w 20 5) (field w 15 5) (field w 3 12) (field w 0 3))
  | 0x13 => .ok (.ori (field w 20 5) (field w 15 5) (field w 3 12) (field w 0 3))
  | 0x14 => .ok (.xori (field w 20 5) (field w 15 5) (field w 3 12) (field w 0 3))
  | 0x15 => .ok (.shli (field w 20 5) (field w 15 5) (field w 3 6) (field w 0 3))
  | 0x16 => .ok (.shri (field w 20 5) (field w 15 5) (field w 3 6) (field w 0 3))
  | 0x17 => .ok (.srai (field w 20 5) (field w 15 5) (field w 3 6) (field w 0 3))
  | 0x18 => opcode18 (field w 3 4) w
  | 0x19 => opcode19 (field w 3 4) w
  | 0x1A => opcode1a (field w 3 4) w
  | 0x1B => opcode1b (field w 12 3) w
  | 0x1C => opcode1c (field w 3 4) w
  | 0x1D => opcode1d (field w 6 4) w
  | 0x1E => .ok (.li (field w 20 5) (field w 0 20))
  | 0x1F => .ok (.lui (field w 20 5) (field w 0 20))
  | 0x20 => opcode20 (field w 3 7) w
  | 0x21 => .ok (.addai (field w 20 5) (field w 15 5) (field w 3 12) (field w 0 3))
  | 0x22 => opcode22 (field w 3 7) w
  | 0x23 => opcode23 (field w 3 7) w
  | 0x24 => opcode24 (field w 3 7) w
  | 0x25 => opcode25 (field w 3 4) w
  | 0x26 => .ok (.muli (field w 20 5) (field w 15 5) (field w 3 12) (field w 0 3))
  | 0x30 => opcode30 (field w 3 5) w
  | 0x31 => opcode31 (field w 3 2) w
  | 0x32 => opcode32 (field w 3 5) w
  | 0x33 => opcode33 (field w 3 7) w
  | 0x34 => opcode34 (field w 3 1) w
  | 0x35 => opcode35 (field w 3 5) w
  | 0x36 => .ok (.fli (field w 20 5) (field w 0 20))
  | 0x38 => opcode38 (field w 3 4) w
  | 0x39 => opcode39 (field w 3 5) w
  | 0x3A => opcode3a (field w 3 2) w
  | 0x3B => opcode3b (field w 3 4) w
  | 0x3C => opcode3c (field w 3 4) w
  | 0x3D => opcode3d (field w 3 5) w
  | 0x3E => opcode3e (field w 3 1) w
  | 0x3F => opcode3f (field w 3 5) w
  | 0x40 => opcode40 (field w 3 5) w
  | 0x41 => .ok (.vsplat (field w 20 5) (field w 15 5) (field w 13 2) (field w 3 10) (field w 0 3))
  | 0x42 => opcode42 (field w 3 7) w
  | 0x43 => opcode43 (field w 3 7) w
  | 0x44 => opcode44 (field w 3 7) w
  | 0x48 => .ok (.ld (field w 20 5) (field w 15 5) (field w 6 9) (field w 4 2) (field w 3 1) (field w 0 3))
  | 0x49 => .ok (.st (field w 20 5) (field w 15 5) (field w 6 9) (field w 4 2) (field w 0 3))
  | 0x4A => .ok (.ldw (field w 20 5) (field w 15 5) (field w 6 9) (field w 0 3))
  | 0x4B => .ok (.stw (field w 20 5) (field w 15 5) (field w 6 9) (field w 0 3))
  | 0x4C => opcode4c (field w 5 2) w
  | 0x4D => opcode4d (field w 5 2) w
  | 0x50 => .ok (.gld (field w 20 5) (field w 15 5) (field w 6 9) (field w 4 2) (field w 3 1) (field w 0 3))
  | 0x51 => .ok (.gst (field w 20 5) (field w 15 5) (field w 6 9) (field w 4 2) (field w 0 3))
  | 0x52 => opcode52 w
  | 0x53 => .ok (.wait (field w 21 4) (field w 17 4) (field w 13 4) (field w 9 4) (field w 5 4) (field w 0 3))
  | 0x54 => opcode54 (field w 3 7) w
  | 0x55 => opcode55 (field w 3 7) w
  | 0x56 => opcode56 w
  | 0x58 => .ok (.send (field w 24 1) (field w 22 2) (field w 19 3) (field w 14 5) (field w 9 5) (field w 6 3) (field w 0 3))
  | 0x59 => .ok (.sendm (field w 24 1) (field w 22 2) (field w 19 3) (field w 14 5) (field w 9 5) (field w 6 3) (field w 0 3))
  | 0x5A => opcode5a (field w 3 4) w
  | 0x5B => opcode5b (field w 3 4) w
  | 0x5C => opcode5c (field w 3 4) w
  | 0x5D => opcode5d (field w 3 7) w
  | 0x5E => opcode5e (field w 3 7) w
  | 0x5F => .ok (.reply (field w 19 3) (field w 14 5) (field w 0 3))
  | 0x60 => opcode60 (field w 3 5) w
  | 0x61 => .ok (.amocas (field w 20 5) (field w 15 5) (field w 10 5) (field w 5 5) (field w 3 2) (field w 0 3))
  | 0x62 => opcode62 (field w 3 5) w
  | 0x63 => opcode63 (field w 3 5) w
  | 0x64 => opcode64 (field w 3 7) w
  | 0x65 => opcode65 (field w 3 7) w
  | 0x66 => opcode66 (field w 3 7) w
  | 0x68 => opcode68 (field w 18 7) w
  | 0x69 => opcode69 (field w 18 7) w
  | 0x6A => opcode6a (field w 18 7) w
  | 0x6B => opcode6b (field w 18 7) w
  | 0x6C => opcode6c (field w 18 7) w
  | 0x6D => opcode6d (field w 18 7) w
  | 0x6E => opcode6e (field w 18 7) w
  | 0x6F => opcode6f (field w 18 7) w
  | 0x70 => opcode70 (field w 18 7) w
  | 0x71 => opcode71 (field w 18 7) w
  | 0x72 => opcode72 (field w 18 7) w
  | 0x73 => .ok (.eset (field w 18 7) (field w 13 5) (field w 3 5) (field w 0 3))
  | 0x74 => opcode74 (field w 3 7) w
  | 0x75 => opcode75 (field w 3 7) w
  | _ => .error 0

/-- The instruction that the opcode and the function code of a word name (R38, R40), with its fields. -/
noncomputable def candidate (w : Nat) : Except Nat Instr := byOpcode (field w 25 7) w

/-- Decode one instruction word (R41): the instruction, or the ILLEGAL class. The all-zero and the all-one word are class 5. A
bit that no field of the instruction holds shows as a word different from the one the fields encode to: class 2. -/
noncomputable def decode (w : Nat) : Except Nat Instr :=
  if w = 0 ∨ w = 0xFFFFFFFF then .error 5
  else match candidate w with
    | .error c => .error c
    | .ok i =>
      if i.flaw1 then .error 1
      else if i.encode ≠ some w ∨ i.flaw2 then .error 2
      else if i.flaw3 then .error 3
      else if i.flaw4 then .error 4
      else .ok i

/-- The word held by four bytes, the first at the lowest address (R2). -/
def wordOfBytes : List (BitVec 8) → Nat
  | [] => 0
  | b :: bs => b.toNat + 256 * wordOfBytes bs

/-- The bytes of a value of `n` bytes, the least significant first (R2). -/
def bytesOfWord : Nat → Nat → List (BitVec 8)
  | 0, _ => []
  | n + 1, v => BitVec.ofNat 8 v :: bytesOfWord n (v / 256)

/-- Decode the four bytes of an instruction as they stand in memory; fewer than four bytes are no instruction. -/
noncomputable def decodeBytes (bs : List (BitVec 8)) : Except Nat Instr :=
  if bs.length = 4 then decode (wordOfBytes bs) else .error 0

/-- The instruction the decoder reads from the `nbits` bits of `w`, numbered as the opcode table numbers them: every
instruction is one 32-bit word, so the bytes are the four little-endian bytes of the word. -/
noncomputable def decodeTableWord (nbits w : Nat) : Option Instr :=
  match decodeBytes (bytesOfWord 4 (w % 2 ^ nbits)) with
  | .ok i => some i
  | .error _ => none

end Sys2Proof
end

