-- ==== Sys2Proof/Word.lean ====
section
/-! DEFINITION. The words of the machine (R2, R26): a byte, a doubleword in a general register, a wide register. -/

namespace Sys2Proof

/-- A byte (R2). -/
abbrev Byte := BitVec 8

/-- A doubleword: the width of a general register and of a control register (R26). -/
abbrev Word := BitVec 64

/-- A wide register of 512 bits (R26). -/
abbrev Wide := BitVec 512

end Sys2Proof
end

