-- ==== Sys2Proof/Config.lean ====
section
/-! DEFINITION. What the specification leaves to the implementation or to the outside world: constants and functions with no body,
about which nothing can be proved. Each draws its value from the plain counter `draw` of the state (log entry 1), or from the
operands it depends on. -/

namespace Sys2Proof.Config

/-- The choice among the steps that may come next, when several may (R198, R244, R305 leave their interleaving open); log entry 1. -/
opaque choice : Nat → Nat

/-- A value the specification does not state; log entry 1. -/
opaque freeWord : Nat → BitVec 64

/-- A wide value the specification does not state; log entry 1. -/
opaque freeWide : Nat → BitVec 512

/-- Whether an event the specification allows but does not force takes place (log entry 1). -/
opaque freeBit : Nat → Bool

/-- SHA-384 of a list of bytes, as a number of 384 bits (R378, R381); log entry 7. -/
opaque sha384 : List (BitVec 8) → Nat

/-- What stands in the header of a firmware image at places that the specification does not state (R381): the 97-byte signing key, the 96-byte
signature, the 16-bit security version, the firmware version; and the length of the header. Log entry 22. -/
opaque imageKey : List (BitVec 8) → BitVec 776
opaque imageSignature : List (BitVec 8) → BitVec 768
opaque imageSecurity : List (BitVec 8) → BitVec 16
opaque imageVersion : List (BitVec 8) → BitVec 48
opaque headerBytes : Nat

/-- The hash of the signing key and the rollback counter that the fuses hold (R381); log entry 7. -/
opaque fuseHash : Nat
opaque fuseRollback : BitVec 16

/-- Whether ECDSA over the random curve of RFC 5639 with SHA-384 verifies a signature under a public key over some bytes (R381); log entry 7. -/
opaque verifies : BitVec 776 → BitVec 768 → List (BitVec 8) → Bool

/-- The 96-byte signature by the device identity key over a list of bytes (R382); log entry 7. -/
opaque sign : List (BitVec 8) → BitVec 768

/-- The DER certificate chain of the identity key (R429); log entry 7. -/
opaque certificate : Nat → List (BitVec 8)

/-- The 512-bit key of a darkroom context that the device's random generator creates at its seal (R377), by the draw; log entry 7. -/
opaque sealKey : Nat → BitVec 512

/-- A private key that the device's random generator creates (R378, R379), by the draw, and its public key QC; log entry 7. -/
opaque privateKey : Nat → BitVec 384
opaque publicKey : BitVec 384 → BitVec 776

/-- The public key QO that a context's owner sends, and its session key (R379): the first 32 bytes of HKDF-SHA-384 of the ECDH secret of a private
and a public key, with the GID as salt; log entry 7. -/
opaque ownerKey : Nat → BitVec 776
opaque sessionKey : BitVec 384 → BitVec 776 → BitVec 32 → BitVec 256

/-- AES-256 in XTS mode of a 256-byte data unit under a key, with the GID and the unit's number in the tweak (R377); log entry 7. -/
opaque xtsEncrypt : BitVec 512 → Nat → Nat → BitVec 2048 → BitVec 2048
opaque xtsDecrypt : BitVec 512 → Nat → Nat → BitVec 2048 → BitVec 2048

/-- The plain bytes of an import blob under a session key, when its tag is right (R379); log entry 7. -/
opaque unsealBlob : BitVec 256 → List (BitVec 8) → Option (List (BitVec 8))

/-- The blob of an export under a session key with a nonce (R379); log entry 7. -/
opaque sealBlob : BitVec 256 → Nat → List (BitVec 8) → List (BitVec 8)

/-- The energy, in microjoules, attributed to a context in the stretch of time that ends at a time (R373); log entry 8. -/
opaque energy : Nat → Nat → Nat

/-- The entries for versions of a home bank with a number of powered ways, which the specification does not state (R272, R346); log entry 34. -/
opaque versionRoom : Nat → Nat

/-- The magnitude that elects the outliers of a block of QNT with no more than E elements (R175), which the specification does not state: a
function of the source size, the tile's geometry, QTAU, FPCTL and the block's bits (R84); log entry 37. -/
opaque blockMagnitude : Nat → Nat → Nat → Nat → List Nat → Nat

/-- The loss of an exchange of MSEARCH between two infinities (R190), which the specification does not state: a function of the source format,
FPCTL, the block's bits and the exchange (R84); log entry 38. -/
opaque maskLoss : Nat → Nat → List Nat → Nat → Int

/-- Whether the host or the CXL-attached memory completes an access with an error (R82), which the outside world decides; log entry 69. -/
opaque hostError : Nat → Bool

end Sys2Proof.Config
end

