-- ==== Sys2Proof/Machine/State.lean ====
section
/-! DEFINITION. The state of the machine, as plain data: every strand, core, cluster, die, module and system register and queue
the specification names, the memory contents, and `State.reset`. INVENTORY.md lists each piece with its rule and reset value.

Memory, scratchpads, tiles and instruction stores are lists of (address, byte) with strictly rising addresses and no byte 0: an
unlisted address reads 0 (log entry 3). The focus (`core`, `k`) names the core and strand that the current step is about; the other
cores that have ever been touched are in `others`, and a core in neither place is `Core.fresh` (log entry 5). -/

namespace Sys2Proof.Machine

/-- Sparse bytes (log entry 3). -/
abbrev Mem := List Host.Cell

/-- The states of a strand (R8): a parked one notes whether it was in WAIT (R405). -/
inductive Life where
  | free | run | wait | halted
  | parked (waits : Bool)
  deriving DecidableEq, Repr, Inhabited

/-- The device mark of a message (R200): the unit that formed it, or none for an instruction of a strand. -/
inductive Mark where
  | none | launch | firmware | distributor | arrayAgent | copyAgent | queueCtl | sync | ni | router | ethernet | queueReq
  deriving DecidableEq, Repr, Inhabited

/-- The race-detector state of a strand (R227) . -/
structure Detector where
  rc : Nat := 0
  stamp : Option (Nat × Nat) := none
  acq : List (Nat × Nat) := []
  ovf : Bool := false
  deriving DecidableEq, Repr, Inhabited

/-- A message (R195) with its side band (R200), and what its bearer notes about it: for which SENDM rectangle it is still one
message (R210), when the NI consumed it and whether it passed through the cellar (R411), its input sequence number (R397), the timestamp and the cluster
of the task it carries (R271). -/
structure Msg where
  h0 : Word := 0
  h1 : Word := 0
  h2 : Word := 0
  pay : List Word := []
  gid : Nat := 0
  mark : Mark := .none
  release : Option (Nat × Nat) := none
  stamp : Option Nat := none
  rect : Option Nat := none
  key : Nat := 0
  sub : Nat := 0
  who : Nat := 0
  det : Detector := {}
  arrived : Nat := 0
  celled : Bool := false
  seq : Nat := 0
  made : Option Nat := none
  run : Option (Nat × Nat) := none
  deriving DecidableEq, Repr, Inhabited

/-- A trap about to be taken or deferred (R389): code, TRAPINFO, and the sub-reason, address and second party of its record. -/
structure Trap where
  code : Nat
  info : Word := 0
  sub : Nat := 0
  addr : Word := 0
  party : Word := 0
  deriving DecidableEq, Repr, Inhabited

/-- The operation classes (R78): L, S, C, T, M. -/
inductive Cls where
  | l | s | c | t | m
  deriving DecidableEq, Repr, Inhabited

/-- What an outstanding operation does. -/
inductive OpKind where
  | gld | gst | copy | armed | tld | tst | tzero | mxstep | qnt | dqnt | isect | part | bmpack | prune | msearch
  | apass | asub | aunsub | trayput | trayget | aclose
  | amo | amocas | famo | red | redf | arrive
  | rst | rld | ramo | sendStore | sendHandler | sendEngine | spawn | qop
  deriving DecidableEq, Repr, Inhabited

/-- An operation issued and not yet complete, or failed and not yet reported (R22, R72, R78, R79, R406). `word` is the instruction
word, `a b c` the captured operands, `n` a size, `d` the pending general register, `regs` the captured engine registers, `done`
what has been performed of it, `fail` the status it completed with; `rc rstamp racq rovf` the detector state at issue (R239),
`hp` whether a kind-3 message started its handler (R209), `absentAt` when a walk that met an ABSENT entry rereads it (R364),
`tiles` the tiles it has still to read or to write (R160), `walking` whether a walk of its address is in flight (R355), `stalled` whether its strand
waits for an entry of the reply table on its behalf (R201). -/
structure Op where
  id : Nat := 0
  kind : OpKind := .gld
  cls : Cls := .l
  seq : Nat := 0
  pc : Nat := 0
  word : Nat := 0
  fpctl : Nat := 0
  a : Word := 0
  b : Word := 0
  c : Word := 0
  n : Nat := 0
  d : Option Nat := none
  sgn : Bool := false
  op : Nat := 0
  regs : List Word := []
  geoms : List Word := []
  done : List Nat := []
  record : Bool := false
  complete : Bool := false
  started : Bool := false
  fail : Option Trap := none
  target : Nat := 0
  rc : Nat := 0
  rstamp : Option (Nat × Nat) := none
  racq : List (Nat × Nat) := []
  rovf : Bool := false
  hp : Bool := false
  absentAt : Nat := 0
  tiles : List (Nat × Bool) := []
  walking : Bool := false
  stalled : Bool := false
  deriving DecidableEq, Repr, Inhabited

/-- What a strand in WAIT has noted about its wait (R8): the request of a QOP or SUSPEND and its answer, an NGET or NPUT and its
time-out (R149), a gang request (R145), a lease request (R165), a breakpoint claim (R422), a TLBINV (R366), a bank wake (R346), a
wait for a phase of a barrier's cell and how it has ended, true by the phase's completion (R256) and false by a store to the cell
(R245), a deadline (R348), the stream of a print (R329), the copies whose ranges a local access stalls on (R81), or the seal of a darkroom context,
and whether a level-2 alarm has ended it (R378, R384). -/
inductive Waiting where
  | none
  | answer (entry : Nat) (reply : Option (List Word)) (retryAt : Nat)
  | neighbour (until_ : Nat) (askAt : Nat)
  | gang (n : Nat) (until_ : Nat)
  | lease
  | drain
  | claim (slot : Nat) (answer : Option Bool)
  | inval (lo hi : Nat) (all : Bool) (fin : Bool)
  | gate (until_ : Nat)
  | barrier (cell phase : Nat) (ended : Option Bool)
  | sleep (until_ : Nat)
  | print
  | copy (ops : List Nat)
  | seal (halted : Bool)
  deriving DecidableEq, Repr, Inhabited

/-- A speculative task that a strand runs (R271): its key, its unit, whether a trap waits (R277). -/
structure TaskRef where
  ts : Nat
  id : Nat
  cluster : Nat
  deferred : Option Trap := none
  deriving DecidableEq, Repr, Inhabited

/-- The control registers of a strand (R31). -/
structure Csrs where
  fpctl : Word := 0
  fpflags : Word := 0
  taskid : Word := 0
  jobno : Word := 0
  ngettime : Word := 256
  gangSize : Nat := 0
  gangPos : Nat := 0
  trapvec : Word := 0
  trapinfo : Word := 0
  trappc : Word := 0
  trapcode : Word := 0
  region : Vector Word 16 := Vector.replicate 16 0
  deriving DecidableEq, Repr, Inhabited

/-- The engine shadow registers of a strand (R73, R74, R158, R174, R184, R281, R326). -/
structure Shadow where
  copy : Vector Word 8 := Vector.replicate 8 0
  mx : Vector Word 1 := Vector.replicate 1 0
  idx : Vector Word 12 := Vector.replicate 12 0
  qnt : Vector Word 2 := Vector.replicate 2 0
  att : Vector Word 8 := Vector.replicate 8 0
  tape : Vector Word 1 := Vector.replicate 1 0
  deriving DecidableEq, Repr, Inhabited

/-- A strand (R7, R8, R26). `reads` are the sources of the NGET or NPUT that it waits in, whose ports are popped when that ends (R29, R149). -/
structure Strand where
  g : Vector Word 28 := Vector.replicate 28 0
  p : Vector Bool 8 := Vector.replicate 8 false
  w : Vector Wide 16 := Vector.replicate 16 0
  pc : Nat := 0
  life : Life := .free
  csr : Csrs := {}
  ts : Bool := false
  shadow : Shadow := {}
  q1 : List Word := []
  q2 : List Word := []
  q3 : List Word := []
  q3in : List Word := []
  start : Option Msg := none
  q0 : Nat := 5
  replied : Bool := false
  ops : List Op := []
  issued : Vector Nat 5 := Vector.replicate 5 0
  waiting : Waiting := .none
  claimed : Option (Nat × Nat × Wide) := none
  task : Option TaskRef := none
  det : Detector := {}
  tron : Bool := false
  age : Nat := 0
  dispatched : Nat := 0
  passBp : Bool := false
  stop : Option Trap := none
  soft : Bool := false
  draining : Nat := 0
  reads : List Nat := []
  deriving DecidableEq, Repr, Inhabited

/-- An entry of the reply table (R201, R204): group (0, 1, 2, or 3 for a handler reply), channel, server, target, and whose it is:
strand and operation, or a device requester (strand 16: the NI's run-queue claim of R16). -/
structure ReplyEntry where
  group : Nat
  ch : Nat
  server : Nat
  target : Nat
  strand : Nat
  op : Nat
  deriving DecidableEq, Repr, Inhabited

/-- A message in the outbound buffer (R207, R212), the strand it is of, and the task that holds it back until commit. -/
structure Outgoing where
  msg : Msg
  strand : Nat
  held : Option (Nat × Nat) := none
  deriving DecidableEq, Repr, Inhabited

/-- An allocation of the porch ring (R215): first offset in the ring, length, the message's strand, and whether it is free. -/
structure PorchAlloc where
  off : Nat
  len : Nat
  key : Nat
  free : Bool := false
  deriving DecidableEq, Repr, Inhabited

/-- A breakpoint slot (R421). -/
structure BpSlot where
  pc : Nat := 0
  once : Bool := false
  any : Bool := false
  armed : Bool := false
  task : Nat := 0
  hits : Nat := 0
  deriving DecidableEq, Repr, Inhabited

/-- An entry of the range scoreboard (R81): strand, operation, first and last offset, whether the range is a destination. -/
structure RangeEntry where
  strand : Nat
  op : Nat
  lo : Nat
  hi : Nat
  write : Bool
  deriving DecidableEq, Repr, Inhabited

/-- A cached leaf translation (R355, R358): context (GID), page base and size, doublewords 0 and 1, and the PLACE of its pointer. -/
structure TlbEntry where
  gid : Nat
  base : Nat
  size : Nat
  dw0 : Nat
  dw1 : Nat
  place : Nat
  deriving DecidableEq, Repr, Inhabited

/-- A cached pointer entry (R355, R357): context (GID), the range it covers, and the table it points to: level, module, address and PLACE. -/
structure PtrEntry where
  gid : Nat
  base : Nat
  size : Nat
  level : Nat
  module : Nat
  next : Nat
  place : Nat
  deriving DecidableEq, Repr, Inhabited

/-- An entry of the sender table (R412). -/
structure SenderEntry where
  src : Nat := 0
  valid : Bool := false
  count : Nat := 0
  transit : Nat := 0
  cellarn : Nat := 0
  wait : Nat := 0
  run : Nat := 0
  deriving DecidableEq, Repr, Inhabited

/-- A writer tag of the race detector (R227). -/
structure RaceTag where
  writer : Nat
  rc : Nat
  stamp : Option (Nat × Nat)
  deriving DecidableEq, Repr, Inhabited

/-- An entry of a stream (R332): its type, strand, argument, captured FPCTL bits, word and value. -/
structure TapeEntry where
  kind : Nat := 0
  strand : Nat := 0
  arg : Nat := 0
  fpc : Nat := 0
  word : Nat := 0
  value : Word := 0
  deriving DecidableEq, Repr, Inhabited

/-- A slot declaration of a recording core (R331): field, register index, slot, entry index, recorded value. -/
structure TapeDecl where
  field : Nat := 0
  reg : Nat := 0
  slot : Nat := 0
  entry : Nat := 0
  value : Word := 0
  deriving DecidableEq, Repr, Inhabited

/-- A value guard of a recording core (R328): doubleword address, value, entry index. -/
structure TapeGuard where
  addr : Nat := 0
  value : Word := 0
  entry : Nat := 0
  deriving DecidableEq, Repr, Inhabited

/-- What a core has recorded (R325 to R328), and its part in a print (R335): the print's id, the next entry, the driver strand, the
register that takes the status, and whether the stream has ended. `tpend` are the slots declared for a strand's next command, `prev` the
register values that the engines' last commands consumed. -/
structure TapeUse where
  recording : Option Nat := none
  entries : List TapeEntry := []
  decls : List TapeDecl := []
  guards : List TapeGuard := []
  pages : List (Nat × Nat) := []
  tpend : List (Nat × Nat × Nat × Nat) := []
  prev : List ((Nat × Nat × Nat) × Word) := []
  gates : Nat := 0
  side : Bool := false
  print : Option Nat := none
  pos : Nat := 0
  driver : Nat := 0
  dest : Nat := 0
  seen : Nat := 0
  fin : Bool := false
  deriving DecidableEq, Repr, Inhabited

/-- The NI of a core (R7, R197 to R215, R306 to R309, R397). `unstarted` says that the crew's start message has not been dispatched
(R306), `claiming` is the run-queue claim that is outstanding, its register and handle (R16), `cellarWp` the cellar slot taken next (R308). -/
structure Ni where
  hpq : List Msg := []
  lpq : List Msg := []
  cellar : List Msg := []
  startSlot : Option Msg := none
  cellarWasFull : Bool := false
  reply : List ReplyEntry := []
  outb : List Outgoing := []
  porchWp : Nat := 0
  porch : List PorchAlloc := []
  inseq : Nat := 0
  infrz : Bool := false
  pollAt : Nat := 0
  unstarted : Bool := false
  claiming : Option (Nat × Nat) := none
  cellarWp : Nat := 0
  deriving DecidableEq, Repr, Inhabited

/-- An entry of a cluster's range-lock table (R235): issuer, operation, and its bounding read and write ranges. A side of key
2^60 + core coordinate is a scratchpad, any other the memory of the context with that GID. `va` are the virtual addresses that they stand for (R242). -/
structure LockEntry where
  issuer : Nat
  op : Nat
  rd : List (Nat × Nat × Nat)
  wr : List (Nat × Nat × Nat)
  va : List (Nat × Nat × Nat) := []
  deriving DecidableEq, Repr, Inhabited

/-- A command in an array queue (R166 to R170); once it executes, `out` holds the rows it will write. -/
structure MxCmd where
  id : Nat := 0
  core : Nat
  strand : Nat
  pc : Nat
  word : Nat
  acc : Nat
  ta : Nat
  tb : Nat
  zero : Bool
  kind : Nat
  fpctl : Nat
  reg : Word
  tgeomA : Word
  tgeomB : Word
  ageom : Word
  executing : Bool := false
  status : Option Trap := none
  flags : Nat := 0
  out : List Byte := []
  deriving DecidableEq, Repr, Inhabited

/-- A core (R7). `crew` is the id of the crew placed on it (R13), `parking` says that its pre-empt message has come (R322). What an image keeps of
units outside the core: `savedMx` its queued array commands, `savedLocks` its range locks, `leaseRec` the strand that held the lease, `savedWays` the
cache ways it gated (R322, R323, R347). `dirty` are the lines and records written since it last ran from an image (R407), `applied` the drains that
have ended, by strand and context, and whose GST has not been told (R397). `icache` is the words of mapped code fetched since the last TLBINV of
their page (R241). -/
structure Core where
  x : Nat
  y : Nat
  strands : Vector Strand 16 := Vector.replicate 16 {}
  last : Nat := 15
  scratch : Mem := []
  tags : List (Nat × RaceTag) := []
  istore : Mem := []
  tiles : Mem := []
  tgeom : Vector Word 8 := Vector.replicate 8 0
  ageom : Vector Word 4 := Vector.replicate 4 0
  poison : List (Nat × Trap) := []
  bad : List Nat := []
  badCode : List Nat := []
  lpqdepth : Word := 4
  porchcfg : Word := BitVec.ofNat 64 (992 + 32 * 1024)
  cellarcfg : Word := 0
  runq0 : Word := 0
  runq1 : Word := 0
  ni : Ni := {}
  ranges : List RangeEntry := []
  crew : Option Nat := none
  racy : Bool := false
  ctlStatus : Nat := 0
  gate : Nat := 0
  waking : List (Nat × Nat) := []
  senderEn : Bool := false
  sender : List SenderEntry := []
  tape : TapeUse := {}
  fenced : Bool := false
  parking : Bool := false
  savedMx : List MxCmd := []
  savedLocks : List LockEntry := []
  leaseRec : Option Nat := none
  savedWays : List Nat := []
  dirty : List Nat := []
  applied : List (Nat × Nat) := []
  itlb : List TlbEntry := []
  dtlb : List TlbEntry := []
  icache : List (Nat × Nat) := []
  deriving DecidableEq, Repr, Inhabited

/-- The untouched core at a coordinate. Its tiles are zero bytes (R153), the POS fields of R97 among them, whose table gives 0xFFFF: log entry 3. -/
def Core.fresh (x y : Nat) : Core := { x := x, y := y }

/-- A request at an array agent or a copy agent (R83, R179). -/
structure AgentReq where
  msg : Msg
  stage : Nat := 0
  op : Op := {}
  reply : Option (List Word) := none
  deriving DecidableEq, Repr, Inhabited

/-- The state of a task in its unit (R267 to R274). -/
inductive TaskLife where
  | ready | running | finished
  deriving DecidableEq, Repr, Inhabited

/-- A task held in a slot, or in an entry of the spill ring (R270): `spawner` is the task that spawned it, `parent` the same as long as that
one is uncommitted (R273). -/
structure TaskRec where
  ts : Nat
  id : Nat
  handler : Nat
  args : List Word
  parent : Option Nat
  spawner : Option Nat := parent
  life : TaskLife := .ready
  spill : Option Nat := none
  core : Nat := 0
  strand : Nat := 0
  deps : List Nat := []
  deriving DecidableEq, Repr, Inhabited

/-- A task unit (R266). -/
structure TaskUnit where
  en : Bool := false
  job : Nat := 0
  spill : Word := 0
  splog : Nat := 0
  fbase : Nat := 0
  fsize : Nat := 0
  cts : Nat := 0
  cid : Nat := 0
  counter : Nat := 0
  tasks : List TaskRec := []
  gid : Nat := 0
  deriving DecidableEq, Repr, Inhabited

/-- The lease of a matrix array (R164, R165). Holders: a core index 0 to 15, or 16 for the agent. DESIGN CHOICE (log entry 66): `last` starts at
15, so that where no one has held the lease yet the agent comes first. -/
structure Lease where
  holder : Option Nat := none
  strand : Nat := 0
  steps : Nat := 0
  since : Nat := 0
  last : Nat := 15
  want : List Nat := []
  ended : Bool := false
  deriving DecidableEq, Repr, Inhabited

/-- The engines of a cluster (R20, R21). `ways` are the gated ways of its cache slice, each with the core that gated it (R345),
`badWays` the fenced ones (R410). The key is module·144 + die·36 + cluster. -/
structure Cluster where
  key : Nat
  lease : Lease := {}
  mxq : List MxCmd := []
  done : List MxCmd := []
  agent : List AgentReq := []
  guest : Mem := []
  copyAgent : List AgentReq := []
  locks : List LockEntry := []
  task : TaskUnit := {}
  tlb2 : List TlbEntry := []
  ptrs : List PtrEntry := []
  ways : List (Nat × Nat) := []
  badWays : List Nat := []
  deriving DecidableEq, Repr, Inhabited

/-- A queue descriptor (R259). -/
structure QDesc where
  idx : Nat
  valid : Bool := false
  frozen : Bool := false
  owner : Nat := 0
  gen : Nat := 0
  log2cap : Nat := 0
  launch : Bool := false
  prio : Nat := 0
  ring : Nat := 0
  head : Nat := 0
  resv : Nat := 0
  pub : Nat := 0
  pend : Nat := 0
  rels : List (Nat × (Nat × Nat)) := []
  bad : Bool := false
  deriving DecidableEq, Repr, Inhabited

/-- A subscription at a page distributor (R284, R285): its descriptor, the list indices it references and, of these, the pages whose
delivery to it has begun, is complete, has been put, has been merged; the buffers in use with their page; the puts held and the pool slots reserved
for pages (R290, R292); the merge state M, L, O and its flags (R291). It is not `live` once AUNSUB has ended it; a held
one joins only a pass whose `opened` is not below `since`. -/
structure Sub where
  slot : Nat
  core : Nat
  gid : Nat
  job : Nat
  layer : Nat
  nbuf : Nat
  land : Nat
  handler : Nat
  user : Word
  desc : Nat
  refs : List Nat := []
  begun : List Nat := []
  got : List Nat := []
  puts : List Nat := []
  merged : List Nat := []
  bufs : List (Nat × Nat) := []
  waiting : List (Nat × List Nat) := []
  reserved : List Nat := []
  acc : Option (List Nat) := none
  flags : Nat := 0
  live : Bool := true
  since : Nat := 0
  bad : Bool := false
  deriving DecidableEq, Repr, Inhabited

/-- A page being delivered (R287): its list index, the page's bytes once read, or the status of a failed read, and the slots and buffers that it
has still to reach. -/
structure Delivery where
  idx : Nat
  read : Bool := false
  status : Nat := 0
  data : List Byte := []
  left : List (Nat × Nat) := []
  deriving DecidableEq, Repr, Inhabited

/-- A pass of a page distributor (R280, R283, R285, R287): its number and generation; its owner; its layer, page list, page store and rectangle;
its pool; how many subscriptions start it, how many have joined, its deadline; the place of its opening among all; the next index to deliver. -/
structure Pass where
  slot : Nat
  gen : Nat := 0
  isOpen : Bool := false
  started : Bool := false
  closing : Bool := false
  gid : Nat := 0
  job : Nat := 0
  layer : Nat := 0
  pages : List Nat := []
  base : Word := 0
  rect : Nat := 0
  pool : Nat := 0
  count : Nat := 0
  expect : Nat := 0
  joined : Nat := 0
  deadline : Option Nat := none
  opened : Nat := 0
  next : Nat := 0
  subs : List Sub := []
  deliver : List Delivery := []
  deriving DecidableEq, Repr, Inhabited

/-- A trace session block (R414), the records formed that wait for a page of the ring (context, address, bytes), and whether it closes once they
are written (R414, R417). -/
structure Session where
  en : Bool := false
  state : Nat := 0
  ctx : Nat := 0
  gid : Nat := 0
  job : Nat := 0
  queue : Nat := 0
  ring : Nat := 0
  rlog : Nat := 0
  tfilt : Nat := 0
  tasken : Bool := false
  tmask : Nat := 0
  seq : Nat := 0
  pending : List (Nat × Nat × List Byte) := []
  closing : Bool := false
  deriving DecidableEq, Repr, Inhabited

/-- A monitor block (R419). -/
structure Monitor where
  en : Bool := false
  rel : Nat := 0
  act : Nat := 0
  sess : Nat := 0
  qa : Nat := 0
  qb : Nat := 0
  opa : Word := 0
  opb : Word := 0
  fired : Nat := 0
  last : Nat := 0
  prev : Option Bool := none
  deriving DecidableEq, Repr, Inhabited

/-- A context-table entry (R373): the eight doublewords, the halt of an alarm; of a darkroom context the key held for it, the private and the
public key of its seal and its owner's public key (R377 to R379), the nonces of the last import and export, its measurement; its TIME and ENERGY. -/
structure Ctx where
  num : Nat
  dws : List Word := []
  halted : Bool := false
  key : Option (BitVec 512) := none
  secret : Option (BitVec 384) := none
  qc : BitVec 776 := 0
  owner : Option (BitVec 776) := none
  imports : Nat := 0
  exports : Nat := 0
  measure : Nat := 0
  strandTime : Nat := 0
  energy : Nat := 0
  deriving DecidableEq, Repr, Inhabited

/-- An entry of the step log (R343). -/
structure Step where
  tstop : Nat := 0
  tstart : Nat := 0
  cstep : Nat := 0
  fold : Nat := 18
  fnew : Nat := 18
  deriving DecidableEq, Repr, Inhabited

/-- A negative that is being recorded (R325, R327): its number, context, crew, job, the die that will hold it, its directory entry there, the
cores still recording, what each core that has ended recorded, why it is already invalid (R328, R331, R333). -/
structure Recording where
  num : Nat
  gid : Nat
  crew : Nat
  job : Nat
  die : Nat
  ctx : Nat
  entry : Option Nat
  live : List Nat := []
  done : List (Nat × TapeUse) := []
  reason : Nat := 0
  hit : Option Nat := none
  deriving DecidableEq, Repr, Inhabited

/-- A print of a negative (R335 to R337): its crew, tape number, die and directory entry, patch words, whether a launch began it, how it
failed, its cores and those whose streams have ended. -/
structure Print where
  id : Nat
  crew : Nat
  num : Nat
  die : Nat
  entry : Nat
  patch : List Word := []
  launch : Bool := false
  failed : Option Trap := none
  cores : List Nat := []
  ended : List Nat := []
  deriving DecidableEq, Repr, Inhabited

/-- The units of a die (R21, R259, R320, R340, R372, R396, R414, R419, R426). The key is module·4 + die. -/
structure Die where
  key : Nat
  steps : List Step := [{}]
  ftarget : Nat := 18
  relock : Option Step := none
  queued : List Nat := []
  ctxs : List Ctx := []
  queues : List QDesc := []
  routes : List (Nat × Nat) := []
  faultBuf : List (List Word) := []
  lost : Nat := 0
  watchdog : List (Nat × Word) := []
  passes : List Pass := []
  held : List (Sub × Nat) := []
  tapeMem : Mem := []
  sessions : Vector Session 16 := Vector.replicate 16 {}
  monitors : Vector Monitor 32 := Vector.replicate 32 {}
  sampleAt : Nat := 0
  plimit : Nat := 2400
  ptpoff : Word := 0
  tier : List (Nat × List Word) := []
  qtbase : Word := 0
  hdmbase : Word := 0
  hostCtx : Word := 0
  alarmRegs : List (Nat × Word) := []
  alarmLog : List Word := []
  alarm : Nat := 0
  summary : List (Nat × (Nat × Nat × Nat)) := []
  guardHit : List (Nat × Nat) := []
  fencedUnits : List Word := []
  corrected : Nat := 0
  ageing : List Word := []
  firmware : Word := 0
  throttled : Nat := 0
  deriving DecidableEq, Repr, Inhabited

/-- A stream of an Ethernet port in ST 2110 receive mode (R431 to R433). -/
structure Stream where
  port : Nat
  idx : Nat
  dws : List Word := []
  live : Bool := false
  frame : Nat := 0
  frames : Nat := 0
  first : Nat := 0
  firstSn : Nat := 0
  highest : Nat := 0
  lost : Nat := 0
  seen : List Nat := []
  group : Nat := 0
  groupLine : Nat := 0
  groupTime : Nat := 0
  groupAt : Nat := 0
  next : Nat := 0
  ended : Option Nat := none
  deriving DecidableEq, Repr, Inhabited

/-- A module (R5): firmware and mailbox (R381, R429), the modes, stream tables and drop counters of its Ethernet ports (R430, R431, R433), its launch
unit's turn (R313), when its next step under the power
limit may come (R427). -/
structure Module where
  key : Nat
  fw : Bool := false
  log : Nat := 0
  keyErased : Bool := false
  mbarg : Word := 0
  mbstat : Nat := 0
  mbdata : List Word := []
  timeset : Bool := false
  turn : List (Nat × Nat) := []
  ports : List (Nat × Bool) := []
  streams : List Stream := []
  drops : List (Nat × Nat) := []
  failed : Bool := false
  quote : List Byte := []
  powerAt : Nat := 0
  deriving DecidableEq, Repr, Inhabited

/-- A job (R17, R312 to R317): `owed` counts the completed crews not yet counted at DONE, `result` is the status, the sub-reason and the
time of its end, as long as they are not posted there (R317). While it is being killed (R399) `dying` is the sub-reason of its crews' records, the
status and the sub-status of its end, and `dead` names its released crews by the coordinate of their first core, with their discarded messages. -/
structure Job where
  id : Nat
  num : Nat
  gid : Nat
  die : Nat
  ctx : Nat
  queue : Nat
  ticket : Nat
  record : List Word
  placed : Nat := 0
  completed : Nat := 0
  started : Option Nat := none
  ended : Bool := false
  owed : Nat := 0
  result : Option (Nat × Nat × Nat) := none
  dying : Option (Nat × Nat × Nat) := none
  dead : List (Nat × Nat) := []
  bps : Vector BpSlot 8 := Vector.replicate 8 {}
  deriving DecidableEq, Repr, Inhabited

/-- The life of a crew (R321, R322). -/
inductive CrewLife where
  | running | preempting | parked | killed
  deriving DecidableEq, Repr, Inhabited

/-- A crew (R17, R314, R401): its gateways, default FPCTL, cellars (base and size) and image area in the pool, the time it started or
resumed, was asked to park, or was killed, how many messages its kill discarded (R399), and the cores that are parked; `touched` are those of them, and
2^24 for the crew header, whose image is to be written again. -/
structure Crew where
  id : Nat
  job : Nat
  idx : Nat
  x0 : Nat
  y0 : Nat
  x1 : Nat
  y1 : Nat
  gates : List (Nat × Nat × Nat) := []
  fpctl : Nat := 0
  mapped : Bool := false
  life : CrewLife := .running
  cellars : List (Nat × Nat) := []
  image : Option Nat := none
  seq : Nat := 0
  tpark : Nat := 0
  valid : Bool := false
  hold : Bool := false
  since : Nat := 0
  asked : Option Nat := none
  killed : Nat := 0
  discarded : Nat := 0
  parkedCores : List Core := []
  touched : List Nat := []
  replies : List Msg := []
  deriving DecidableEq, Repr, Inhabited

/-- A launch record that waits for a rectangle of w × h cores (R316): its queue and ticket, its target once it is aged, the crew to place next and
its job. -/
structure Waiter where
  die : Nat
  queue : Nat
  ticket : Nat := 0
  since : Nat
  aged : Bool := false
  target : Option (Nat × Nat) := none
  crew : Nat := 0
  job : Option Nat := none
  w : Nat := 1
  h : Nat := 1
  deriving DecidableEq, Repr, Inhabited

/-- A speculative version of a doubleword, or a reader of a line (R272): `addr` is the key of the doubleword or line at its home, `task` the
task's key, `mask` the bytes it has written, `gid` and `va` its address, `bank` the cluster of its home bank, `leaf` the leaf through which it was
written. -/
structure Version where
  addr : Nat
  task : Nat × Nat
  job : Nat
  value : Word := 0
  mask : Nat := 255
  gid : Nat := 0
  va : Nat := 0
  bank : Nat := 0
  leaf : Option TlbEntry := none
  deriving DecidableEq, Repr, Inhabited

/-- A page that a tier engine moves (R365): its context, address and size, the key of its leaf's entry, the tiers, the old frame, the leaf's
doublewords from before the move, the module, and the die whose engine moves it. -/
structure PageMove where
  gid : Nat
  va : Nat
  size : Nat
  entry : Nat
  fromTier : Nat
  toTier : Nat
  oldFrame : Nat
  dw0 : Nat
  dw1 : Nat
  module : Nat
  die : Nat
  deriving DecidableEq, Repr, Inhabited

/-- The acknowledgments of a kind-1 SENDM that the routers combine (R210): how many copies are left, the first failure in the order y,
then x, with its place, and the request's header and GID. -/
structure Ack where
  id : Nat
  left : Nat
  worst : Option (Nat × Word × Word × Word) := none
  h0 : Word
  h1 : Word
  rect : Nat
  gid : Nat
  deriving DecidableEq, Repr, Inhabited

/-- A stretch of memory that stands encrypted (R377), from one key of memory up to another, under a context's key: the context's GID, and the virtual
address of its first byte, none for a page table. The memory holds its plain bytes, which only that context reads. -/
structure Sealed where
  lo : Nat
  hi : Nat
  key : BitVec 512
  gid : Nat
  va : Option Nat
  deriving DecidableEq, Repr, Inhabited

/-- The PLACE in effect for a stretch of a context's addresses, until a TLBINV covers it (R361). -/
structure Placed where
  gid : Nat
  lo : Nat
  hi : Nat
  place : Nat
  deriving DecidableEq, Repr, Inhabited

/-- What the outside has asked for and waits for a page or for an earlier such access (R364, R379, R424, R425): a CXL.mem write or read, a doorbell
write, an import or an export at the mailbox of module m, a packet of a stream. -/
inductive HostReq where
  | write (addr : Nat) (data : List Nat)
  | read (addr n : Nat)
  | doorbell (d q ticket : Nat)
  | importBlob (m gid va len : Nat) (blob : List Nat)
  | exportBlob (m gid va len out : Nat)
  | packet (port stream sn stamp marker place : Nat) (data : List Nat)
  deriving DecidableEq, Repr

/-- What the system holds beyond its cores, clusters and dies. `hostData` are the completions of the host's reads, by address, none for an unsuccessful
one (R424); `sealed` what stands encrypted (R377); `placed` the PLACE in effect (R361); `wanted` the promotions asked for by walks (R364);
`keeps` when each port has last sent a keep-alive flit (R430). -/
structure Sys where
  mx : Nat := 1
  my : Nat := 1
  now : Nat := 0
  mem : Mem := []
  tags : List (Nat × RaceTag) := []
  cellRel : List (Nat × (Nat × Nat)) := []
  poisonLines : List Nat := []
  syncPages : List (Nat × Nat × Nat) := []
  held : List HostReq := []
  hostData : List (Nat × Option (List Byte)) := []
  sealed : List Sealed := []
  placed : List Placed := []
  wanted : List TlbEntry := []
  versions : List Version := []
  readers : List Version := []
  gvts : List (Nat × Nat) := []
  flight : List Msg := []
  acks : List Ack := []
  jobs : List Job := []
  crews : List Crew := []
  nextId : Nat := 0
  waiters : List Waiter := []
  moves : List PageMove := []
  recordings : List Recording := []
  prints : List Print := []
  fencedLinks : List Nat := []
  gvtAt : Nat := 2000
  keepAt : Nat := 100000
  keeps : List (Nat × Nat) := []
  flitAt : Nat := 100000
  deriving DecidableEq, Repr, Inhabited

/-- The state of the machine. `ir` is the instruction word the current step runs (R41 reports it); `inputs` what the outside world does
next (log entry 6); `draw` the counter of free values (log entry 1). -/
structure State where
  core : Core
  k : Nat
  others : List Core
  clusters : List Cluster
  dies : List Die
  modules : List Module
  sys : Sys
  inputs : List Instr
  draw : Nat
  ir : Nat
  deriving DecidableEq, Repr

/-- Why a step can stop as a fault: never. Every fault of this hardware is a trap, a fault record, a completion status or a
fence, which are next states; a device held in reset idles (R381). So the type has no constructor, and no step can end here. -/
inductive Fault where
  deriving DecidableEq, Repr

/-- Why a step can stop as a refusal. -/
inductive Refusal where
  /-- An instruction of the opcode table that has no meaning yet (the dispatcher alone raises it). Safe. -/
  | notModelled (mnemonic : String)
  deriving DecidableEq, Repr

/-- The machine right after device reset. Every register the specification gives no reset value for is at the value INVENTORY.md
and log entry 2 name. The focus is core (0, 0), strand 0 (log entry 5). -/
def State.reset : State where
  core := Core.fresh 0 0
  k := 0
  others := []
  clusters := []
  dies := []
  modules := []
  sys := {}
  inputs := []
  draw := 0
  ir := 0

end Sys2Proof.Machine
end

