-- ==== Sys2Proof/Machine/Base.lean ====
section
/-! DEFINITION. Bit fields, sign extension, byte lists, sparse memories, keyed lists, coordinates, and the accessors of State: the
focused core and strand, registers, clusters, dies, modules, crews and jobs. -/

namespace Sys2Proof.Machine

/-! ## Bits (R2) -/

/-- Bits hi:lo of a number. -/
def bits (v hi lo : Nat) : Nat := v / 2 ^ lo % 2 ^ (hi + 1 - lo)

/-- Bit i of a number. -/
def bit (v i : Nat) : Bool := v / 2 ^ i % 2 == 1

/-- The signed value of the low n bits of a number. -/
def sext (n v : Nat) : Int :=
  if v % 2 ^ n < 2 ^ (n - 1) then (v % 2 ^ n : Nat) else (v % 2 ^ n : Nat) - (2 ^ n : Nat)

/-- The n-bit two's-complement pattern of an integer. -/
def wrap (n : Nat) (v : Int) : Nat := (v % (2 ^ n : Nat)).toNat

/-- A doubleword from a number. -/
def word (v : Nat) : Word := BitVec.ofNat 64 v

/-- A doubleword from an integer, in two's complement. -/
def wordI (v : Int) : Word := BitVec.ofInt 64 v

/-- 1 for true, 0 for false. -/
def num (b : Bool) : Nat := if b then 1 else 0

/-- A list of doublewords as one number, the first lowest. -/
def ofWords : List Word → Nat
  | [] => 0
  | w :: ws => w.toNat + 2 ^ 64 * ofWords ws

/-- n doublewords of a number, the lowest first. -/
def toWords : Nat → Nat → List Word
  | 0, _ => []
  | n + 1, v => word v :: toWords n (v / 2 ^ 64)

/-- n pieces of w bits of a number, the lowest first. -/
def lanes (w : Nat) : Nat → Nat → List Nat
  | 0, _ => []
  | n + 1, v => v % 2 ^ w :: lanes w n (v / 2 ^ w)

/-- Pieces of w bits joined, the first lowest. -/
def ofLanes (w : Nat) : List Nat → Nat
  | [] => 0
  | l :: ls => l % 2 ^ w + 2 ^ w * ofLanes w ls

/-! ## Vectors and keyed lists -/

/-- Element i of a vector, or the default outside it. -/
def vget {α : Type} {n : Nat} (v : Vector α n) (i : Nat) (dflt : α) : α := v.toList.getD i dflt

/-- A vector with element i replaced. -/
def vset {α : Type} {n : Nat} (v : Vector α n) (i : Nat) (x : α) : Vector α n := v.setIfInBounds i x

/-- The first element with a key. -/
def findKey {α : Type} (key : α → Nat) (l : List α) (n : Nat) : Option α := l.find? fun x => key x == n

/-- The list with the element of its key replaced, or added at the end. -/
def putKey {α : Type} (key : α → Nat) (x : α) : List α → List α
  | [] => [x]
  | y :: ys => if key y == key x then x :: ys else y :: putKey key x ys

/-- The list without the elements of a key. -/
def dropKey {α : Type} (key : α → Nat) (n : Nat) (l : List α) : List α := l.filter fun x => !(key x == n)

/-! ## Sparse bytes (R2, log entry 3) -/

/-- The byte at an address: the listed one, or 0. -/
def Mem.rd : Mem → Nat → Byte
  | [], _ => 0
  | (a, b) :: m, x => if a = x then b else Mem.rd m x

/-- The cells of a list of bytes laid from an address upward, zero bytes left out. -/
def cellsOf : Nat → List Byte → Mem
  | _, [] => []
  | a, b :: bs => if b = 0 then cellsOf (a + 1) bs else (a, b) :: cellsOf (a + 1) bs

/-- A memory with bytes written from an address upward. -/
def Mem.put (m : Mem) (lo : Nat) (bs : List Byte) : Mem :=
  m.filter (fun c => c.1 < lo) ++ cellsOf lo bs ++ m.filter (fun c => lo + bs.length ≤ c.1)

/-- The bytes of a memory from an address upward. -/
def Mem.get (m : Mem) (lo n : Nat) : List Byte :=
  let r := m.filter fun c => lo ≤ c.1 && c.1 < lo + n
  (List.range n).map fun i => Mem.rd r (lo + i)

/-- A little-endian value of n bytes. -/
def Mem.rdN (m : Mem) (a n : Nat) : Nat := wordOfBytes (m.get a n)

/-- A memory with a little-endian value of n bytes written. -/
def Mem.wrN (m : Mem) (a n v : Nat) : Mem := m.put a (bytesOfWord n v)

/-- The canonical form: addresses strictly rising, no zero byte. -/
def Mem.wf : Mem → Bool
  | [] => true
  | [(_, b)] => b != 0
  | (a, b) :: (a', b') :: m => b != 0 && a < a' && Mem.wf ((a', b') :: m)

/-! ## Coordinates (R5, R6, R123) -/

/-- A packed coordinate. -/
def pack (x y : Nat) : Nat := x % 4096 + y % 4096 * 4096
def unpackX (c : Nat) : Nat := c % 4096
def unpackY (c : Nat) : Nat := c / 4096 % 4096

/-- The packed coordinate of a core. -/
def Core.coord (c : Core) : Nat := pack c.x c.y

/-- Whether a packed coordinate names a core of the system (R5). -/
def State.inMesh (s : State) (c : Nat) : Bool := unpackX c < 48 * s.sys.mx && unpackY c < 48 * s.sys.my

/-- The number of the module of a coordinate, row-major in the mesh. -/
def State.moduleOf (s : State) (c : Nat) : Nat := unpackX c / 48 + unpackY c / 48 * s.sys.mx

/-- The die within the module of a coordinate (R6). -/
def dieOf (c : Nat) : Nat := unpackX c % 48 / 24 + 2 * (unpackY c % 48 / 24)

/-- The cluster within the die (R6). -/
def clusterOf (c : Nat) : Nat := unpackX c % 24 / 4 + 6 * (unpackY c % 24 / 4)

/-- The core within the cluster (R6). -/
def coreInCluster (c : Nat) : Nat := unpackX c % 4 + 4 * (unpackY c % 4)

/-- The key of the die of a coordinate. -/
def State.dieKey (s : State) (c : Nat) : Nat := s.moduleOf c * 4 + dieOf c

/-- The key of the cluster of a coordinate. -/
def State.clusterKey (s : State) (c : Nat) : Nat := s.dieKey c * 36 + clusterOf c

/-- The coordinate of die-local (0, 0) of a die key. -/
def State.dieCorner (s : State) (d : Nat) : Nat :=
  let m := d / 4
  pack (m % s.sys.mx * 48 + d % 4 % 2 * 24) (m / s.sys.mx * 48 + d % 4 / 2 * 24)

/-- The coordinate of core index i of a cluster key. -/
def State.clusterCore (s : State) (cl i : Nat) : Nat :=
  let o := s.dieCorner (cl / 36)
  pack (unpackX o + cl % 36 % 6 * 4 + i % 4) (unpackY o + cl % 36 / 6 * 4 + i / 4)

/-- The module number of a module field, mx in bits 6:0 and my in 13:7 (R357), or none when it names no module. -/
def State.moduleField (s : State) (f : Nat) : Option Nat :=
  if f % 128 < s.sys.mx && f / 128 % 128 < s.sys.my then some (f % 128 + f / 128 % 128 * s.sys.mx) else none

/-- Whether a coordinate lies in a scope rectangle (R232). -/
def inRect (c x0 y0 x1 y1 : Nat) : Bool :=
  x0 ≤ unpackX c && unpackX c ≤ x1 && y0 ≤ unpackY c && unpackY c ≤ y1

/-- Whether a coordinate lies in the rectangle of a scope value (R232). -/
def inScopeRect (scope c : Nat) : Bool :=
  inRect c (bits scope 11 0) (bits scope 23 12) (bits scope 35 24) (bits scope 47 36)

/-- The scope layout of a rectangle (R232). -/
def rectWord (x0 y0 x1 y1 : Nat) : Nat := x0 + y0 * 2 ^ 12 + x1 * 2 ^ 24 + y1 * 2 ^ 36

/-! ## The focus (log entry 5) -/

/-- The focused strand. -/
def State.st (s : State) : Strand := vget s.core.strands s.k {}

/-- The focused core changed. -/
def State.modCore (s : State) (f : Core → Core) : State := { s with core := f s.core }

/-- The focused strand replaced. -/
def State.setSt (s : State) (t : Strand) : State :=
  { s with core := { s.core with strands := vset s.core.strands s.k t } }

/-- The focused strand changed. -/
def State.modSt (s : State) (f : Strand → Strand) : State := s.setSt (f s.st)

/-- The focused core's NI changed. -/
def State.modNi (s : State) (f : Ni → Ni) : State := { s with core := { s.core with ni := f s.core.ni } }

/-- The system part changed. -/
def State.modSys (s : State) (f : Sys → Sys) : State := { s with sys := f s.sys }

/-- The packed coordinate of the focused core. -/
def State.here (s : State) : Nat := s.core.coord

/-- The core at a coordinate. -/
def State.coreAt (s : State) (c : Nat) : Core :=
  if s.here = c then s.core else (findKey Core.coord s.others c).getD (Core.fresh (unpackX c) (unpackY c))

/-- The state with the focus moved to a core and a strand. -/
def State.focus (s : State) (c k : Nat) : State :=
  if s.here = c then { s with k := k }
  else { s with core := s.coreAt c, k := k, others := s.core :: dropKey Core.coord c s.others }

/-- The state with something done at another core, the focus then returned. -/
def State.atCore (s : State) (c k : Nat) (f : State → State) : State := (f (s.focus c k)).focus s.here s.k

/-- Every core ever touched. -/
def State.cores (s : State) : List Core := s.core :: s.others

/-- The first byte of a doubleword with an uncorrectable error (R410) that an access of n scratchpad bytes meets: a write that covers all of a
doubleword does not (log entry 27). -/
def Core.softAt (c : Core) (off n : Nat) (wr : Bool) : Option Nat :=
  (c.bad.find? fun d => d * 8 < off + n && off < d * 8 + 8 && !(wr && off ≤ d * 8 && d * 8 + 8 ≤ off + n)).map (· * 8)

/-- The dirty bits of a core (R407) after n bytes are written at an offset of a part whose first line has the number `base`: scratchpad lines from 0,
tile lines from 1,024, strand records from 1,216. -/
def dirtied (d : List Nat) (base off n : Nat) : List Nat :=
  if n = 0 then d
  else (((List.range ((off + n - 1) / 256 + 1 - off / 256)).map fun i => base + off / 256 + i).filter fun l => !d.contains l) ++ d

/-- Bytes written to a scratchpad: a doubleword written whole holds no error any more (R410, log entry 27), and the lines are dirty (R407). -/
def Core.store (c : Core) (off : Nat) (bs : List Byte) : Core :=
  { c with scratch := c.scratch.put off bs, bad := c.bad.filter fun d => !(off ≤ d * 8 && d * 8 + 8 ≤ off + bs.length)
           dirty := dirtied c.dirty 0 off bs.length }

/-- The identity of a strand: packed coordinate and strand number (R227). -/
def State.me (s : State) : Nat := s.here + s.k * 2 ^ 24

/-! ## Registers (R26, R27) -/

/-- General register i: g0 reads zero (R27). -/
def State.g (s : State) (i : Nat) : Word := if i = 0 then 0 else vget s.st.g i 0

/-- A write to general register i: a write to g0 is discarded (R27). -/
def State.setG (s : State) (i : Nat) (v : Word) : State :=
  if i = 0 then s else s.modSt fun t => { t with g := vset t.g i v }

/-- Predicate i: p0 reads true (R27). A predicate field's low three bits name it (R28). -/
def State.p (s : State) (i : Nat) : Bool := if i % 8 = 0 then true else vget s.st.p (i % 8) false

/-- A write to predicate i: a write to p0 is discarded (R27). -/
def State.setP (s : State) (i : Nat) (v : Bool) : State :=
  if i % 8 = 0 then s else s.modSt fun t => { t with p := vset t.p (i % 8) v }

/-- Wide register i. -/
def State.w (s : State) (i : Nat) : Wide := vget s.st.w i 0

/-- A write to wide register i. -/
def State.setW (s : State) (i : Nat) (v : Wide) : State := s.modSt fun t => { t with w := vset t.w i v }

/-- The control registers of the focused strand changed. -/
def State.modCsr (s : State) (f : Csrs → Csrs) : State := s.modSt fun t => { t with csr := f t.csr }

/-- Flags ORed into FPFLAGS (R105, R106). -/
def State.orFlags (s : State) (fl : Nat) : State :=
  if fl = 0 then s else s.modCsr fun c => { c with fpflags := c.fpflags ||| word fl }

/-- FPCTL as a number (R103). -/
def State.fpctl (s : State) : Nat := s.st.csr.fpctl.toNat

/-- A new free value is drawn next time (log entry 1). -/
def State.drawn (s : State) : State := { s with draw := s.draw + 1 }

/-! ## Units -/

/-- The cluster of a key. -/
def State.cluster (s : State) (k : Nat) : Cluster := (findKey Cluster.key s.clusters k).getD { key := k }

/-- A cluster replaced. -/
def State.setCluster (s : State) (c : Cluster) : State := { s with clusters := putKey Cluster.key c s.clusters }

/-- A cluster changed. -/
def State.modCluster (s : State) (k : Nat) (f : Cluster → Cluster) : State := s.setCluster (f (s.cluster k))

/-- The key of the focused core's cluster. -/
def State.cl (s : State) : Nat := s.clusterKey s.here

/-- The die of a key. -/
def State.die (s : State) (k : Nat) : Die := (findKey Die.key s.dies k).getD { key := k }

/-- A die replaced. -/
def State.setDie (s : State) (d : Die) : State := { s with dies := putKey Die.key d s.dies }

/-- A die changed. -/
def State.modDie (s : State) (k : Nat) (f : Die → Die) : State := s.setDie (f (s.die k))

/-- The key of the focused core's die. -/
def State.dk (s : State) : Nat := s.dieKey s.here

/-- The module of a number. -/
def State.mod (s : State) (k : Nat) : Module := (findKey Module.key s.modules k).getD { key := k }

/-- A module changed. -/
def State.modMod (s : State) (k : Nat) (f : Module → Module) : State :=
  { s with modules := putKey Module.key (f (s.mod k)) s.modules }

/-- A crew by its id. -/
def State.crewOf (s : State) (id : Nat) : Option Crew := findKey Crew.id s.sys.crews id

/-- A crew changed. -/
def State.modCrew (s : State) (id : Nat) (f : Crew → Crew) : State :=
  s.modSys fun y => { y with crews := y.crews.map fun c => if c.id = id then f c else c }

/-- A job by its id. -/
def State.jobOf (s : State) (id : Nat) : Option Job := findKey Job.id s.sys.jobs id

/-- A job changed. -/
def State.modJob (s : State) (id : Nat) (f : Job → Job) : State :=
  s.modSys fun y => { y with jobs := y.jobs.map fun j => if j.id = id then f j else j }

/-- The crew of the focused core. -/
def State.crew (s : State) : Option Crew := s.core.crew.bind s.crewOf

/-- The job of the focused core's crew. -/
def State.job (s : State) : Option Job := s.crew.bind fun c => s.jobOf c.job

/-- The GID of the context of the focused core's crew (R372); 0 without a crew. -/
def State.gid (s : State) : Nat := (s.job.map (·.gid)).getD 0

/-! ## Contexts (R372, R373) -/

/-- Doubleword i of a context-table entry. -/
def Ctx.dw (c : Ctx) (i : Nat) : Nat := (c.dws.getD i 0).toNat
def Ctx.valid (c : Ctx) : Bool := bit (c.dw 0) 0
def Ctx.dark (c : Ctx) : Bool := bit (c.dw 0) 1
def Ctx.gidOf (c : Ctx) : Nat := bits (c.dw 0) 47 16

/-- Entry n of a die's context table. Entry 0 is the administration context, with every right but DARK (R372). -/
def Die.ctx (d : Die) (n : Nat) : Ctx :=
  (findKey Ctx.num d.ctxs n).getD { num := n, dws := if n = 0 then [word 0x1F01] else [] }

/-- A context-table entry replaced. -/
def Die.setCtx (d : Die) (c : Ctx) : Die := { d with ctxs := putKey Ctx.num c d.ctxs }

/-- The number of a GID's entry on a die, if it holds one. -/
def Die.ctxOfGid (d : Die) (gid : Nat) : Option Nat :=
  if gid = 0 then some 0 else (d.ctxs.find? fun c => c.valid && c.gidOf == gid).map (·.num)

/-- The descriptor of a context by its GID: the first die's entry that holds it. -/
def State.ctxByGid (s : State) (gid : Nat) : Option Ctx :=
  if gid = 0 then some ((s.die 0).ctx 0)
  else s.dies.findSome? fun d => d.ctxs.find? fun c => c.valid && c.gidOf == gid

/-- A right of a context (R374): bit 8 TRN, 9 QADM, 10 PWR, 11 CADM, 12 HKP. -/
def Ctx.right (c : Ctx) (b : Nat) : Bool := c.valid && bit (c.dw 0) b

/-- The context number of the focused core's crew on its die (R31, CTXNO). -/
def State.ctxno (s : State) : Nat := ((s.die s.dk).ctxOfGid s.gid).getD 0

/-- The context of the focused core's crew on its die. -/
def State.myCtx (s : State) : Ctx := (s.die s.dk).ctx s.ctxno

/-! ## Banks (R345, R346) -/

/-- The doublewords of n bytes at an offset, as pieces. -/
def pieces8 (off n : Nat) : List (Nat × Nat) := (List.range ((n + 7) / 8)).map fun i => (off + 8 * i, 8)

/-- The banks an access touches that are gated or waking (R346). -/
def State.sleeping (s : State) (ps : List (Nat × Nat)) : List Nat :=
  (ps.map fun p => bits p.1 7 3).filter fun b => bit s.core.gate b || s.core.waking.any (·.1 == b)

/-- Gated banks among some start their wake (R346): 2 µs. -/
def State.wake (s : State) (bs : List Nat) : State :=
  bs.foldl (fun s b =>
    if bit s.core.gate b then s.modCore fun c => { c with gate := c.gate - 2 ^ b, waking := c.waking ++ [(b, s.sys.now + 2000)] } else s) s

/-- The gated banks of some pieces start their wake. -/
def State.wakeAt (s : State) (ps : List (Nat × Nat)) : State := s.wake (s.sleeping ps)

/-! ## Time (R339 to R344, log entry 9) -/

/-- CYCLES of a die: derived from REFTIME by the step log (R344); during a relock it stays at CSTEP (R341). -/
def Die.cycles (d : Die) (now : Nat) : Nat :=
  match d.relock, d.steps.getLast? with
  | some r, _ => r.cstep
  | none, some e => e.cstep + (now - e.tstart) * e.fnew / 10
  | none, none => 0

/-- REFTIME after n core cycles of a die from now. -/
def State.afterCycles (s : State) (n : Nat) : Nat :=
  let f := ((s.die s.dk).steps.getLast?.map (·.fnew)).getD 18
  s.sys.now + (n * 10 + f - 1) / f

end Sys2Proof.Machine
end

