-- ==== Sys2Proof/Machine/Translate.lean ====
section
/-! DEFINITION. Compression and encryption of frames (R362, R377), the page-table walk (R356 to R363), the translation caches (R355), and plain
accesses to DEVMEM, TIER, CXLMEM and HOST frames (R219, R359, R368). -/

namespace Sys2Proof.Machine

/-! ## Memory spaces (R219, R359) -/

/-- The key of a byte of memory: space 0 HBM4, 1 second tier, 2 CXL memory, 3 host memory; module; physical address. -/
def memKey (space module pa : Nat) : Nat := (space * 2 ^ 14 + module) * 2 ^ 64 + pa % 2 ^ 64

/-- Plain bytes of memory. -/
def State.phys (s : State) (key n : Nat) : List Byte := s.sys.mem.get key n
def State.setPhys (s : State) (key : Nat) (bs : List Byte) : State := s.modSys fun y => { y with mem := y.mem.put key bs }
def State.physN (s : State) (key n : Nat) : Nat := wordOfBytes (s.phys key n)
def State.setPhysN (s : State) (key n v : Nat) : State := s.setPhys key (bytesOfWord n v)

/-! ## Compression (R362) -/

/-- Numbers 0 to n - 1 for which a test holds, as a mask. -/
def maskOf (n : Nat) (f : Nat → Bool) : Nat := (List.range n).foldl (fun m i => if f i then m + 2 ^ i else m) 0

/-- The code byte and stored bytes of a 256-byte unit under a scheme (R362). -/
def encodeUnit (cmp : Nat) (bs : List Byte) : Nat × List Byte :=
  let v := wordOfBytes bs
  let ds := lanes 64 32 v
  let ws := lanes 32 64 v
  let fit (l : List Byte) : Nat × List Byte :=
    let beats := (l.length + 31) / 32
    (beats, l ++ List.replicate (beats * 32 - l.length) 0)
  if v = 0 then (0, [])
  else if cmp = 1 then
    let nz := ds.filter (· != 0)
    if nz.length ≤ 27 then
      fit (bytesOfWord 4 (maskOf 32 fun i => ds.getD i 0 != 0) ++ nz.flatMap (bytesOfWord 8))
    else (8, bs)
  else if cmp = 2 then
    let ok := (List.range 31).all fun i =>
      let d := sext 64 (ds.getD (i + 1) 0 + 2 ^ 64 - ds.getD i 0)
      decide (-128 ≤ d ∧ d ≤ 127)
    if ok then
      fit (bytesOfWord 8 (ds.getD 0 0) ++ (List.range 31).map fun i =>
        BitVec.ofNat 8 (ds.getD (i + 1) 0 + 2 ^ 64 - ds.getD i 0))
    else (8, bs)
  else
    let df := ws.map fun w => (w + 2 ^ 32 - ws.getD 0 0) % 2 ^ 32
    let plane (b : Nat) : Nat := maskOf 64 fun i => bit (df.getD i 0) b
    let used := (List.range 32).filter fun b => plane b != 0
    if used.length ≤ 27 then
      fit (bytesOfWord 4 (ws.getD 0 0) ++ bytesOfWord 4 (maskOf 32 fun b => plane b != 0)
        ++ used.flatMap fun b => bytesOfWord 8 (plane b))
    else (8, bs)

/-- The i-th set bit's rank in a mask: how many bits below i are set. -/
def rankBelow (mask i : Nat) : Nat := ((List.range i).filter fun j => bit mask j).length

/-- The plain bytes of a unit from its code and stored bytes; a reserved code has none (R362). -/
def decodeUnit (cmp code : Nat) (bs : List Byte) : Option (List Byte) :=
  if code = 0 then some (List.replicate 256 0)
  else if code = 8 then some bs
  else if 8 < code then none
  else if cmp = 1 then
    let mask := wordOfBytes (bs.take 4)
    let rest := lanes 64 31 (wordOfBytes (bs.drop 4))
    some ((List.range 32).flatMap fun i =>
      bytesOfWord 8 (if bit mask i then rest.getD (rankBelow mask i) 0 else 0))
  else if cmp = 2 then
    let ds := (List.range 31).foldl (fun (acc : List Nat) i =>
        acc ++ [wrap 64 ((acc.getLast?.getD 0 : Nat) + sext 8 ((bs.getD (8 + i) 0).toNat))])
      [wordOfBytes (bs.take 8)]
    some (ds.flatMap (bytesOfWord 8))
  else
    let w0 := wordOfBytes (bs.take 4)
    let mask := wordOfBytes ((bs.drop 4).take 4)
    let planes := lanes 64 27 (wordOfBytes (bs.drop 8))
    some ((List.range 64).flatMap fun i => bytesOfWord 4 ((w0 + maskOf 32 fun b =>
      bit mask b && bit (planes.getD (rankBelow mask b) 0) i) % 2 ^ 32))

/-! ## Encryption (R377, R384) -/

/-- The key that a darkroom context's frames and tables stand under, as long as it is held; no other context has one. -/
def State.ctxKey (s : State) (gid : Nat) : Option (BitVec 512) := (s.ctxByGid gid).bind fun c => if c.dark then c.key else none

/-- Whether a context is a darkroom context whose key has been erased (R384). -/
def State.keyless (s : State) (gid : Nat) : Bool := match s.ctxByGid gid with
  | some c => c.dark && c.key.isNone
  | none => false

/-- The number in the tweak of the unit at key u of an encrypted stretch: bits 47:8 of its virtual address; for a table, which has none, of its
physical address (log entry 7). -/
def Sealed.tweak (x : Sealed) (u : Nat) : Nat := (x.va.getD (x.lo % 2 ^ 64) + (u - x.lo)) / 256 % 2 ^ 40

/-- The encrypted stretch that a key of memory lies in. -/
def State.sealedAt (s : State) (k : Nat) : Option Sealed := s.sys.sealed.find? fun x => x.lo ≤ k && k < x.hi

/-- A unit through a cipher. -/
def cipher (f : BitVec 2048 → BitVec 2048) (bs : List Byte) : List Byte := bytesOfWord 256 (f (BitVec.ofNat 2048 (wordOfBytes bs))).toNat

/-- What the memory holds of the unit at key u: its bytes, or their ciphertext. -/
def State.stored (s : State) (u : Nat) : List Byte := match s.sealedAt u with
  | none => s.phys u 256
  | some x => cipher (Config.xtsEncrypt x.key x.gid (x.tweak u)) (s.phys u 256)

/-- Whether a context with a key reads the unit at key u as plain bytes: it stands under that key, as a table or with the tweak of this address. -/
def State.ownUnit (s : State) (key : BitVec 512) (va : Option Nat) (u : Nat) : Bool := match s.sealedAt u with
  | some x => x.key == key && (x.va.isNone || va.isNone || va.map (· / 256 % 2 ^ 40) == some (x.tweak u))
  | none => false

/-- What a context sees of the unit at key u, at an address of its own (none for a table): a darkroom context decrypts it, every other sees what the
memory holds. Frames outside DEVMEM and TIER (`always` false) it decrypts only where a move has brought them there encrypted. -/
def State.seen (s : State) (gid : Nat) (va : Option Nat) (always : Bool) (u : Nat) : List Byte :=
  match s.ctxKey gid with
  | none => s.stored u
  | some key =>
    if s.ownUnit key va u then s.phys u 256
    else if always then cipher (Config.xtsDecrypt key gid (va.getD (u % 2 ^ 64) / 256 % 2 ^ 40)) (s.stored u)
    else s.stored u

/-- n bytes of memory as a context sees them. -/
def State.readMem (s : State) (gid : Nat) (va : Option Nat) (always : Bool) (k n : Nat) : List Byte :=
  if s.sys.sealed.isEmpty && !(always && (s.ctxKey gid).isSome) then s.phys k n
  else
    let u0 := k / 256
    let units := (List.range ((k + n - 1) / 256 + 1 - u0)).flatMap fun i => s.seen gid (va.map fun v => v - v % 256 + 256 * i) always ((u0 + i) * 256)
    (units.drop (k % 256)).take n

/-- The n bytes at key u taken out of the encrypted stretches. -/
def State.unsealed (s : State) (u n : Nat) : State :=
  s.modSys fun y => { y with sealed := y.sealed.flatMap fun x =>
    if x.hi ≤ u || u + n ≤ x.lo then [x]
    else (if x.lo < u then [{ x with hi := u }] else [])
      ++ if u + n < x.hi then [{ x with lo := u + n, va := x.va.map (· + (u + n - x.lo)) }] else [] }

/-- The n plain bytes at key u put under a context's key, where it has one (R371, R377), and under none else. -/
def State.resealed (s : State) (gid : Nat) (va : Option Nat) (u n : Nat) : State :=
  let s := s.unsealed u n
  match s.ctxKey gid with
  | some key => s.modSys fun y => { y with sealed := y.sealed ++ [{ lo := u, hi := u + n, key := key, gid := gid, va := va }] }
  | none => s

/-- The unit at key u written as a context writes it: a darkroom context leaves it encrypted under its key, every other plain. -/
def State.writeUnit (s : State) (gid : Nat) (va : Option Nat) (always : Bool) (u off : Nat) (bs : List Byte) : State :=
  let old := s.seen gid va always u
  let new := old.take off ++ bs ++ old.drop (off + bs.length)
  match s.ctxKey gid with
  | none => (s.unsealed u 256).setPhys u new
  | some key =>
    if s.ownUnit key va u then s.setPhys u new
    else if always then (s.resealed gid va u 256).setPhys u new
    else (s.unsealed u 256).setPhys u new

/-- Bytes of memory written as a context writes them. -/
def State.writeMem (s : State) (gid : Nat) (va : Option Nat) (always : Bool) (k : Nat) (bs : List Byte) : State :=
  if s.sys.sealed.isEmpty && !(always && (s.ctxKey gid).isSome) then s.setPhys k bs
  else
    let u0 := k / 256
    (List.range ((k + bs.length - 1) / 256 + 1 - u0)).foldl (fun s i =>
      let u := (u0 + i) * 256
      let lo := max u k
      let hi := min (u + 256) (k + bs.length)
      s.writeUnit gid (va.map fun v => v - v % 256 + 256 * i) always u (lo - u) ((bs.drop (lo - k)).take (hi - lo))) s

/-- A doubleword of a context's table. -/
def State.tableN (s : State) (gid k : Nat) : Nat := wordOfBytes (s.readMem gid none true k 8)
def State.setTableN (s : State) (gid k v : Nat) : State := s.writeMem gid none true k (bytesOfWord 8 v)

/-! ## Page tables (R356 to R361) -/

/-- The size of a leaf at a level. -/
def pageSize (level : Nat) : Nat := if level = 2 then 2 ^ 30 else if level = 1 then 2 ^ 21 else 2 ^ 16

/-- The table index of an address at a level (R356). -/
def tableIndex (level va : Nat) : Nat :=
  if level = 3 then bits va 47 39 else if level = 2 then bits va 38 30 else if level = 1 then bits va 29 21 else bits va 20 16

/-- A malformed leaf (R358, R359). -/
def State.badLeaf (s : State) (level dw0 dw1 : Nat) : Bool :=
  let ty := bits dw0 4 2
  let rd := bits dw0 10 9
  let cmp := bits dw0 12 11
  let mside := bits dw0 13 13
  let frame := dw0 / 2 ^ 16 * 2 ^ 16
  bits dw0 15 14 != 0 || bits dw1 31 31 != 0 || 2 ≤ rd
  || (s.moduleField (bits dw1 13 0)).isNone || (s.moduleField (bits dw1 29 16)).isNone
  || (4 ≤ ty && level != 0)
  || (ty < 4 && frame % pageSize level != 0)
  || (4 ≤ ty && (cmp != 0 || mside != 0)) || (mside == 1 && cmp == 0)
  || (rd == 1 && 2 ≤ ty)
  || (ty == 4 && bits dw0 63 42 != 0) || (ty == 6 && bits dw0 63 20 != 0)

/-- A malformed PLACE field (R358, R361). -/
def badPlace (place : Nat) : Bool :=
  let mode := bits place 1 0
  mode == 3 || (mode ≤ 1 && 143 < bits place 9 2) || (1 ≤ mode && bits place 15 10 != 0) || (mode == 2 && bits place 9 2 != 0)

/-- How a walk ends: a leaf, no valid entry (UNMAPPED), or an ABSENT entry. -/
inductive Walk where
  | leaf (e : TlbEntry)
  | unmapped
  | absent
  deriving DecidableEq, Repr

/-- The walk from a table downward (R356 to R363): `fuel` levels are left, `level` the present one. A TOUCH entry passed is rewritten
to PIN for the walking cluster `cl`, 0 to 143 (R361). -/
def walkFrom (s : State) (gid va cl : Nat) : Nat → Nat → Nat → Nat → Nat → State × Walk
  | 0, _, _, _, _ => (s, .unmapped)
  | fuel + 1, level, module, base, place =>
    let at_ := memKey 0 module (base + 16 * tableIndex level va)
    let dw0 := s.tableN gid at_
    let dw1 := s.tableN gid (at_ + 8)
    if !bit dw0 0 then (s, if bits dw0 3 1 = 1 then .absent else .unmapped)
    else if bit dw0 1 then
      if level = 3 || s.badLeaf level dw0 dw1 then (s, .unmapped)
      else (s, .leaf { gid := gid, base := va / pageSize level * pageSize level, size := pageSize level, dw0 := dw0, dw1 := dw1,
                       place := place })
    else
      let pl := bits dw1 31 16
      match s.moduleField (bits dw1 13 0) with
      | none => (s, .unmapped)
      | some m =>
        if level = 0 || bits dw0 8 2 != 0 || bits dw1 15 14 != 0 || bits dw1 63 32 != 0 || badPlace pl then (s, .unmapped)
        else
          let next := dw0 / 512 * 512
          if bits pl 1 0 = 2 then
            let pin := 1 + cl % 144 * 4
            walkFrom (s.setTableN gid (at_ + 8) (dw1 - pl * 2 ^ 16 + pin * 2 ^ 16)) gid va cl fuel (level - 1) m next pin
          else walkFrom s gid va cl fuel (level - 1) m next pl

/-- The PLACE in effect for an address (R361), when it has one. -/
def State.placing (s : State) (gid va : Nat) : Option Nat := (s.sys.placed.find? fun p => p.gid == gid && p.lo ≤ va && va < p.hi).map (·.place)

/-- A walk that has ended at a leaf: its PLACE takes effect where none is in effect yet (R361), from the address it is for to both sides. -/
def settled (va : Nat) : State × Walk → State × Walk
  | (s, .leaf e) =>
    if 2 ≤ bits e.dw0 4 2 || (s.placing e.gid va).isSome then (s, .leaf e)
    else
      let own := s.sys.placed.filter fun p => p.gid == e.gid
      let lo := (own.filter fun p => p.hi ≤ va).foldl (fun m p => max m p.hi) e.base
      let hi := (own.filter fun p => va < p.lo).foldl (fun m p => min m p.lo) (e.base + e.size)
      (s.modSys fun y => { y with placed := y.placed ++ [{ gid := e.gid, lo := lo, hi := hi, place := e.place }] }, .leaf e)
  | r => r

/-- A walk of a context's tables (R355): an address beyond 48 bits, or a context that names no root, is unmapped. -/
def State.walk (s : State) (gid va cl : Nat) : State × Walk :=
  match s.ctxByGid gid with
  | none => (s, .unmapped)
  | some c =>
    match s.moduleField (bits (c.dw 2) 13 0) with
    | none => (s, .unmapped)
    | some m => if 2 ^ 48 ≤ va || !c.valid then (s, .unmapped) else settled va (walkFrom s gid va cl 4 3 m (c.dw 1 / 8192 * 8192) 0)

/-- The pointer entries that a walk from a table downward passes. -/
def pointersFrom (s : State) (gid va : Nat) : Nat → Nat → Nat → Nat → List PtrEntry
  | 0, _, _, _ => []
  | fuel + 1, level, module, base =>
    let at_ := memKey 0 module (base + 16 * tableIndex level va)
    let dw0 := s.tableN gid at_
    let dw1 := s.tableN gid (at_ + 8)
    if !bit dw0 0 || bit dw0 1 || level = 0 || bits dw0 8 2 != 0 || bits dw1 15 14 != 0 || bits dw1 63 32 != 0 || badPlace (bits dw1 31 16) then []
    else match s.moduleField (bits dw1 13 0) with
      | none => []
      | some m =>
        let size := if level = 3 then 2 ^ 39 else pageSize level
        let e : PtrEntry := { gid := gid, base := va / size * size, size := size, level := level - 1, module := m, next := dw0 / 512 * 512
                              place := bits dw1 31 16 }
        e :: pointersFrom s gid va fuel (level - 1) m e.next

/-- Whether a cached pointer entry covers a context's address. -/
def PtrEntry.covers (e : PtrEntry) (gid va : Nat) : Bool := e.gid == gid && e.base ≤ va && va < e.base + e.size

/-- The cached pointer entry of the lowest level that covers an address. -/
def Cluster.ptrFor (c : Cluster) (gid va : Nat) : Option PtrEntry :=
  (c.ptrs.filter fun e => e.covers gid va).foldl (fun b e => match b with
    | some x => if e.level < x.level then some e else b
    | none => some e) none

/-- A walk by the walkers of cluster k (R355): from the lowest table that its cached pointer entries reach, else from the root. The pointer
entries passed are cached, 256 at most (log entry 11). -/
def State.walkIn (s : State) (gid va k : Nat) : State × Walk :=
  match (s.cluster k).ptrFor gid va with
  | some e =>
    let (s, w) := settled va (walkFrom s gid va (k % 144) (e.level + 1) e.level e.module e.next e.place)
    let new := pointersFrom s gid va (e.level + 1) e.level e.module e.next
    (s.modCluster k fun c => { c with ptrs := (new ++ c.ptrs).take 256 }, w)
  | none =>
    let (s, w) := s.walk gid va (k % 144)
    let new := match (s.ctxByGid gid).bind fun c => (s.moduleField (bits (c.dw 2) 13 0)).map fun m => (c, m) with
      | some (c, m) => if 2 ^ 48 ≤ va || !c.valid then [] else pointersFrom s gid va 4 3 m (c.dw 1 / 8192 * 8192)
      | none => []
    (s.modCluster k fun c => { c with ptrs := (new ++ c.ptrs).take 256 }, w)

/-- The walkers of die d that belong to no cluster (R355): they keep no translation, and count as cluster 36·d of their die (R361). -/
def engineWalker (d : Nat) : Nat := 144 * 2 ^ 20 + 36 * d

/-- The die of a cluster's or a die's walkers, and its module. -/
def walkerDie (cl : Nat) : Nat := if engineWalker 0 ≤ cl then (cl - engineWalker 0) / 36 else cl / 36
def walkerModule (cl : Nat) : Nat := walkerDie cl / 4

/-- A table or a leaf met by a walk over all of a context's tables, in ascending address: the key and size of a table, or a leaf. -/
inductive Item where
  | table (key size : Nat)
  | page (e : TlbEntry)
  deriving DecidableEq, Repr

/-- The tables and leaves below a table (R356), for walks over a whole context: `fuel` levels are left. -/
def itemsFrom (s : State) (gid : Nat) : Nat → Nat → Nat → Nat → Nat → List Item
  | 0, _, _, _, _ => []
  | fuel + 1, level, module, base, va =>
    let size := if level = 0 then 512 else 8192
    let key := memKey 0 module base
    let idx := if (s.ctxKey gid).isSome then List.range (size / 16)
      else ((s.sys.mem.filter fun c => key ≤ c.1 && c.1 < key + size).map fun c => (c.1 - key) / 16).eraseDups
    .table key size :: idx.flatMap fun i =>
      let dw0 := s.tableN gid (key + 16 * i)
      let dw1 := s.tableN gid (key + 16 * i + 8)
      let at_ := va + i * (if level = 3 then 2 ^ 39 else pageSize level)
      if !bit dw0 0 then []
      else if bit dw0 1 then [.page { gid := gid, base := at_, size := pageSize level, dw0 := dw0, dw1 := dw1, place := 0 }]
      else match s.moduleField (bits dw1 13 0) with
        | some m => itemsFrom s gid fuel (level - 1) m (dw0 / 512 * 512) at_
        | none => []

/-- The tables and leaves of a context. -/
def State.items (s : State) (gid : Nat) : List Item :=
  match s.ctxByGid gid with
  | none => []
  | some c => match s.moduleField (bits (c.dw 2) 13 0) with
    | some m => itemsFrom s gid 4 3 m (c.dw 1 / 8192 * 8192) 0
    | none => []

/-- Whether a cached translation is of a context's address. -/
def TlbEntry.covers (e : TlbEntry) (gid va : Nat) : Bool := e.gid == gid && e.base ≤ va && va < e.base + e.size

/-- How a translation ends: a leaf, a status of R82, a wait for an ABSENT page, a wait for a promotion (R364). -/
inductive Xlat where
  | hit (e : TlbEntry)
  | fail (sub : Nat)
  | absent
  | promote (e : TlbEntry)
  deriving DecidableEq, Repr

/-- The target type of a leaf (R219). -/
def TlbEntry.type (e : TlbEntry) : Nat := bits e.dw0 4 2
def TlbEntry.r (e : TlbEntry) : Bool := bit e.dw0 5
def TlbEntry.w (e : TlbEntry) : Bool := bit e.dw0 6
def TlbEntry.x (e : TlbEntry) : Bool := bit e.dw0 7
def TlbEntry.race (e : TlbEntry) : Bool := bit e.dw0 8
def TlbEntry.dup (e : TlbEntry) : Bool := bits e.dw0 10 9 == 1
def TlbEntry.cmp (e : TlbEntry) : Nat := bits e.dw0 12 11
def TlbEntry.home (s : State) (e : TlbEntry) : Nat := (s.moduleField (bits e.dw1 13 0)).getD 0

/-- Whether a leaf asks for a promotion before its use (R364): TIER, CXLMEM or HOST with PRM set, and a single copy. -/
def TlbEntry.promotes (e : TlbEntry) : Bool := 1 ≤ e.type && e.type ≤ 3 && bit e.dw1 30 && bits e.dw0 10 9 == 0

/-- A promotion asked for (R364). -/
def State.wants (s : State) (e : TlbEntry) : State :=
  if s.sys.wanted.any fun x => x.gid == e.gid && x.base == e.base then s else s.modSys fun y => { y with wanted := y.wanted ++ [e] }

/-- A leaf found for an access: its use, or the promotion that it asks for. -/
def State.useLeaf (s : State) (e : TlbEntry) : State × Xlat := if e.promotes then (s.wants e, .promote e) else (s, .hit e)

/-- Every operation of a core. -/
def Core.allOps (c : Core) : List Op := c.strands.toList.flatMap (·.ops)

/-- The walks in flight in a cluster (R355): the context and 64 KiB page of each; walks for one page are one. -/
def State.walksIn (s : State) (cl : Nat) : List (Nat × Nat) :=
  ((s.cores.filter fun c => s.clusterKey c.coord == cl).flatMap fun c =>
    (c.allOps.filter (·.walking)).map fun o => ((s.focus c.coord 0).gid, o.a.toNat % 2 ^ 48 / 65536)).eraseDups

/-- Whether a walk of an address finds a free place among a cluster's 64, or is merged into one in flight (R355). -/
def State.walkRoom (s : State) (gid va cl : Nat) : Bool :=
  let ws := s.walksIn cl
  ws.length < 64 || ws.contains (gid, va / 65536)

/-- A translation by an agent of cluster key `cl` (R355): the cluster's second-level cache, else a walk that fills it (log entry 11); an agent
of a die's engine walkers walks from the root. -/
def State.translate (s : State) (gid va cl : Nat) : State × Xlat :=
  match if engineWalker 0 ≤ cl then none else (s.cluster cl).tlb2.find? fun e => e.covers gid va with
  | some e => s.useLeaf e
  | none =>
    if engineWalker 0 ≤ cl then match s.walk gid va (cl % 144) with
      | (s, .leaf e) => s.useLeaf e
      | (s, .unmapped) => (s, .fail 1)
      | (s, .absent) => (s, .absent)
    else if !s.walkRoom gid va cl then (s, .absent)
    else match s.walkIn gid va cl with
      | (s, .leaf e) => (s.modCluster cl fun c => { c with tlb2 := (e :: c.tlb2).take 2048 }).useLeaf e
      | (s, .unmapped) => (s, .fail 1)
      | (s, .absent) => (s, .absent)

/-- The module a read is served from: the nearer copy of a read-duplicate page, HOME on a tie (R368). -/
def TlbEntry.readHome (s : State) (e : TlbEntry) (from_ : Nat) : Nat :=
  if e.dup then
    let h1 := e.home s
    let h2 := (s.moduleField (bits e.dw1 29 16)).getD 0
    let dist (m : Nat) : Nat :=
      let a := s.sys.mx
      (max (m % a) (from_ % a) - min (m % a) (from_ % a)) + (max (m / a) (from_ / a) - min (m / a) (from_ / a))
    if dist h2 < dist h1 then h2 else h1
  else e.home s

/-- The physical address of a byte of a leaf. -/
def TlbEntry.pa (e : TlbEntry) (va : Nat) : Nat := e.dw0 / 2 ^ 16 * 2 ^ 16 + (va - e.base)

/-- The core a SCRATCH leaf maps, and the scratchpad offset of an address in it (R359). -/
def TlbEntry.scratchCore (e : TlbEntry) : Nat := bits e.dw0 39 16
def TlbEntry.scratchOff (e : TlbEntry) (va : Nat) : Nat := bits e.dw0 41 40 * 65536 + (va - e.base)

/-- The cached translation of a strand's address (R355): the core's data TLB, then its cluster's cache. -/
def State.cached (s : State) (va : Nat) : Option TlbEntry :=
  match s.core.dtlb.find? fun e => e.covers s.gid va with
  | some e => some e
  | none => (s.cluster s.cl).tlb2.find? fun e => e.covers s.gid va

/-- The leaf that an address of the focused core's context has for it: the cached one, else what a walk finds now. -/
def State.leafFor (s : State) (va : Nat) : Option TlbEntry := match s.cached va with
  | some e => some e
  | none => match (s.walkIn s.gid va s.cl).2 with
    | .leaf e => some e
    | _ => none

/-- The die that serves a SYNC, QUEUE or MMIO leaf. -/
def TlbEntry.hdie (s : State) (e : TlbEntry) : Nat := e.home s * 4 + bits e.dw1 15 14

/-- The home cluster key of a DEVMEM or TIER line (R361) of the copy in a module: by the PLACE in effect for its address. -/
def TlbEntry.clusterIn (s : State) (e : TlbEntry) (module va : Nat) : Nat :=
  let pa := e.pa va
  let place := (s.placing e.gid va).getD e.place
  let h := ((pa / 2 ^ 6) ^^^ (pa / 2 ^ 22) ^^^ (pa / 2 ^ 38)) % 2 ^ 16
  let first := bits place 9 2
  let cl := if bits place 1 0 = 0 then (first + h % (bits place 15 10 + 1)) % 144 else first % 144
  module * 144 + cl

/-- The home cluster key of a line of a leaf with one copy, or of HOME's. -/
def TlbEntry.homeCluster (s : State) (e : TlbEntry) (va : Nat) : Nat := e.clusterIn s (e.home s) va

/-- The die that serves an address of a leaf, of the copy in a module: its core's, its line's home, or its device's. -/
def TlbEntry.dieIn (s : State) (e : TlbEntry) (module va : Nat) : Nat :=
  if e.type = 4 then s.dieKey e.scratchCore else if e.type < 2 then e.clusterIn s module va / 36 else if e.type < 4 then module * 4 else e.hdie s

/-- The die that serves a write to an address of a leaf. -/
def TlbEntry.leafDie (s : State) (e : TlbEntry) (va : Nat) : Nat := e.dieIn s (e.home s) va

/-- Whether a die on the way of an access between two dies is in a relock (R342): the way goes along x, then along y. -/
def State.pathHeld (s : State) (a b : Nat) : Bool :=
  let gx (d : Nat) : Nat := d / 4 % s.sys.mx * 2 + d % 2
  let gy (d : Nat) : Nat := d / 4 / s.sys.mx * 2 + d % 4 / 2
  let between (x p q : Nat) : Bool := min p q ≤ x && x ≤ max p q
  s.dies.any fun d => d.relock.isSome &&
    ((gy d.key == gy a && between (gx d.key) (gx a) (gx b)) || (gx d.key == gx b && between (gy d.key) (gy a) (gy b)))

/-- The home coordinate of a leaf's address for scopes (R233); none for CXLMEM, HOST and MMIO. -/
def TlbEntry.homeCoord (s : State) (e : TlbEntry) (va : Nat) : Option Nat :=
  match e.type with
  | 0 | 1 => some (s.clusterCore (e.homeCluster s va) 0)
  | 4 => some e.scratchCore
  | 5 | 6 => some (s.dieCorner (e.hdie s))
  | _ => none

/-- Whether a leaf lies behind the host link of a module (R219): its accesses may complete with an error (R82). -/
def TlbEntry.onHost (e : TlbEntry) : Bool := e.type == 2 || e.type == 3

/-! ## Plain frames (R219, R362, R410) -/

/-- The key of the code byte of the unit at a frame address (R362). -/
def State.codeKey (s : State) (e : TlbEntry) (module pa : Nat) : Nat :=
  let frame := e.dw0 / 2 ^ 16 * 2 ^ 16
  let unit := (pa - frame) / 256
  if bit e.dw0 13 then
    match s.ctxByGid e.gid with
    | some c => memKey 0 ((s.moduleField (bits (c.dw 2) 27 14)).getD 0) (c.dw 3 / 4096 * 4096 + 256 * bits e.dw1 63 32 + unit)
    | none => memKey 0 module (frame + e.size + unit)
  else memKey e.type module (frame + e.size + unit)

/-- The code byte of a unit (R362), which a darkroom context decrypts (R371). -/
def State.codeByte (s : State) (e : TlbEntry) (module pa : Nat) : Nat :=
  wordOfBytes (s.readMem e.gid none (e.type < 2) (s.codeKey e module pa) 1)

/-- The address of a unit of a leaf's frame. -/
def TlbEntry.unitVa (e : TlbEntry) (upa : Nat) : Nat := e.base + (upa - e.dw0 / 2 ^ 16 * 2 ^ 16)

/-- Whether a line that n bytes of memory touch is poisoned (R410). -/
def State.poisonedAt (s : State) (key n : Nat) : Bool := s.sys.poisonLines.any fun l => l / 64 * 64 < key + n && key / 64 * 64 ≤ l

/-- The bytes of n addresses within one leaf of plain memory, or SOFT_ERR for a poisoned line, a reserved code, or a frame whose key has been
erased (R362, R410; log entry 7). -/
def State.readFrame (s : State) (e : TlbEntry) (module va n : Nat) : Option (List Byte) :=
  let pa := e.pa va
  let key := memKey e.type module pa
  if s.poisonedAt key n || (e.type < 2 && s.keyless e.gid) then none
  else if e.cmp = 0 then some (s.readMem e.gid (some va) (e.type < 2) key n)
  else
    let u0 := pa / 256
    let cnt := (pa + n - 1) / 256 + 1 - u0
    let units := (List.range cnt).map fun i =>
      let upa := (u0 + i) * 256
      decodeUnit e.cmp (s.codeByte e module upa) (s.readMem e.gid (some (e.unitVa upa)) (e.type < 2) (memKey e.type module upa) 256)
    if units.any (·.isNone) then none
    else some (((units.flatMap fun u => u.getD []).drop (pa % 256)).take n)

/-- The first address of n within a leaf at which a read fails: it lies at the first, or at the first of a line (R80, R410). -/
def State.badByte (s : State) (e : TlbEntry) (module va n : Nat) : Nat :=
  (((List.range n).map (va + ·)).find? fun a => (a = va || a % 64 = 0) && (s.readFrame e module a 1).isNone).getD va

/-- The bytes of a unit that a write is merged into (R362): the decoded unit, or, where it cannot be decoded, free values (log entry 12). -/
def State.oldUnit (s : State) (e : TlbEntry) (module upa : Nat) : List Byte × State :=
  match decodeUnit e.cmp (s.codeByte e module upa) (s.readMem e.gid (some (e.unitVa upa)) (e.type < 2) (memKey e.type module upa) 256) with
  | some bs => (bs, s)
  | none => ((List.range 4).flatMap fun i => bytesOfWord 64 (Config.freeWide (s.draw + i)).toNat, { s with draw := s.draw + 4 })

/-- A poisoned line that a write of n bytes covers is poisoned no more (R410). -/
def State.unpoisoned (s : State) (key n : Nat) : State :=
  s.modSys fun y => { y with poisonLines := y.poisonLines.filter fun l => !(key ≤ l / 64 * 64 && l / 64 * 64 + 64 ≤ key + n) }

/-- Bytes written within one leaf of plain memory; a covered line is no longer poisoned (R410). -/
def State.writeFrame (s : State) (e : TlbEntry) (va : Nat) (bs : List Byte) : State :=
  let module := e.home s
  let pa := e.pa va
  let key := memKey e.type module pa
  let s := s.unpoisoned key bs.length
  if e.cmp = 0 then s.writeMem e.gid (some va) (e.type < 2) key bs
  else
    let u0 := pa / 256
    let cnt := (pa + bs.length - 1) / 256 + 1 - u0
    (List.range cnt).foldl (fun s i =>
      let upa := (u0 + i) * 256
      let (old, s) := s.oldUnit e module upa
      let lo := max upa pa
      let hi := min (upa + 256) (pa + bs.length)
      let new := old.take (lo - upa) ++ (bs.drop (lo - pa)).take (hi - lo) ++ old.drop (hi - upa)
      let enc := encodeUnit e.cmp new
      (s.writeMem e.gid none (e.type < 2) (s.codeKey e module upa) (bytesOfWord 1 enc.1)).writeMem e.gid (some (e.unitVa upa)) (e.type < 2) (memKey e.type module upa) enc.2) s

/-- How a plain access of a device agent ends; a wait says whether it is for a page, absent or to be promoted (R76, R364), or only for a bank or a relock
(R342, R346). -/
inductive Res where
  | ok (bs : List Byte)
  | fail (t : Trap)
  | wait (page : Bool)
  deriving DecidableEq, Repr

/-- A COPY_ERR status with a sub-reason and the failing address (R80, R82). -/
def copyErr (sub va : Nat) : Trap := { code := 0x0C, sub := sub, addr := word va }

/-- SOFT_ERR at the first failing byte (R80). -/
def softErr (va : Nat) : Trap := { code := 0x16, addr := word va }

/-- One access of a device unit within one page of plain memory or a scratchpad (R76, R436): rights, a die on its way in a relock (R342), a failed
module (R409), a core that is not there, sleeping banks (R346), errors. -/
def State.unitAccess (s : State) (e : TlbEntry) (va n cl : Nat) (w : Option (List Byte)) : State × Res :=
  let wr := w.isSome
  let module := if wr then e.home s else e.readHome s (walkerModule cl)
  if wr && e.dup then (s, .fail (copyErr 3 va))
  else if (if wr then !e.w else !e.r) || 5 ≤ e.type then (s, .fail (copyErr 2 va))
  else if s.pathHeld (walkerDie cl) (e.dieIn s module va) then (s, .wait false)
  else if e.type < 4 then
    if (s.mod module).failed then (s, .fail (copyErr 9 va))
    else match w with
      | none => match s.readFrame e module va n with
        | some bs => (s, .ok bs)
        | none => (s, .fail (softErr (s.badByte e module va n)))
      | some bs => if e.type < 2 && s.keyless e.gid then (s, .fail (softErr va)) else (s.writeFrame e va bs, .ok [])
  else
    let c := s.coreAt e.scratchCore
    let off := e.scratchOff va
    if c.fenced || !s.inMesh e.scratchCore then (s, .fail (copyErr 9 va))
    else
      let banks := (s.focus e.scratchCore 0).sleeping ((List.range ((off + n + 7) / 8 - off / 8)).map fun i => ((off / 8 + i) * 8, 8))
      if !banks.isEmpty then (s.atCore e.scratchCore 0 fun s => s.wake banks, .wait false)
      else match w with
        | none => match c.softAt off n false with
          | some a => (s, .fail (softErr (va + (a - off))))
          | none => (s, .ok (c.scratch.get off n))
        | some bs => match c.softAt off n true with
          | some a => (s, .fail (softErr (va + (a - off))))
          | none => (s.atCore e.scratchCore 0 fun s => s.modCore fun c => c.store off bs, .ok [])

/-- An access within one page by a device unit, translated. -/
def State.unitPage (s : State) (gid va n cl : Nat) (w : Option (List Byte)) : State × Res :=
  match s.translate gid va cl with
  | (s, .fail sub) => (s, .fail (copyErr sub va))
  | (s, .absent) | (s, .promote _) => (s, .wait true)
  | (s, .hit e) => s.unitAccess e va n cl w

/-- A read of n bytes within one page by a device unit, of a plain frame or a scratchpad (R76, R436). -/
def State.readPage (s : State) (gid va n cl : Nat) : State × Res := s.unitPage gid va n cl none

/-- A write of bytes within one page by a device unit. -/
def State.writePage (s : State) (gid va : Nat) (bs : List Byte) (cl : Nat) : State × Res := s.unitPage gid va bs.length cl (some bs)

/-- A read of n bytes from 64 KiB pages by a device unit, in one step: all of it, the first failure, or a wait. -/
def readRange (gid cl : Nat) : Nat → State → Nat → Nat → State × Res
  | 0, s, _, _ => (s, .ok [])
  | fuel + 1, s, va, n =>
    if n = 0 then (s, .ok [])
    else
      let m := min n (65536 - va % 65536)
      match s.readPage gid va m cl with
      | (s, .ok bs) =>
        match readRange gid cl fuel s (va + m) (n - m) with
        | (s, .ok rest) => (s, .ok (bs ++ rest))
        | r => r
      | r => r

/-- A write of bytes to 64 KiB pages by a device unit, page after page; it stops at the first failure or wait. -/
def writeRange (gid cl : Nat) : Nat → State → Nat → List Byte → State × Res
  | 0, s, _, _ => (s, .ok [])
  | fuel + 1, s, va, bs =>
    if bs.isEmpty then (s, .ok [])
    else
      let m := min bs.length (65536 - va % 65536)
      match s.writePage gid va (bs.take m) cl with
      | (s, .ok _) => writeRange gid cl fuel s (va + m) (bs.drop m)
      | r => r

end Sys2Proof.Machine
end

