-- ==== Sys2Proof/Machine/QueueCtl.lean ====
section
/-! DEFINITION. The queue controller's operations on a queue (R258 to R264): each is indivisible, checks VALID and GEN first, and
reaches the ring in the owner's context (R259). -/

namespace Sys2Proof.Machine

/-- Whether a unit of a die has been fenced, by the codes of R429 (R410). -/
def Die.fenced (d : Die) (unit : Nat) : Bool := d.fencedUnits.any fun w => w.toNat % 256 == unit

/-- How a queue operation ends: with doublewords, full, empty or frozen, a bounce as stale, a status, or a wait for the ring's page. -/
inductive QRes where
  | ok (ws : List Word)
  | full
  | empty
  | frozen
  | stale
  | priv
  | geom
  | fail (t : Trap)
  | wait
  deriving DecidableEq, Repr

/-- The die key and index of a handle, for a requester of a module (R258). -/
def handleDie (module h : Nat) : Nat := module * 4 + bits h 15 14
def handleIdx (h : Nat) : Nat := bits h 13 0

/-- The descriptor of a queue. -/
def Die.queue (d : Die) (i : Nat) : QDesc := (findKey QDesc.idx d.queues i).getD { idx := i }
def Die.setQueue (d : Die) (q : QDesc) : Die := { d with queues := putKey QDesc.idx q d.queues }
def State.setQueue (s : State) (dk : Nat) (q : QDesc) : State := s.modDie dk fun d => d.setQueue q

/-- The difference of two tickets (R260). -/
def ticketDiff (a b : Nat) : Nat := (a + 2 ^ 32 - b % 2 ^ 32) % 2 ^ 32

/-- Capacity, depth, unpublished entries, fullness (R260, R262). -/
def QDesc.cap (q : QDesc) : Nat := 2 ^ q.log2cap
def QDesc.depth (q : QDesc) : Nat := ticketDiff q.resv q.head
def QDesc.unpub (q : QDesc) : Nat := ticketDiff q.resv q.pub
def QDesc.isFull (q : QDesc) : Bool := q.cap ≤ q.depth || 64 ≤ q.unpub

/-- PEND shifted right while its bit 0 is set, PUB following (R260). -/
def QDesc.settle : Nat → QDesc → QDesc
  | 0, q => q
  | n + 1, q => if bit q.pend 0 then QDesc.settle n { q with pend := q.pend / 2, pub := (q.pub + 1) % 2 ^ 32 } else q

/-- Ticket t published (R260, R262). -/
def QDesc.publish (q : QDesc) (t : Nat) : QDesc := QDesc.settle 64 { q with pend := q.pend ||| 2 ^ ticketDiff t q.pub }

/-- The address of a ticket's ring slot (R260). -/
def QDesc.slot (q : QDesc) (t : Nat) : Nat := q.ring + 64 * (t % q.cap)

/-- The GID of a queue's owner. -/
def State.ownerGid (s : State) (dk owner : Nat) : Nat := if owner = 0 then 0 else ((s.die dk).ctx owner).gidOf

/-- The checks every operation makes first (R261, R263): VALID and GEN, then the owner. -/
def State.qCheck (s : State) (dk h : Nat) (ctx : Option Nat) : Option QRes :=
  let q := (s.die dk).queue (handleIdx h)
  if !q.valid || q.gen != bits h 31 16 then some .stale
  else if ctx != some q.owner then some .priv
  else none

/-- An entry put into the ring and reserved, and published when asked (R262, QENQ). A failed ring access leaves the reservation and
freezes the queue (R263); a descriptor with an uncorrectable error gives SOFT_ERR (R410). -/
def State.qPut (s : State) (dk i : Nat) (entry : List Byte) (pub : Bool) (rel : Option (Nat × Nat)) : State × QRes :=
  let q := (s.die dk).queue i
  if q.bad then (s, .fail (softErr 0))
  else if q.isFull then (s, .full)
  else
    let t := q.resv
    let q1 := { q with resv := (t + 1) % 2 ^ 32 }
    match s.writePage (s.ownerGid dk q.owner) (q.slot t) entry (engineWalker dk) with
    | (s, .ok _) =>
      let q2 := if pub then q1.publish t else q1
      let q2 := match rel with
        | some r => { q2 with rels := (t, r) :: dropKey (·.1) t q2.rels }
        | none => q2
      (s.setQueue dk q2, .ok [word t])
    | (s, .wait _) => (s, .wait)
    | (s, .fail t) => (s.setQueue dk { q1 with frozen := true }, .fail t)

/-- The entry at HEAD claimed and its slot freed (R260, R262). -/
def State.qTake (s : State) (dk i : Nat) : State × QRes :=
  let q := (s.die dk).queue i
  if q.bad then (s, .fail (softErr 0))
  else if q.head = q.pub then (s, .empty)
  else
    match s.readPage (s.ownerGid dk q.owner) (q.slot q.head) 64 (engineWalker dk) with
    | (s, .ok bs) => (s.setQueue dk { q with head := (q.head + 1) % 2 ^ 32 }, .ok (word q.head :: toWords 8 (wordOfBytes bs)))
    | (s, .wait _) => (s, .wait)
    | (s, .fail t) => (s.setQueue dk { q with frozen := true }, .fail t)

/-- QPUB of a ticket (R262): it shall be reserved and unpublished. -/
def State.qPublish (s : State) (dk i t : Nat) (rel : Option (Nat × Nat)) : State × QRes :=
  let q := (s.die dk).queue i
  let o := ticketDiff t q.pub
  if q.unpub ≤ o || bit q.pend o then (s, .geom)
  else
    let q := q.publish t
    let q := match rel with
      | some r => { q with rels := (t, r) :: dropKey (·.1) t q.rels }
      | none => q
    (s.setQueue dk q, .ok [])

/-- The word QSTAT returns (R262). -/
def QDesc.stat (q : QDesc) : Nat :=
  q.depth % 2 ^ 25 + q.unpub % 128 * 2 ^ 32 + num q.frozen * 2 ^ 39 + q.owner % 256 * 2 ^ 40 + q.gen % 2 ^ 16 * 2 ^ 48

/-- A doubleword of the descriptor as a register block reads it (R259, R264). -/
def QDesc.dw (q : QDesc) (i : Nat) : Nat :=
  match i with
  | 0 => num q.valid + num q.frozen * 2 + q.owner % 256 * 2 ^ 8 + q.gen % 2 ^ 16 * 2 ^ 16 + q.log2cap % 32 * 2 ^ 32
          + num q.launch * 2 ^ 40 + q.prio % 4 * 2 ^ 41
  | 1 => q.ring % 2 ^ 48
  | 2 => q.head
  | 3 => q.resv
  | 4 => q.pub
  | 5 => q.pend % 2 ^ 64
  | _ => 0

/-- A doorbell of a ticket (R264). -/
def QDesc.doorbell (q : QDesc) (t : Nat) : QDesc :=
  if !q.valid then q
  else
    let o := ticketDiff t q.pub
    if o < q.unpub then if bit q.pend o then q else q.publish t
    else
      let room := min (q.cap - q.depth) (64 - q.unpub)
      if ticketDiff t q.resv < room then QDesc.publish { q with resv := (t + 1) % 2 ^ 32 } t else q

/-- A queue created (R264): HEAD, RESV, PUB and PEND are zeroed. -/
def QDesc.create (q : QDesc) : QDesc := { q with valid := true, head := 0, resv := 0, pub := 0, pend := 0, rels := [], bad := false }

/-- A queue destroyed (R264): its entries are discarded and GEN goes up by 1; the other fields stay. -/
def QDesc.destroy (q : QDesc) : QDesc :=
  { q with valid := false, gen := (q.gen + 1) % 2 ^ 16, head := 0, resv := 0, pub := 0, pend := 0, rels := [], bad := false }

/-- The fields a write to doubleword 0 takes (R264); it ends an uncorrectable error (R410). -/
def QDesc.take0 (q : QDesc) (v : Nat) : QDesc :=
  { q with frozen := bit v 1, owner := bits v 15 8, log2cap := bits v 36 32, launch := bit v 40, prio := bits v 42 41, bad := false }

/-- A claim of R262 as QCLAIM, run-queue polls and launch claims make it. -/
def State.qClaim (s : State) (dk i : Nat) : State × QRes :=
  if ((s.die dk).queue i).frozen then (s, .frozen) else s.qTake dk i

end Sys2Proof.Machine
end

