-- ==== Sys2Proof/Machine/Ops.lean ====
section
/-! DEFINITION. The shared operations of every meaning: what an instruction can do (`Act`), trace records (R416), fault records and
fault queues (R392 to R396), taking a trap (R389, R390) and returning from it (R59), the scoreboard (R72, R79), gangs in lockstep
(R146, R147), and `issue`, which applies the guard (R34) and carries an instruction out. -/

namespace Sys2Proof.Machine

/-- What the body of an instruction does on one strand. -/
inductive Act where
  /-- It takes effect and the strand goes on at pc + 4. -/
  | next (s : State)
  /-- It takes effect and the strand goes on at another address. -/
  | jump (pc : Nat) (s : State)
  /-- It cannot take effect yet: nothing changes and the strand waits (R8). -/
  | hold
  /-- It cannot take effect yet: the strand waits, with something noted or requested in the state it began in. Ports are popped only
  when it takes effect. -/
  | wait (f : State → State)
  /-- It traps; nothing of it takes effect but the change given with the trap (flags of R107, a failure reported by R80). -/
  | trap (t : Trap) (f : State → State)
  /-- It takes effect and the strand no longer runs here. -/
  | gone (s : State)

/-- The trap ILLEGAL of a class, with the instruction word (R41). -/
def State.illegal (s : State) (cls : Nat) : Trap := { code := 1, info := word (s.ir % 2 ^ 32 + cls * 2 ^ 32) }

/-- A trap with a code and no more. -/
def plainTrap (code : Nat) : Trap := { code := code }

/-- TRAPINFO of R80: the issuing pc, the sub-reason, the class. -/
def failInfo (pc sub cls : Nat) : Word := word (pc % 2 ^ 48 + sub % 256 * 2 ^ 48 + cls % 256 * 2 ^ 56)

/-- COPY_ERR raised at the instruction itself with a sub-reason and a class (R80, R209, R255). -/
def State.selfErr (s : State) (sub cls : Nat) : Trap := { code := 0x0C, info := failInfo s.st.pc sub cls, sub := sub }

def Act.ill (s : State) (cls : Nat) : Act := .trap (s.illegal cls) id
def Act.code (c : Nat) : Act := .trap (plainTrap c) id

/-! ## Messages (R195) -/

def Msg.kind (m : Msg) : Nat := bits m.h0.toNat 63 61
def Msg.pri (m : Msg) : Nat := bits m.h0.toNat 60 60
def Msg.ch (m : Msg) : Nat := bits m.h0.toNat 59 58
def Msg.flits (m : Msg) : Nat := bits m.h0.toNat 57 55 + 1
def Msg.trc (m : Msg) : Bool := bit m.h0.toNat 54
def Msg.spec (m : Msg) : Bool := bit m.h0.toNat 53
def Msg.target (m : Msg) : Nat := bits m.h0.toNat 47 0
def Msg.dst (m : Msg) : Nat := pack (bits m.h1.toNat 63 52) (bits m.h1.toNat 51 40)
def Msg.src (m : Msg) : Nat := pack (bits m.h1.toNat 39 28) (bits m.h1.toNat 27 16)
def Msg.job (m : Msg) : Nat := bits m.h1.toNat 15 0
def Msg.task (m : Msg) : Nat := bits m.h2.toNat 63 32
def Msg.stampOf (m : Msg) : Nat := bits m.h2.toNat 31 0
def Msg.cap (m : Msg) : Nat := 4 * m.flits - 3
def Msg.word (m : Msg) (i : Nat) : Word := m.pay.getD i 0

/-- Header word 0 (R195, R207). -/
def header0 (kind pri ch flits : Nat) (trc spec : Bool) (target : Nat) : Word :=
  word (kind * 2 ^ 61 + pri * 2 ^ 60 + ch * 2 ^ 58 + (flits - 1) * 2 ^ 55 + num trc * 2 ^ 54 + num spec * 2 ^ 53 + target % 2 ^ 48)

/-- Header word 1 (R195, R207). -/
def header1 (dst src job : Nat) : Word :=
  word (unpackX dst * 2 ^ 52 + unpackY dst * 2 ^ 40 + unpackX src * 2 ^ 28 + unpackY src * 2 ^ 16 + job % 2 ^ 16)

/-- A payload padded with zeros to its capacity (R207). -/
def padTo (n : Nat) (l : List Word) : List Word := (l ++ List.replicate (n - l.length) 0).take n

/-- A message that enters the network now, with its STAMP (R195). -/
def Msg.stamped (m : Msg) (now : Nat) : Msg := { m with h2 := BitVec.ofNat 64 (m.task * 2 ^ 32 + now % 2 ^ 32) }

/-- A message entering the network; order is kept per source, destination, priority and channel (R198). -/
def State.launchMsg (s : State) (m : Msg) : State := s.modSys fun y => { y with flight := y.flight ++ [m.stamped y.now] }

/-! ## Trace records (R415, R416) -/

/-- A session's records written in the order in which they were formed, until a page of the ring is awaited (R416); a session that closes then is
closed (R414, R417). -/
def drainRecords (dk n : Nat) : Nat → State → State
  | 0, s => s
  | fuel + 1, s =>
    match (vget (s.die dk).sessions n {}).pending with
    | [] => if (vget (s.die dk).sessions n {}).closing then
        s.modDie dk fun d => { d with sessions := vset d.sessions n { vget d.sessions n {} with en := false, closing := false } } else s
    | r :: rest => match s.writePage r.1 r.2.1 r.2.2 (engineWalker dk) with
      | (s, .wait _) => s
      | (s, _) => drainRecords dk n fuel
          (s.modDie dk fun d => { d with sessions := vset d.sessions n { vget d.sessions n {} with pending := rest } })

/-- A record formed for the ring of a session (R416). -/
def State.writeRecord (s : State) (dk n : Nat) (type strand coord task job x : Nat) (y : Word) : State :=
  let d := s.die dk
  let ss := vget d.sessions n {}
  let w0 := type % 256 + strand % 16 * 2 ^ 8 + coord % 2 ^ 24 * 2 ^ 12 + ss.seq % 2 ^ 28 * 2 ^ 36
  let w2 := task % 2 ^ 32 + job % 2 ^ 16 * 2 ^ 32 + x % 2 ^ 16 * 2 ^ 48
  let bs := bytesOfWord 8 w0 ++ bytesOfWord 8 s.sys.now ++ bytesOfWord 8 w2 ++ bytesOfWord 8 y.toNat
  let s := s.modDie dk fun d => { d with sessions := vset d.sessions n { ss with
    seq := ss.seq + 1, pending := ss.pending ++ [(ss.gid, ss.ring + 32 * (ss.seq % 2 ^ (ss.rlog - 5)), bs)] } }
  drainRecords dk n (ss.pending.length + 2) s

/-- Whether a session names a job of a context: its own context's, or, where a context with CADM has opened it, any but a darkroom context's
(R374, R380, R415; log entry 70). -/
def State.names (s : State) (ss : Session) (job gid : Nat) : Bool :=
  ss.job == job && (ss.gid == gid || ((s.ctxByGid ss.gid).any (·.right 11) && !(s.ctxByGid gid).any Ctx.dark))

/-- The open session that names a job, if any: its die and number (R414, R415). -/
def State.sessionOf (s : State) (job gid : Nat) : Option (Nat × Nat) :=
  s.dies.findSome? fun d => (List.range 16).findSome? fun n =>
    let ss := vget d.sessions n {}
    if ss.en && !ss.closing && s.names ss job gid then some (d.key, n) else none

/-- A trace record of an event of the focused strand, formed only when R415 allows it. -/
def State.trace (s : State) (type x : Nat) (y : Word) : State :=
  if !s.st.tron then s
  else
    match s.sessionOf s.st.csr.jobno.toNat s.gid with
    | none => s
    | some (dk, n) =>
      let ss := vget (s.die dk).sessions n {}
      if ss.state = 0 && bit ss.tmask (type - 1) && (!ss.tasken || ss.tfilt = s.st.csr.taskid.toNat % 2 ^ 32)
      then s.writeRecord dk n type s.k s.here s.st.csr.taskid.toNat s.st.csr.jobno.toNat x y
      else s

/-! ## Fault records (R392 to R396) -/

/-- The fields of a fault record (R392). -/
structure Fields where
  code : Nat
  sub : Nat := 0
  coord : Nat := 0
  ctx : Nat := 0
  pc : Nat := 0
  task : Nat := 0
  job : Nat := 0
  queue : Nat := 0
  entry : Nat := 0
  info : Nat := 0
  addr : Nat := 0
  party : Nat := 0
  src : Nat := 0
  ncopy : Nat := 0
  strand : Nat := 0
  halt : Bool := false
  dbl : Bool := false

/-- The 64 bytes of a fault record (R392), with the time it was formed and the count of lost records. -/
def Fields.toBytes (f : Fields) (now lost : Nat) : List Byte :=
  bytesOfWord 1 f.code ++ bytesOfWord 1 f.sub ++ bytesOfWord 3 f.coord ++ bytesOfWord 1 f.ctx ++ bytesOfWord 6 f.pc
  ++ bytesOfWord 4 f.task ++ bytesOfWord 2 f.job ++ bytesOfWord 4 f.queue ++ bytesOfWord 4 f.entry ++ bytesOfWord 8 f.info
  ++ bytesOfWord 8 f.addr ++ bytesOfWord 8 f.party ++ bytesOfWord 8 now
  ++ bytesOfWord 1 (f.src + f.ncopy * 8) ++ bytesOfWord 1 (f.strand + num f.halt * 16 + num f.dbl * 32)
  ++ bytesOfWord 2 (min lost 65535) ++ bytesOfWord 2 0

/-- Entries of 64 bytes put into a queue and published together, in ticket order (R393). -/
def State.publishAll (s : State) (dk i : Nat) (entries : List (List Byte)) : State × Bool :=
  let q := (s.die dk).queue i
  if q.cap < q.depth + entries.length || 64 < q.unpub + entries.length then (s, false)
  else
    let r := entries.foldl (fun (acc : State × Bool × List Nat) e =>
      if !acc.2.1 then acc
      else match acc.1.qPut dk i e false none with
        | (s, .ok ws) => (s, true, acc.2.2 ++ [(ws.getD 0 0).toNat])
        | (s, _) => (s, false, acc.2.2)) (s, true, [])
    if r.2.1 then (r.2.2.foldl (fun s t => (s.qPublish dk i t none).1) r.1, true) else (s, false)

/-- The route of a context's fault queue, its die and number, when its entry is valid and the queue's handle is not stale (R396). -/
def State.faultRoute (s : State) (dk ctx : Nat) : Option (Nat × Nat) :=
  match (s.die dk).routes.find? fun r => r.1 == ctx with
  | some (_, v) =>
    let qd := handleDie (dk / 4) v
    let q := (s.die qd).queue (handleIdx v)
    if bit v 32 && q.valid && q.gen = bits v 31 16 then some (qd, handleIdx v) else none
  | none => none

/-- The route entry of a context cleared where it is VALID and its queue's handle is stale (R396). -/
def State.dropStaleRoute (s : State) (dk ctx : Nat) : State :=
  if (s.faultRoute dk ctx).isSome || !((s.die dk).routes.any fun r => r.1 == ctx && bit r.2 32) then s else s.modDie dk fun d => { d with routes := dropKey (·.1) ctx d.routes }

/-- The buffered records of a die published while their routes can take them, oldest first (R396). -/
def drainFaults (dk : Nat) : Nat → State → State
  | 0, s => s
  | n + 1, s =>
    match (s.die dk).faultBuf with
    | [] => s
    | r :: rest =>
      match s.faultRoute dk ((r.getD 8 0).toNat % 256) with
      | none => s.dropStaleRoute dk ((r.getD 8 0).toNat % 256)
      | some (qd, i) =>
        let lost := min (s.die dk).lost 65535
        let r := (r.take 7 ++ [(r.getD 7 0) + word (lost * 2 ^ 32)]) ++ r.drop 8
        let es := (List.range ((r.length - 1) / 8)).map fun j => ((r.drop (if j = 0 then 0 else 8 * j + 1)).take 8).flatMap
          fun w => bytesOfWord 8 w.toNat
        match s.publishAll qd i es with
        | (s, true) => drainFaults dk n (s.modDie dk fun d => { d with faultBuf := rest, lost := 0 })
        | (_, false) => s

/-- A record, and the copy of its entry, sent to the fault queue of a context on a die, or held in the die's fault buffer (R396); the
per-context summary is kept (R380, R426). -/
def State.fault (s : State) (dk : Nat) (f : Fields) (copy : List Word) : State :=
  let d := s.die dk
  let ws (lost : Nat) : List Word := toWords 8 (wordOfBytes (f.toBytes s.sys.now lost))
  let copy := padTo (8 * f.ncopy) copy
  let old := ((d.summary.find? fun e => e.1 == f.ctx).map (·.2)).getD (0, 0, 0)
  let s := s.modDie dk fun d =>
    { d with summary := putKey (·.1) (f.ctx, (old.1 + 1, f.code, s.sys.now)) d.summary }
  let buffered (s : State) : State := s.modDie dk fun d =>
    let r := ws 0 ++ [word f.ctx] ++ copy
    if d.faultBuf.length < 256 then { d with faultBuf := d.faultBuf ++ [r] }
    else { d with faultBuf := d.faultBuf.drop 1 ++ [r], lost := d.lost + 1 }
  if d.faultBuf.isEmpty then
    match s.faultRoute dk f.ctx with
    | none => buffered (s.dropStaleRoute dk f.ctx)
    | some (qd, i) =>
      match s.publishAll qd i (((ws d.lost) :: (List.range f.ncopy).map fun j => (copy.drop (8 * j)).take 8).map
          fun l => l.flatMap fun w => bytesOfWord 8 w.toNat) with
      | (s, true) => s.modDie dk fun d => { d with lost := 0 }
      | (_, false) => buffered s
  else buffered s

/-- The context number of a GID on the focused core's die; the administration context where it holds none (R13). -/
def State.ctxOn (s : State) (dk gid : Nat) : Nat := ((s.die dk).ctxOfGid gid).getD 0

/-- The die at whose fault route the context of a GID is reached, and its number there: the given die where it holds the context, else the first that
does; the administration context of the given die where none does (R13, R396). -/
def State.ctxHome (s : State) (dk gid : Nat) : Nat × Nat :=
  match (s.die dk).ctxOfGid gid with
  | some n => (dk, n)
  | none => (s.dies.findSome? fun d => (d.ctxOfGid gid).map fun n => (d.key, n)).getD (dk, 0)

/-- A device record about a message (R13): code, sub-reason, bounce cause; to the fault queue of a context given by its GID. -/
def State.messageFault (s : State) (at_ : Nat) (m : Msg) (gid code sub cause : Nat) : State :=
  let (dk, n) := s.ctxHome (s.dieKey at_) gid
  s.fault dk { code := code, sub := sub, coord := at_, ctx := n, job := m.job, addr := m.target,
               party := if cause = 0 then 0 else cause + m.src * 2 ^ 8 } []

/-! ## Taking a trap (R389, R390, R394, R395) -/

/-- What supplied the strand's work (R394): SRC, QUEUE, ENTRY and the copy of the entry. -/
def State.supplier (s : State) : Nat × Nat × Nat × List Word :=
  match s.st.claimed, s.st.start with
  | some (h, t, e), _ => (1, h, t, toWords 8 e.toNat)
  | none, some m => (2, s.here, m.seq, m.h0 :: m.h1 :: m.h2 :: padTo m.cap m.pay)
  | none, none => (0, 0, 0, [])

/-- The supplying queue freezes (R395). -/
def State.freezeSupplier (s : State) : State :=
  match s.supplier with
  | (1, h, _, _) =>
    let dk := handleDie (s.moduleOf s.here) h
    let q := (s.die dk).queue (handleIdx h)
    if q.valid && q.gen = bits h 31 16 then s.setQueue dk { q with frozen := true } else s
  | (2, _, _, _) => s.modNi fun n => { n with infrz := true }
  | _ => s

/-- A recording of the focused core is to become INVALID with a reason (R327, R328). -/
def State.spoil (s : State) (reason : Nat) : State :=
  match s.core.tape.recording, s.core.crew with
  | some n, some w => s.modSys fun y => { y with recordings := y.recordings.map fun r =>
      if r.num = n && r.crew = w && r.reason = 0 then { r with reason := reason } else r }
  | _, _ => s

/-- PassToOwner (R390): HALTED, the supplying queue frozen, then the record and the entry's copy to the owner's fault queue. -/
def State.passToOwner (s : State) (t : Trap) (pc : Nat) (dbl : Bool) : State :=
  let (src, queue, entry, copy) := s.supplier
  let ncopy := min 4 ((copy.length + 7) / 8)
  let s := (s.spoil 5).modSt fun st => { st with life := .halted }
  let s := s.freezeSupplier
  s.fault s.dk { code := t.code, sub := t.sub, coord := s.here, ctx := s.ctxOn s.dk s.gid, pc := pc,
                 task := s.st.csr.taskid.toNat, job := s.st.csr.jobno.toNat, queue := queue, entry := entry,
                 info := t.info.toNat, addr := t.addr.toNat, party := t.party.toNat, src := src, ncopy := ncopy,
                 strand := s.k, halt := true, dbl := dbl } copy

/-- Whether a trap always passes to the owner (R389): WATCHDOG, or BREAK of a precise debug stop (a breakpoint, not a monitor). -/
def Trap.ownersOnly (t : Trap) : Bool := t.code = 0x14 || (t.code = 0x17 && !bit t.info.toNat 8)

/-- A debug stop that is taken counts in its slot (R421, R422). -/
def State.countHit (s : State) (t : Trap) : State :=
  if t.code = 0x17 && !bit t.info.toNat 8 then match s.job with
    | some j => s.modJob j.id fun j =>
        let b := vget j.bps t.info.toNat {}
        { j with bps := vset j.bps t.info.toNat { b with hits := min (2 ^ 32 - 1) (b.hits + 1) } }
    | none => s
  else s

/-- A trap raised at the focused strand's instruction, outside a task (R389): the trap registers are set when TS = 0; the trap passes to
the owner, or the strand enters its trap handler with TS set, its other registers unchanged. -/
def State.enterTrap (s : State) (t : Trap) : State :=
  let pc := s.st.pc
  let s := s.trace 5 t.code (word pc)
  let was := s.st.ts
  let vec := s.st.csr.trapvec.toNat % 2 ^ 48
  let s := if was then s else s.modCsr fun c =>
    { c with trappc := word pc, trapcode := word t.code, trapinfo := t.info }
  let s := (s.countHit t).modSt fun st => { st with waiting := .none, age := 0 }
  if t.ownersOnly || was || vec = 0 || vec % 4 != 0 then s.passToOwner t pc was
  else s.modSt fun st => { st with ts := true, pc := vec, life := .run }

/-- Taking a trap: in a speculative task it is deferred, the strand in WAIT at its instruction (R277); a trap already deferred stays. Else it
is entered (R389). -/
def State.takeTrap (s : State) (t : Trap) : State :=
  match s.st.task with
  | some r => s.modSt fun st => { st with life := .wait, waiting := .none, age := 0, task := some { r with deferred := r.deferred.or (some t) } }
  | none => s.enterTrap t

/-- The return from a trap (R59): the trap state is left, and the strand goes on at TRAPPC, or at TRAPPC + 4. -/
def State.leaveTrap (s : State) (skip : Bool) : State :=
  s.modSt fun st => { st with ts := false, pc := (st.csr.trappc.toNat + if skip then 4 else 0) % 2 ^ 48 }

/-! ## Gangs (R144 to R147) -/

/-- The coordinates of the members of the focused strand's gang, the leader first; the core alone outside a gang. -/
def State.members (s : State) : List Nat :=
  let c := s.st.csr
  if c.gangSize = 0 then [s.here]
  else (List.range c.gangSize).map fun i => pack (s.core.x - c.gangPos + i) s.core.y

/-- One member leaves its gang: SIZE and POS are 0 and its q3 buffer is emptied (R29, R147). -/
def State.ungang (s : State) : State :=
  s.modSt fun st => { st with q3 := [], q3in := [], csr := { st.csr with gangSize := 0, gangPos := 0 } }

/-- Something done at each of a list of cores, on the strand of the same number. -/
def State.atAll (s : State) (cs : List Nat) (f : State → State) : State := cs.foldl (fun s c => s.atCore c s.k f) s

/-- A trap of the focused strand that is not the outcome of its gang's instruction (a monitor's BREAK): the gang dissolves, and the
other members trap GANG_BREAK (R147). -/
def State.trapMember (s : State) (t : Trap) : State :=
  if s.st.csr.gangSize = 0 then s.takeTrap t
  else
    let me := s.here
    let brk : Trap := { code := 0x11, info := word (me + t.code * 2 ^ 24) }
    s.atAll s.members fun s => (if s.here = me then s.ungang.takeTrap t else s.ungang.takeTrap brk)

/-! ## Carrying out an instruction -/

/-- The strand goes on at an address: RUN, nothing awaited, the last to issue on its core (R305). -/
def State.goTo (s : State) (pc : Nat) : State :=
  (s.modSt fun st => { st with pc := pc % 2 ^ 48, life := .run, waiting := .none, age := 0, passBp := false }).modCore
    fun c => { c with last := s.k }

/-- The strand waits (R8). -/
def State.park (s : State) : State := s.modSt fun st => { st with life := .wait, age := 0 }

/-- What an Act makes of the state the instruction began in, for a strand in no gang. -/
def settle (s : State) : Act → Host.Outcome State Fault Refusal
  | .next s' => .next (s'.goTo (s'.st.pc + 4))
  | .jump pc s' => .next (s'.goTo pc)
  | .hold => .next s.park
  | .wait f => .next (f s).park
  | .trap t f => .next ((f s).takeTrap t)
  | .gone s' => .next s'

/-- Whether a strand's instruction has issued and awaits something since: not a stall that keeps it from issuing (R8). -/
def Waiting.begun : Waiting → Bool
  | .none | .gate _ | .copy _ => false
  | _ => true

/-- The outcome of a gang's instruction so far: the state when every member has its effect, the members that cannot issue it, those that wait with
what they note, the traps, the leader's jump, the members that no longer run. -/
structure GangRun where
  st : State
  unissued : Bool := false
  waits : List (Nat × (State → State)) := []
  traps : List (Nat × Trap × (State → State)) := []
  target : Option Nat := none
  gone : List Nat := []

/-- One member's part of a gang's instruction. -/
def GangRun.step (body : State → Act) (lead : Nat) (r : GangRun) (c : Nat) : GangRun :=
  let s := r.st.focus c r.st.k
  match body s with
  | .next s => { r with st := s }
  | .jump pc s => { r with st := s, target := if c = lead then some pc else r.target }
  | .hold => { r with st := s, waits := r.waits ++ [(c, id)], unissued := r.unissued || !s.st.waiting.begun }
  | .wait f => { r with st := s, waits := r.waits ++ [(c, f)], unissued := r.unissued || !(f s).st.waiting.begun }
  | .trap t f => { r with st := s, traps := r.traps ++ [(c, t, f)] }
  | .gone s => { r with st := s, gone := r.gone ++ [c] }

/-- What the gang's instruction makes of the state (R146, R147). A trap of any member takes effect on none and dissolves the gang. It is
held until every member can issue it: until then no member has any of its effect or makes any request, and each keeps only what it notes about its
own stall. Once all have issued it, each keeps what it awaits; when none awaits anything
every member goes on together, its q3 buffers filled; where some end by it, the gang dissolves, and a member whose guard was false goes on
alone (R57, log entry 57). -/
def GangRun.settle (r : GangRun) (s : State) : State :=
  let cs := s.members
  let me := s.here
  match r.traps with
  | (c, t, _) :: _ =>
    let brk : Trap := { code := 0x11, info := word (c + t.code * 2 ^ 24) }
    s.atAll cs fun s =>
      let own := r.traps.find? fun x => x.1 == s.here
      let s := s.ungang
      match own with
      | some (_, t, f) => (f s).takeTrap t
      | none => s.takeTrap brk
  | [] =>
    if !r.waits.isEmpty then
      let note (f : State → State) (s : State) : State := if r.unissued && (f s).st.waiting.begun then s else f s
      (r.waits.foldl (fun s w => s.atCore w.1 s.k (note w.2)) s).atAll cs State.park
    else if !r.gone.isEmpty then
      (r.st.focus me s.k).atAll (cs.filter fun c => !r.gone.contains c) fun s => let s := s.ungang; s.goTo (s.st.pc + 4)
    else
      let full := cs.any fun c => let st := vget (r.st.coreAt c).strands s.k {}; 4 < st.q3.length + st.q3in.length
      if full then s.atAll cs State.park
      else
        let pc := (r.target).getD (s.st.pc + 4)
        (r.st.focus me s.k).atAll cs fun s => (s.modSt fun st => { st with q3 := st.q3 ++ st.q3in, q3in := [] }).goTo pc

/-- An instruction carried out on the focused strand, or on every member of its gang in one step (R146). -/
def perform (body : State → Act) (s : State) : Host.Outcome State Fault Refusal :=
  if s.st.csr.gangSize = 0 then settle s (body s)
  else .next ((s.members.foldl (GangRun.step body s.here) { st := s }).settle s)

/-- The operation that the next instruction meets: one that stalls its strand (R201), or the oldest whose destination is one of the general
registers that it names (R72, R79). -/
def Strand.pendingOn (st : Strand) (regs : List Nat) : Option Op :=
  st.ops.find? fun o => o.stalled || match o.d with
    | some d => regs.contains d
    | none => false

/-- An operation forgotten: completed, or its failure reported (R80). -/
def State.dropOp (s : State) (id : Nat) : State :=
  (s.modSt fun st => { st with ops := st.ops.filter fun o => o.id != id }).modCore
    fun c => { c with ranges := c.ranges.filter fun r => r.op != id }

/-- A recording strand has done something a negative does not hold (R325, SIDE). -/
def State.sideEffect (s : State) : State :=
  if s.core.tape.recording.isNone then s else s.modCore fun c => { c with tape := { c.tape with side := true } }

/-- The scoreboard (R72, R79): an instruction that names a register with a pending load waits for it, and traps when it failed. -/
def scoreboard (regs : List Nat) (body : State → Act) (s : State) : Act :=
  match s.st.pendingOn regs with
  | none => body s
  | some o =>
    match o.fail with
    | some t => if o.complete then .trap t fun s => s.dropOp o.id else .hold
    | none => .hold

/-- The checks that R34 and R41 put before and after the guard, then the body: q3 outside a gang is port misuse (R29), a false guard
does nothing, an operation forbidden in a speculative task traps SPEC_ILLEGAL, then the scoreboard. -/
def guarded (guard : Bool) (regs : List Nat) (spec : Bool) (body : State → Act) (s : State) : Act :=
  if regs.contains 31 && s.st.csr.gangSize = 0 then .ill s 4
  else if !guard then .next s
  else if spec && s.st.task.isSome then .code 0x12
  else scoreboard regs body s

/-- An instruction: its guard predicate, the general registers and ports it names, its body. -/
def issue (g : Nat) (regs : List Nat) (body : State → Act) (s : State) : Host.Outcome State Fault Refusal :=
  perform (fun s => guarded (s.p g) regs false body s) s

/-- An instruction that traps SPEC_ILLEGAL in a speculative task (R278). -/
def issueNoSpec (g : Nat) (regs : List Nat) (body : State → Act) (s : State) : Host.Outcome State Fault Refusal :=
  perform (fun s => guarded (s.p g) regs true body s) s

/-- An instruction whose guard is the leader's in a gang (R146). -/
def issueLead (guard : Bool) (regs : List Nat) (spec : Bool) (body : State → Act) (s : State) : Host.Outcome State Fault Refusal :=
  perform (fun s => guarded guard regs spec body s) s

/-- An event that changes the state and nothing else. -/
def event (s : State) : Host.Outcome State Fault Refusal := .next s

end Sys2Proof.Machine
end

