-- ==== Sys2Proof/Machine/Operands.lean ====
section
/-! DEFINITION. Operand forms: general registers and queue ports as sources and destinations (R28, R29, R30), operation sizes (R39,
R109), lanes of wide registers (R135), addresses (R44, R62, R70). -/

namespace Sys2Proof.Machine

/-! ## Sources and destinations (R29, R30) -/

/-- The base and the size of the porch ring in bytes (R214). -/
def Core.porchBase (c : Core) : Nat := bits c.porchcfg.toNat 9 0 * 256
def Core.porchSize (c : Core) : Nat := bits c.porchcfg.toNat 20 10 * 256

/-- The scratchpad offset of payload word i of a message on the focused core: from word 5 on it is in the message's porch space (R10, R215). -/
def State.q0At (s : State) (m : Msg) (i : Nat) : Option Nat :=
  if i < 5 then none
  else (s.core.ni.porch.find? fun a => a.key == m.key && !a.free).map fun a =>
    s.core.porchBase + (a.off + 8 * (i - 5)) % max s.core.porchSize 1

/-- Payload word i of a message on the focused core. -/
def State.q0Word (s : State) (m : Msg) (i : Nat) : Word := match s.q0At m i with
  | some a => word (s.core.scratch.rdN a 8)
  | none => m.word i

/-- The gated and waking banks that payload word i is read from (R346). -/
def State.q0Asleep (s : State) (m : Msg) (i : Nat) : List Nat := match s.q0At m i with
  | some a => s.sleeping [(a, 8)]
  | none => []

/-- A read of a general register or a port (R29): q0 pops the message's next payload word, q2 the next completion record, q3 a
doubleword of the left gang neighbour. The body goes on with the value; it is held while the port has to wait. -/
def src (i : Nat) (s : State) (f : Word → State → Act) : Act :=
  if i < 28 then f (s.g i) s
  else if i = 28 then
    match s.st.start with
    | some m =>
      if s.st.q0 < m.cap then match s.q0Asleep m s.st.q0 with
        | [] => f (s.q0Word m s.st.q0) (s.modSt fun st => { st with q0 := st.q0 + 1 })
        | bs => .wait fun s => s.wake bs
      else f 0 (s.setP 1 true)
    | none => f 0 (s.setP 1 true)
  else if i = 30 then
    match s.st.q2 with
    | w :: ws => f w (s.modSt fun st => { st with q2 := ws })
    | [] => if s.st.ops.any fun o => o.record && !o.complete then .hold else f 0 (s.setP 1 true)
  else if i = 31 then
    match s.st.q3 with
    | w :: ws => f w (s.modSt fun st => { st with q3 := ws })
    | [] => .hold
  else .ill s 4

/-- A write of a general register or a port, after which the strand goes on (R29): q1 pushes onto the payload being assembled, the
30th push traps ILLEGAL class 4; q3 pushes to the right gang neighbour. -/
def dst (d : Nat) (v : Word) (s : State) : Act :=
  if d < 28 then .next (s.setG d v)
  else if d = 29 then
    if 29 ≤ s.st.q1.length then .ill s 4 else .next (s.modSt fun st => { st with q1 := st.q1 ++ [v] })
  else if d = 31 then
    let c := s.st.csr
    let right := pack (s.core.x - c.gangPos + (c.gangPos + 1) % (max c.gangSize 1)) s.core.y
    .next (s.atCore right s.k fun s => s.modSt fun st => { st with q3in := st.q3in ++ [v] })
  else .ill s 4

/-- Two sources in order, the result written. -/
def op2 (d a b : Nat) (f : Word → Word → Word) (s : State) : Act :=
  src a s fun x s => src b s fun y s => dst d (f x y) s

/-- One source, the result written. -/
def op1 (d a : Nat) (f : Word → Word) (s : State) : Act := src a s fun x s => dst d (f x) s

/-! ## Sizes (R39, R109) -/

/-- The width in bits of a size code: 0 for 64, 1 for 32, 2 for 16, 3 for 8. -/
def widthOf (sz : Nat) : Nat := 64 / 2 ^ sz

/-- The width in bytes of a size field of the M format: 0 to 3 for 1, 2, 4 and 8 (R33). -/
def bytesOfSize (sz : Nat) : Nat := 2 ^ sz

/-- An n-bit result extended to 64 bits, by its sign or by zeros (R109). -/
def extend (n : Nat) (sgn : Bool) (v : Nat) : Word := if sgn then wordI (sext n v) else word (v % 2 ^ n)

/-- The signed or unsigned value of the low n bits. -/
def valueOf (n : Nat) (sgn : Bool) (v : Nat) : Int := if sgn then sext n v else (v % 2 ^ n : Nat)

/-! ## Addresses -/

/-- A signed field of n bits. -/
def simm (n v : Nat) : Int := sext n v

/-- VA of a pointer plus a signed offset, when it stays in 0 to 2^48 - 1 (R44). -/
def vaPlus (p : Word) (off : Int) : Option Nat :=
  let t : Int := (p.toNat % 2 ^ 48 : Nat) + off
  if 0 ≤ t ∧ t < 2 ^ 48 then some t.toNat else none

/-- A local address: an offset into the scratchpad, modulo 2^18 (R62). -/
def localAddr (base : Word) (off : Int) : Nat := (((base.toNat % 2 ^ 18 : Nat) + off) % (2 ^ 18 : Nat)).toNat

/-! ## Lanes (R135) -/

/-- The lanes of a wide register of L bits. -/
def wlanes (l : Nat) (w : Wide) : List Nat := lanes l (512 / l) w.toNat

/-- A wide register from lanes of L bits. -/
def ofWlanes (l : Nat) (ls : List Nat) : Wide := BitVec.ofNat 512 (ofLanes l ls)

/-- Lane-wise with two sources. -/
def wmap2 (l : Nat) (f : Nat → Nat → Nat) (a b : Wide) : Wide := ofWlanes l (List.zipWith f (wlanes l a) (wlanes l b))

/-- Lane-wise with one source. -/
def wmap (l : Nat) (f : Nat → Nat) (a : Wide) : Wide := ofWlanes l ((wlanes l a).map f)

end Sys2Proof.Machine
end

