-- ==== Sys2Proof/Machine/Flags.lean ====
section
/-! DEFINITION. The floating-point flags (R105) as a number in FPFLAGS order, their merge and the trap FP of an enabled exception (R106,
R107). -/

namespace Sys2Proof.Machine

/-- NX, UF, OF, DZ and NV in FPFLAGS order (R105). -/
def flagNX : Nat := 1
def flagUF : Nat := 2
def flagOF : Nat := 4
def flagDZ : Nat := 8
def flagNV : Nat := 16

/-- The trap enables of an FPCTL value, in FPFLAGS order (R103). -/
def enables (fpctl : Nat) : Nat := bits fpctl 9 5

/-- The rounding mode of an FPCTL value (R103). -/
def modeOf (fpctl : Nat) : Nat := bits fpctl 2 0
def fizOf (fpctl : Nat) : Bool := bit fpctl 3
def fozOf (fpctl : Nat) : Bool := bit fpctl 4

/-- A synchronous floating-point result (R106, R107): with an enabled exception the flags are set, nothing is written and FP is raised
with the exceptions in TRAPINFO; else the flags are set and the body goes on. -/
def withFlags (fpctl fl : Nat) (s : State) (f : State → Act) : Act :=
  if fl &&& enables fpctl != 0 then .trap { code := 0x15, info := word fl } fun s => s.orFlags fl
  else f (s.orFlags fl)

end Sys2Proof.Machine
end

