-- ==== Sys2Proof/Machine/Float.lean ====
section
/-! DEFINITION. Number formats and rounding (R85 to R94, R99 to R102): the value a pattern has, the one rounding of an exact value, and
the arithmetic of R124 to R130. A finite value is a sign, a magnitude m and an exponent e: m times 2^e; an exact value that is no such
number carries an odd last bit far below every decision point (`sticky`). -/

namespace Sys2Proof.Machine

/-- A floating-point value (R86, R87). -/
inductive FVal where
  | nan (signalling : Bool)
  | inf (neg : Bool)
  | fin (neg : Bool) (m : Nat) (e : Int)
  deriving DecidableEq, Repr, Inhabited

/-- A floating-point format: exponent bits, fraction bits, bias; narrow formats have neither infinities nor a negative zero (R86, R90, R91). -/
structure Fmt where
  eb : Nat
  fb : Nat
  bias : Nat
  narrow : Bool := false
  deriving DecidableEq, Repr, Inhabited

def f32 : Fmt := { eb := 8, fb := 23, bias := 127 }
def f16 : Fmt := { eb := 5, fb := 10, bias := 15 }
def bf16 : Fmt := { eb := 8, fb := 7, bias := 127 }
def f64 : Fmt := { eb := 11, fb := 52, bias := 1023 }
def qf8 : Fmt := { eb := 4, fb := 3, bias := 7, narrow := true }
def qf4 : Fmt := { eb := 2, fb := 1, bias := 1, narrow := true }

/-- The format of the two-bit format field of R39. -/
def fmtOf (f : Nat) : Fmt := if f = 1 then f16 else if f = 2 then bf16 else f32

def Fmt.width (f : Fmt) : Nat := 1 + f.eb + f.fb

/-- The largest exponent of a finite value. -/
def Fmt.emax (f : Fmt) : Int := if f.narrow then (2 ^ f.eb - 1 : Nat) - (f.bias : Int) else (2 ^ f.eb - 2 : Nat) - (f.bias : Int)

/-- The canonical NaN (R87): the quiet NaN with sign 0, or the single NaN code of a narrow format. -/
def Fmt.nan (f : Fmt) : Nat := if f.narrow then 2 ^ (f.eb + f.fb) else (2 ^ f.eb - 1) * 2 ^ f.fb + 2 ^ (f.fb - 1)

/-- Infinity and the largest finite value of a sign. -/
def Fmt.inf (f : Fmt) (neg : Bool) : Nat := num neg * 2 ^ (f.eb + f.fb) + (2 ^ f.eb - 1) * 2 ^ f.fb
def Fmt.maxFinite (f : Fmt) (neg : Bool) : Nat :=
  num neg * 2 ^ (f.eb + f.fb) + (if f.narrow then 2 ^ (f.eb + f.fb) - 1 else (2 ^ f.eb - 1) * 2 ^ f.fb - 1)

/-- The value of a pattern (R86, R87, R90, R91), a subnormal read as a zero of its sign when FIZ asks (R88). The one NaN
code of qf8 and of qf4 reads as a quiet NaN: DESIGN CHOICE, log entry 68. -/
def Fmt.value (f : Fmt) (fiz : Bool) (v : Nat) : FVal :=
  let neg := bit v (f.eb + f.fb)
  let e := v / 2 ^ f.fb % 2 ^ f.eb
  let m := v % 2 ^ f.fb
  if f.narrow then
    if v % 2 ^ f.width = f.nan then .nan false
    else if e = 0 then .fin neg m (1 - (f.bias : Int) - f.fb) else .fin neg (m + 2 ^ f.fb) ((e : Int) - f.bias - f.fb)
  else if e = 2 ^ f.eb - 1 then
    if m = 0 then .inf neg else .nan (!bit m (f.fb - 1))
  else if e = 0 then
    if fiz then .fin neg 0 0 else .fin neg m (1 - (f.bias : Int) - f.fb)
  else .fin neg (m + 2 ^ f.fb) ((e : Int) - f.bias - f.fb)

/-- The number of bits of a number. -/
def bitLength (n : Nat) : Nat := if n = 0 then 0 else Nat.log2 n + 1

/-- m·2^e rounded to a multiple of 2^q (R99): the multiple, and whether it is inexact. -/
def roundAt (rm : Nat) (neg : Bool) (m : Nat) (e q : Int) : Nat × Bool :=
  if q ≤ e then (m * 2 ^ (e - q).toNat, false)
  else
    let sh := (q - e).toNat
    let t := m / 2 ^ sh
    let r := m % 2 ^ sh
    if r = 0 then (t, false)
    else
      let half := 2 ^ (sh - 1)
      let up := match rm with
        | 0 => half < r || (r == half && t % 2 == 1)
        | 1 => false
        | 2 => !neg
        | 3 => neg
        | 4 => half ≤ r
        | _ => t % 2 == 0
      (t + num up, true)

/-- One rounding of the value (-1)^neg·m·2^e into a format (R99, R100, R88, R89): the pattern and the flags. -/
def Fmt.round (f : Fmt) (fpctl : Nat) (neg : Bool) (m : Nat) (e : Int) : Nat × Nat :=
  let rm := modeOf fpctl
  let sign := if f.narrow then 0 else num neg * 2 ^ (f.eb + f.fb)
  if m = 0 then (sign, 0)
  else
    let emin : Int := 1 - (f.bias : Int)
    let ex : Int := (bitLength m : Int) - 1 + e
    let q := max ex emin - f.fb
    let (r, inexact) := roundAt rm neg m e q
    let tiny := decide (ex < emin) && !(decide (ex = emin - 1) && (roundAt rm neg m e (ex - f.fb)).1 == 2 ^ (f.fb + 1))
    let big := bitLength r == f.fb + 2
    let q := if big then q + 1 else q
    let r := if big then r / 2 else r
    if decide (q + f.fb > f.emax) && 2 ^ f.fb ≤ r then
      let toMax := f.narrow || rm == 1 || rm == 5 || (rm == 2 && neg) || (rm == 3 && !neg)
      (if toMax then f.maxFinite neg else f.inf neg, flagOF + flagNX)
    else
      let fl := (if inexact then flagNX else 0) + (if tiny && inexact then flagUF else 0)
      let sub := r < 2 ^ f.fb
      if r = 0 then (sign, fl)
      else if sub && fozOf fpctl && !f.narrow then (sign, flagUF + flagNX)
      else
        let ebits := if sub then 0 else (q + f.fb + f.bias).toNat
        (num neg * 2 ^ (f.eb + f.fb) + ebits * 2 ^ f.fb + r % 2 ^ f.fb, fl)

/-- A value rounded into a format: NaN is the canonical NaN, an infinity stays one, or is the largest finite value with NV in a narrow
format (R87, R100). -/
def Fmt.pack (f : Fmt) (fpctl : Nat) : FVal → Nat × Nat
  | .nan sg => (f.nan, if sg then flagNV else 0)
  | .inf neg => if f.narrow then (f.maxFinite neg, flagNV) else (f.inf neg, 0)
  | .fin neg m e => f.round fpctl neg m e

/-- Flags of signalling operands (R87). -/
def sigFlags (vs : List FVal) : Nat := if vs.any (· == .nan true) then flagNV else 0

/-- A finite value as an integer multiple of 2^lo, for lo at or below its exponent. -/
def signedAt (neg : Bool) (m : Nat) (e lo : Int) : Int :=
  let v : Int := (m * 2 ^ (e - lo).toNat : Nat)
  if neg then -v else v

/-- The lowest exponent of some finite values. -/
def lowExp : List FVal → Int → Int
  | [], d => d
  | .fin _ _ e :: vs, d => lowExp vs (min e d)
  | _ :: vs, d => lowExp vs d

/-- The exact sum of values, rounded once (R99, R139): opposite infinities or a NaN give the canonical NaN; an exact zero takes the sign
its addends share, else + (− in RDN). -/
def Fmt.sum (f : Fmt) (fpctl : Nat) (vs : List FVal) : Nat × Nat :=
  let fl := sigFlags vs
  let pos := vs.any (· == .inf false)
  let neg := vs.any (· == .inf true)
  if vs.any fun v => match v with | .nan _ => true | _ => false then (f.nan, if pos && neg then fl ||| flagNV else fl)
  else if pos && neg then (f.nan, flagNV)
  else if pos || neg then (f.inf neg, 0)
  else
    let lo := lowExp vs 0
    let t := vs.foldl (fun (a : Int) v => match v with | .fin n m e => a + signedAt n m e lo | _ => a) 0
    if t = 0 then
      let allNeg := vs.all fun v => match v with | .fin n _ _ => n | _ => false
      let allPos := vs.all fun v => match v with | .fin n _ _ => !n | _ => false
      let zneg := if allNeg then true else if allPos then false else modeOf fpctl == 3
      f.round fpctl zneg 0 0
    else f.round fpctl (t < 0) t.natAbs lo

def FVal.negate : FVal → FVal
  | .nan s => .nan s
  | .inf n => .inf (!n)
  | .fin n m e => .fin (!n) m e

/-- The exact product of two values; 0 times an infinity is none (R127). -/
def FVal.mul : FVal → FVal → Option FVal
  | .nan s, .nan t => some (.nan (s || t))
  | .nan s, _ => some (.nan s)
  | _, .nan s => some (.nan s)
  | .inf a, .inf b => some (.inf (a != b))
  | .inf a, .fin b m _ => if m = 0 then none else some (.inf (a != b))
  | .fin a m _, .inf b => if m = 0 then none else some (.inf (a != b))
  | .fin a m e, .fin b n d => some (.fin (a != b) (m * n) (e + d))

/-- A quotient of two magnitudes with a sticky last bit: at least 70 bits of it. -/
def stickyDiv (a b : Nat) : Nat × Int :=
  let sh := 70 + bitLength b
  let n := a * 2 ^ sh
  (n / b * 2 + num (n % b != 0), -(sh : Int) - 1)

/-- A square root of a magnitude, bit by bit from 2^n down. -/
def isqrt : Nat → Nat → Nat → Nat
  | 0, _, r => r
  | n + 1, v, r => let r' := r + 2 ^ n; isqrt n v (if r' * r' ≤ v then r' else r)

/-- The integer square root. -/
def sqrtNat (v : Nat) : Nat := isqrt (bitLength v / 2 + 1) v 0

/-- The square root of m·2^e with a sticky last bit. -/
def stickySqrt (m : Nat) (e : Int) : Nat × Int :=
  let m1 := if e % 2 = 0 then m else 2 * m
  let e1 := if e % 2 = 0 then e else e - 1
  let v := m1 * 2 ^ 80
  let r := sqrtNat v
  (2 * r + num (r * r != v), (e1 - 80) / 2 - 1)

/-- The reciprocal square root of m·2^e with a sticky last bit. -/
def stickyRsqrt (m : Nat) (e : Int) : Nat × Int :=
  let m1 := if e % 2 = 0 then m else 2 * m
  let e1 := if e % 2 = 0 then e else e - 1
  let r := sqrtNat (2 ^ 160 / m1)
  (2 * r + num (r * r * m1 != 2 ^ 160), -80 - e1 / 2 - 1)

/-! ## exp2 and log2 (R129, log entry 13) -/

/-- The working precision of exp2 and log2. -/
def expBits : Nat := 256

/-- ln 2 times 2^256, from the sum of 1/(k·2^k). -/
def ln2Fix : Nat := (List.range 260).foldl (fun a k => a + 2 ^ (expBits + 20) / ((k + 1) * 2 ^ (k + 1))) 0 / 2 ^ 20

/-- exp t times 2^256 for t·2^-256 in 0 to 1: the Taylor sum. -/
def expFix (t : Nat) : Nat :=
  ((List.range 70).foldl (fun (acc : Nat × Nat) k =>
    let term := acc.2 * t / (2 ^ expBits * (k + 1))
    (acc.1 + term, term)) (2 ^ expBits, 2 ^ expBits)).1

/-- ln of m·2^-256 for m·2^-256 in 1 to 2, times 2^256: twice the area tangent of (m-1)/(m+1). -/
def lnFix (m : Nat) : Nat :=
  let z := (m - 2 ^ expBits) * 2 ^ expBits / (m + 2 ^ expBits)
  let z2 := z * z / 2 ^ expBits
  2 * ((List.range 85).foldl (fun (acc : Nat × Nat) k =>
    (acc.1 + acc.2 / (2 * k + 1), acc.2 * z2 / 2 ^ expBits)) (0, z)).1

/-- 2 to the power x, rounded once (R129). -/
def exp2Round (fpctl : Nat) (neg : Bool) (m : Nat) (e : Int) : Nat × Nat :=
  if m = 0 then f32.round fpctl false 1 0
  else if decide ((bitLength m : Int) + e > 9) then
    (if neg then f32.round fpctl false 1 (-1000) else f32.round fpctl false 3 1000)
  else
    -- x as a multiple of 2^-256, rounded to none: every FP32 value is one
    let v : Int := signedAt neg m e (-(expBits : Int))
    let i := v / (2 ^ expBits : Nat)
    let f := (v % (2 ^ expBits : Nat)).toNat
    if f = 0 then f32.round fpctl false 1 i
    else f32.round fpctl false (2 * expFix (f * ln2Fix / 2 ^ expBits) + 1) (i - expBits - 1)

/-- The binary logarithm of m·2^e, rounded once (R129). -/
def log2Round (fpctl m : Nat) (e : Int) : Nat × Nat :=
  let l := bitLength m - 1
  let i : Int := (l : Int) + e
  if m = 2 ^ l then f32.round fpctl (i < 0) i.natAbs 0
  else
    let mant := m * 2 ^ (expBits - l)
    let frac := lnFix mant * 2 ^ expBits / ln2Fix
    let v : Int := 2 * (i * (2 ^ expBits : Nat) + (frac : Int)) + 1
    f32.round fpctl (v < 0) v.natAbs (-(expBits : Int) - 1)

/-! ## Scalar operations (R124 to R129) -/

/-- A total order key of non-NaN values with −0 below +0 (R126). -/
def Fmt.key (f : Fmt) (v : Nat) : Int :=
  let mag : Int := (v % 2 ^ (f.eb + f.fb) : Nat)
  if bit v (f.eb + f.fb) then -mag - 1 else mag

def FVal.isNan : FVal → Bool
  | .nan _ => true
  | _ => false

def FVal.isZero : FVal → Bool
  | .fin _ m _ => m == 0
  | _ => false

/-- An operand pattern as FIZ reads it (R88). -/
def Fmt.flushIn (f : Fmt) (fpctl v : Nat) : Nat :=
  if fizOf fpctl && v / 2 ^ f.fb % 2 ^ f.eb = 0 then v % 2 ^ f.width / 2 ^ (f.eb + f.fb) * 2 ^ (f.eb + f.fb) else v % 2 ^ f.width

/-- fmin and fmax (R126): a NaN operand counts as absent; FIZ reads a subnormal operand as zero, FOZ does not apply to a result that is
an operand (log entry 14). -/
def Fmt.minmax (f : Fmt) (isMax : Bool) (fpctl a b : Nat) : Nat × Nat :=
  let va := f.value false a
  let vb := f.value false b
  let fl := sigFlags [va, vb]
  let x := f.flushIn fpctl a
  let y := f.flushIn fpctl b
  if va.isNan && vb.isNan then (f.nan, fl)
  else if va.isNan then (y, fl)
  else if vb.isNan then (x, fl)
  else
    let less := decide (f.key x ≤ f.key y)
    (if less != isMax then x else y, fl)

/-- FARITH (R125): the operation of its code on two patterns: the pattern and the flags. -/
def Fmt.arith (f : Fmt) (op fpctl a b : Nat) : Nat × Nat :=
  let fiz := fizOf fpctl
  let x := f.value fiz a
  let y := f.value fiz b
  match op with
  | 0 => f.sum fpctl [x, y]
  | 1 => f.sum fpctl [x, y.negate]
  | 2 =>
    match x.mul y with
    | none => (f.nan, flagNV ||| sigFlags [x, y])
    | some p => f.pack fpctl p
  | 3 =>
    match x, y with
    | .fin n m e, .fin k d g =>
      if d = 0 then (if m = 0 then (f.nan, flagNV) else (f.inf (n != k), flagDZ))
      else
        let (q, s) := stickyDiv m d
        f.round fpctl (n != k) q (s + e - g)
    | .inf _, .inf _ => (f.nan, flagNV)
    | .inf n, .fin k _ _ => (f.inf (n != k), 0)
    | .fin n _ _, .inf k => f.round fpctl (n != k) 0 0
    | x, y => (f.nan, sigFlags [x, y])
  | 4 => f.minmax false fpctl a b
  | 5 => f.minmax true fpctl a b
  | 6 => if (f.value false a).isNan then (f.nan, 0) else (a % 2 ^ (f.eb + f.fb), 0)
  | _ =>
    if (f.value false a).isNan then (f.nan, 0)
    else (a % 2 ^ (f.eb + f.fb) + num (!bit a (f.eb + f.fb)) * 2 ^ (f.eb + f.fb), 0)

/-- FFMA (R127): a·b plus or minus c, or its negation, rounded once. A product of 0 and ∞ is NaN with NV. -/
def fmaRound (sub fpctl a b c : Nat) : Nat × Nat :=
  let fiz := fizOf fpctl
  let x := f32.value fiz a
  let y := f32.value fiz b
  let z := f32.value fiz c
  match x.mul y with
  | none => (f32.nan, flagNV)
  | some p =>
    let p := if 2 ≤ sub then p.negate else p
    let z' := if sub % 2 = 1 then z.negate else z
    f32.sum fpctl [p, z']

/-- FCMP (R128): whether the comparison of a code holds, and the flags. The two zeros compare equal. -/
def Fmt.compare (f : Fmt) (code fpctl a b : Nat) : Bool × Nat :=
  let x := f.value (fizOf fpctl) a
  let y := f.value (fizOf fpctl) b
  let nan := x.isNan || y.isNan
  let a' := f.flushIn fpctl a
  let b' := f.flushIn fpctl b
  let k (v : Nat) : Int := let m : Int := (v % 2 ^ (f.eb + f.fb) : Nat); if bit v (f.eb + f.fb) then -m else m
  let sig := sigFlags [x, y]
  match code with
  | 0 => (!nan && k a' == k b', sig)
  | 1 => (nan || k a' != k b', sig)
  | 2 => (!nan && k a' < k b', if nan then flagNV else 0)
  | 3 => (!nan && k a' ≤ k b', if nan then flagNV else 0)
  | _ => (nan, sig)

/-- SFU (R129): fsqrt, rcp, rsqrt, exp2, log2 of an FP32 pattern. -/
def sfuRound (op fpctl a : Nat) : Nat × Nat :=
  let f := f32
  match f.value (fizOf fpctl) a with
  | .nan s => (f.nan, if s then flagNV else 0)
  | .inf neg =>
    match op with
    | 1 => f.round fpctl neg 0 0
    | 3 => if neg then (0, 0) else (f.inf false, 0)
    | 2 => if neg then (f.nan, flagNV) else (0, 0)
    | _ => if neg then (f.nan, flagNV) else (f.inf false, 0)
  | .fin neg m e =>
    match op with
    | 0 =>
      if m = 0 then (num neg * 2 ^ 31, 0)
      else if neg then (f.nan, flagNV)
      else let (r, x) := stickySqrt m e; f.round fpctl false r x
    | 1 =>
      if m = 0 then (f.inf neg, flagDZ)
      else let (q, x) := stickyDiv 1 m; f.round fpctl neg q (x - e)
    | 2 =>
      if m = 0 then (f.inf neg, flagDZ)
      else if neg then (f.nan, flagNV)
      else let (r, x) := stickyRsqrt m e; f.round fpctl false r x
    | 3 => exp2Round fpctl neg m e
    | _ =>
      if m = 0 then (f.inf true, flagDZ)
      else if neg then (f.nan, flagNV)
      else log2Round fpctl m e

/-! ## Conversions (R101, R102, R130) -/

/-- The width of a conversion type: 0 and 1 the wide integers of n bits, 2 f32, 3 f16, 4 bf16, 5 qf8, 6 qf4, 7 i8. -/
def cvtWidth (n t : Nat) : Nat := if t ≤ 1 then n else if t = 2 then 32 else if t ≤ 4 then 16 else if t = 6 then 4 else 8

def cvtFmt (t : Nat) : Fmt := if t = 2 then f32 else if t = 3 then f16 else if t = 4 then bf16 else if t = 5 then qf8 else qf4

/-- An integer as a value. -/
def intVal (v : Int) : FVal := .fin (v < 0) v.natAbs 0

/-- The value of a source element and the flags reading it sets: the code 0x80 of i8 reads as 0 with NV (R92). -/
def cvtSource (n t fpctl v : Nat) : FVal × Nat :=
  match t with
  | 0 => (intVal (sext n v), 0)
  | 1 => (intVal (v % 2 ^ n : Nat), 0)
  | 7 => if v % 256 = 128 then (intVal 0, flagNV) else (intVal (sext 8 v), 0)
  | _ => ((cvtFmt t).value (fizOf fpctl) v, 0)

/-- A value rounded to an integer by the mode and saturated to a range, as a pattern of n bits (R101). -/
def toInt (n : Nat) (lo hi : Int) (fpctl : Nat) : FVal → Nat × Nat
  | .nan _ => (0, flagNV)
  | .inf neg => (wrap n (if neg then lo else hi), flagNV)
  | .fin neg m e =>
    let (r, inexact) := roundAt (modeOf fpctl) neg m e 0
    let v : Int := if neg then -(r : Int) else r
    if v < lo then (wrap n lo, flagNV)
    else if hi < v then (wrap n hi, flagNV)
    else (wrap n v, if inexact then flagNX else 0)

/-- A conversion (R130): destination type and width, source type and width, the pattern. -/
def convertBetween (nd dt ns st fpctl v : Nat) : Nat × Nat :=
  let (x, fl) := cvtSource ns st fpctl v
  let r := match dt with
    | 0 => toInt nd (-(2 ^ (nd - 1) : Nat)) ((2 ^ (nd - 1) : Nat) - 1) fpctl x
    | 1 => toInt nd 0 ((2 ^ nd : Nat) - 1) fpctl x
    | 7 => toInt 8 (-127) 127 fpctl x
    | _ => (cvtFmt dt).pack fpctl x
  (r.1, r.2 ||| fl ||| (match x with | .nan true => flagNV | _ => 0))

/-- A conversion whose integer types are n bits wide. -/
def convert (n dt st fpctl v : Nat) : Nat × Nat := convertBetween n dt n st fpctl v

/-- The conversion type and the width in bits of a format code that CPY converts (R75). -/
def cvtOfFmt (f : Nat) : Option (Nat × Nat) :=
  match f with
  | 1 => some (1, 8)
  | 2 => some (0, 16)
  | 3 => some (0, 32)
  | 4 => some (0, 64)
  | 8 => some (2, 32)
  | 9 => some (3, 16)
  | 10 => some (4, 16)
  | 11 => some (5, 8)
  | 12 => some (6, 4)
  | 13 => some (7, 8)
  | _ => none

/-- FPCTL with the mode forced to round-to-odd, the enables kept (R130). -/
def forceRto (fpctl : Nat) : Nat := fpctl / 8 * 8 + 5

end Sys2Proof.Machine
end

