-- ==== Sys2Proof/Machine/IntAlu.lean ====
section
/-! DEFINITION. Integer instructions (R109 to R123) and the floating-point-flag instructions (R108). Each instruction of the fn layout of
R39 works at its operation size n: the low n bits of each source, an n-bit result extended by sgn (R109). -/

namespace Sys2Proof.Machine

/-- n-bit results (R110): a function of the width and the two n-bit source values. -/
def addN (n x y : Nat) : Nat := (x + y) % 2 ^ n
def subN (n x y : Nat) : Nat := (x + 2 ^ n - y % 2 ^ n) % 2 ^ n
def andN (_n x y : Nat) : Nat := x &&& y
def orN (_n x y : Nat) : Nat := x ||| y
def xorN (_n x y : Nat) : Nat := x ^^^ y
def notN (n x : Nat) : Nat := 2 ^ n - 1 - x % 2 ^ n
def andnN (n x y : Nat) : Nat := x &&& notN n y
def ornN (n x y : Nat) : Nat := x ||| notN n y
def xnorN (n x y : Nat) : Nat := notN n (x ^^^ y)
def shlN (n x y : Nat) : Nat := x * 2 ^ (y % n) % 2 ^ n
def shrN (n x y : Nat) : Nat := x / 2 ^ (y % n)
def sraN (n x y : Nat) : Nat := wrap n (sext n x / (2 ^ (y % n) : Nat))
def rolN (n x y : Nat) : Nat := (x * 2 ^ (y % n) + x / 2 ^ (n - y % n)) % 2 ^ n
def rorN (n x y : Nat) : Nat := (x / 2 ^ (y % n) + x * 2 ^ (n - y % n)) % 2 ^ n
def mulN (n x y : Nat) : Nat := x * y % 2 ^ n

/-- The high half of the product, signed or unsigned (R114). -/
def mulhN (n : Nat) (sgn : Bool) (x y : Nat) : Nat := wrap n (valueOf n sgn x * valueOf n sgn y / (2 ^ n : Nat))

/-- Quotient and remainder (R85, R115): truncated toward zero; by zero all ones and the dividend. -/
def divN (n : Nat) (sgn : Bool) (x y : Nat) : Nat :=
  if y = 0 then 2 ^ n - 1 else wrap n ((valueOf n sgn x).tdiv (valueOf n sgn y))
def remN (n : Nat) (sgn : Bool) (x y : Nat) : Nat :=
  if y = 0 then x else wrap n ((valueOf n sgn x).tmod (valueOf n sgn y))

/-- Minimum, maximum, absolute difference (R116). -/
def minN (n : Nat) (sgn : Bool) (x y : Nat) : Nat := if valueOf n sgn x ≤ valueOf n sgn y then x else y
def maxN (n : Nat) (sgn : Bool) (x y : Nat) : Nat := if valueOf n sgn x ≤ valueOf n sgn y then y else x
def absdN (n : Nat) (sgn : Bool) (x y : Nat) : Nat := (valueOf n sgn x - valueOf n sgn y).natAbs % 2 ^ n

/-- Counts and reversals of an n-bit value (R118). -/
def clzN (n x : Nat) : Nat := n - bitLength x
def ctzGo : Nat → Nat → Nat
  | 0, _ => 0
  | k + 1, x => if x % 2 = 1 then 0 else ctzGo k (x / 2) + 1
def ctzN (n x : Nat) : Nat := ctzGo n x
def popN (n x : Nat) : Nat := ((lanes 1 n x).filter (· == 1)).length
def brevN (n x : Nat) : Nat := ofLanes 1 (lanes 1 n x).reverse
def bswapN (n x : Nat) : Nat := ofLanes 8 (lanes 8 (n / 8) x).reverse

/-- An instruction of two n-bit sources (R109). -/
def intOp (d a b sz sgn g : Nat) (f : Nat → Nat → Nat → Nat) : State → Host.Outcome State Fault Refusal :=
  let n := widthOf sz
  issue g [d, a, b] (op2 d a b fun x y => extend n (sgn == 1) (f n (x.toNat % 2 ^ n) (y.toNat % 2 ^ n)))

/-- A division or remainder: FPFLAGS.DZ is set by a zero divisor, whatever DZE holds (R85, R115). -/
def divOp (d a b sz sgn g : Nat) (f : Nat → Bool → Nat → Nat → Nat) : State → Host.Outcome State Fault Refusal :=
  let n := widthOf sz
  issue g [d, a, b] fun s => src a s fun x s => src b s fun y s =>
    dst d (extend n (sgn == 1) (f n (sgn == 1) (x.toNat % 2 ^ n) (y.toNat % 2 ^ n)))
      (if y.toNat % 2 ^ n = 0 then s.orFlags flagDZ else s)

/-- An instruction with a sign-extended 12-bit immediate, in 64 bits (R111). -/
def immOp (d a imm g : Nat) (f : Word → Word → Word) : State → Host.Outcome State Fault Refusal :=
  issue g [d, a] (op1 d a fun x => f x (wordI (sext 12 imm)))

/-- A shift by an immediate, in 64 bits (R112). -/
def shOp (d a sh g : Nat) (f : Nat → Nat → Nat → Nat) : State → Host.Outcome State Fault Refusal :=
  issue g [d, a] (op1 d a fun x => word (f 64 x.toNat (sh % 64)))

/-- A comparison into a predicate (R117). -/
def cmpOp (p a b sz sgn g : Nat) (f : Int → Int → Bool) : State → Host.Outcome State Fault Refusal :=
  let n := widthOf sz
  issue g [a, b] fun s => src a s fun x s => src b s fun y s =>
    .next (s.setP p (f (valueOf n (sgn == 1) x.toNat) (valueOf n (sgn == 1) y.toNat)))

/-- A comparison with a signed 9-bit immediate, in 64 bits, as signed or as unsigned numbers (R117, R40). -/
def cmpiOp (p a imm g : Nat) (signed : Bool) (f : Int → Int → Bool) : State → Host.Outcome State Fault Refusal :=
  issue g [a] fun s => src a s fun x s =>
    .next (s.setP p (f (valueOf 64 signed x.toNat) (valueOf 64 signed (wordI (sext 9 imm)).toNat)))

/-- A count or reversal (R118): counts are zero-extended, bswap and brev extended by sgn. -/
def bitsOp (d a sz g : Nat) (sgn : Bool) (f : Nat → Nat → Nat) : State → Host.Outcome State Fault Refusal :=
  let n := widthOf sz
  issue g [d, a] (op1 d a fun x => extend n sgn (f n (x.toNat % 2 ^ n)))

/-- A predicate operation (R120). -/
def predOp (d a b g : Nat) (f : Bool → Bool → Bool) : State → Host.Outcome State Fault Refusal :=
  issue g [] fun s => .next (s.setP d (f (s.p a) (s.p b)))

/-- VA moved by an offset, bits 63:48 kept; ADDR_OVF outside 48 bits (R44, R121). -/
def addaBody (d : Nat) (p : Word) (off : Int) (s : State) : Act :=
  match vaPlus p off with
  | some va => dst d (word (bits p.toNat 63 48 * 2 ^ 48 + va)) s
  | none => .code 4

/-- add (R110). -/
def execAdd (d a b sz sgn g : Nat) : State → Host.Outcome State Fault Refusal :=
  intOp d a b sz sgn g addN

/-- sub (R110). -/
def execSub (d a b sz sgn g : Nat) : State → Host.Outcome State Fault Refusal :=
  intOp d a b sz sgn g subN

/-- and (R110). -/
def execAnd (d a b sz sgn g : Nat) : State → Host.Outcome State Fault Refusal :=
  intOp d a b sz sgn g andN

/-- or (R110). -/
def execOr (d a b sz sgn g : Nat) : State → Host.Outcome State Fault Refusal :=
  intOp d a b sz sgn g orN

/-- xor (R110). -/
def execXor (d a b sz sgn g : Nat) : State → Host.Outcome State Fault Refusal :=
  intOp d a b sz sgn g xorN

/-- andn (R110). -/
def execAndn (d a b sz sgn g : Nat) : State → Host.Outcome State Fault Refusal :=
  intOp d a b sz sgn g andnN

/-- orn (R110). -/
def execOrn (d a b sz sgn g : Nat) : State → Host.Outcome State Fault Refusal :=
  intOp d a b sz sgn g ornN

/-- xnor (R110). -/
def execXnor (d a b sz sgn g : Nat) : State → Host.Outcome State Fault Refusal :=
  intOp d a b sz sgn g xnorN

/-- shl (R110). -/
def execShl (d a b sz sgn g : Nat) : State → Host.Outcome State Fault Refusal :=
  intOp d a b sz sgn g shlN

/-- shr (R110). -/
def execShr (d a b sz sgn g : Nat) : State → Host.Outcome State Fault Refusal :=
  intOp d a b sz sgn g shrN

/-- sra (R110). -/
def execSra (d a b sz sgn g : Nat) : State → Host.Outcome State Fault Refusal :=
  intOp d a b sz sgn g sraN

/-- rol (R110). -/
def execRol (d a b sz sgn g : Nat) : State → Host.Outcome State Fault Refusal :=
  intOp d a b sz sgn g rolN

/-- ror (R110). -/
def execRor (d a b sz sgn g : Nat) : State → Host.Outcome State Fault Refusal :=
  intOp d a b sz sgn g rorN

/-- addi (R111). -/
def execAddi (d a imm g : Nat) : State → Host.Outcome State Fault Refusal :=
  immOp d a imm g fun x k => x + k

/-- andi (R111). -/
def execAndi (d a imm g : Nat) : State → Host.Outcome State Fault Refusal :=
  immOp d a imm g fun x k => x &&& k

/-- ori (R111). -/
def execOri (d a imm g : Nat) : State → Host.Outcome State Fault Refusal :=
  immOp d a imm g fun x k => x ||| k

/-- xori (R111). -/
def execXori (d a imm g : Nat) : State → Host.Outcome State Fault Refusal :=
  immOp d a imm g fun x k => x ^^^ k

/-- shli (R112). -/
def execShli (d a sh g : Nat) : State → Host.Outcome State Fault Refusal :=
  shOp d a sh g shlN

/-- shri (R112). -/
def execShri (d a sh g : Nat) : State → Host.Outcome State Fault Refusal :=
  shOp d a sh g shrN

/-- srai (R112). -/
def execSrai (d a sh g : Nat) : State → Host.Outcome State Fault Refusal :=
  shOp d a sh g sraN

/-- mul: the low n bits of the product (R114). -/
def execMul (d a b sz sgn g : Nat) : State → Host.Outcome State Fault Refusal :=
  intOp d a b sz sgn g mulN

/-- mulh: the high n bits of the product (R114). -/
def execMulh (d a b sz sgn g : Nat) : State → Host.Outcome State Fault Refusal :=
  intOp d a b sz sgn g fun n => mulhN n (sgn == 1)

/-- div (R85, R115). -/
def execDiv (d a b sz sgn g : Nat) : State → Host.Outcome State Fault Refusal :=
  divOp d a b sz sgn g divN

/-- rem (R85, R115). -/
def execRem (d a b sz sgn g : Nat) : State → Host.Outcome State Fault Refusal :=
  divOp d a b sz sgn g remN

/-- cmp.eq (R117). -/
def execCmpEq (p a b sz sgn g : Nat) : State → Host.Outcome State Fault Refusal :=
  cmpOp p a b sz sgn g fun x y => x == y

/-- cmp.ne (R117). -/
def execCmpNe (p a b sz sgn g : Nat) : State → Host.Outcome State Fault Refusal :=
  cmpOp p a b sz sgn g fun x y => x != y

/-- cmp.lt (R117). -/
def execCmpLt (p a b sz sgn g : Nat) : State → Host.Outcome State Fault Refusal :=
  cmpOp p a b sz sgn g fun x y => decide (x < y)

/-- cmp.le (R117). -/
def execCmpLe (p a b sz sgn g : Nat) : State → Host.Outcome State Fault Refusal :=
  cmpOp p a b sz sgn g fun x y => decide (x ≤ y)

/-- cmp.gt (R117). -/
def execCmpGt (p a b sz sgn g : Nat) : State → Host.Outcome State Fault Refusal :=
  cmpOp p a b sz sgn g fun x y => decide (y < x)

/-- cmp.ge (R117). -/
def execCmpGe (p a b sz sgn g : Nat) : State → Host.Outcome State Fault Refusal :=
  cmpOp p a b sz sgn g fun x y => decide (y ≤ x)

/-- cmpi Eq (R117, R40). -/
def execCmpiEq (p a imm g : Nat) : State → Host.Outcome State Fault Refusal :=
  cmpiOp p a imm g true fun x y => x == y

/-- cmpi Ne (R117, R40). -/
def execCmpiNe (p a imm g : Nat) : State → Host.Outcome State Fault Refusal :=
  cmpiOp p a imm g true fun x y => x != y

/-- cmpi LtS64 (R117, R40). -/
def execCmpiLtS64 (p a imm g : Nat) : State → Host.Outcome State Fault Refusal :=
  cmpiOp p a imm g true fun x y => decide (x < y)

/-- cmpi LeS64 (R117, R40). -/
def execCmpiLeS64 (p a imm g : Nat) : State → Host.Outcome State Fault Refusal :=
  cmpiOp p a imm g true fun x y => decide (x ≤ y)

/-- cmpi GtS64 (R117, R40). -/
def execCmpiGtS64 (p a imm g : Nat) : State → Host.Outcome State Fault Refusal :=
  cmpiOp p a imm g true fun x y => decide (y < x)

/-- cmpi GeS64 (R117, R40). -/
def execCmpiGeS64 (p a imm g : Nat) : State → Host.Outcome State Fault Refusal :=
  cmpiOp p a imm g true fun x y => decide (y ≤ x)

/-- cmpi LtZ64 (R117, R40). -/
def execCmpiLtZ64 (p a imm g : Nat) : State → Host.Outcome State Fault Refusal :=
  cmpiOp p a imm g false fun x y => decide (x < y)

/-- cmpi GeZ64 (R117, R40). -/
def execCmpiGeZ64 (p a imm g : Nat) : State → Host.Outcome State Fault Refusal :=
  cmpiOp p a imm g false fun x y => decide (y ≤ x)

/-- clz (R118). -/
def execClz (d a sz _sgn g : Nat) : State → Host.Outcome State Fault Refusal :=
  bitsOp d a sz g false clzN

/-- ctz (R118). -/
def execCtz (d a sz _sgn g : Nat) : State → Host.Outcome State Fault Refusal :=
  bitsOp d a sz g false ctzN

/-- popc (R118). -/
def execPopc (d a sz _sgn g : Nat) : State → Host.Outcome State Fault Refusal :=
  bitsOp d a sz g false popN

/-- brev (R118). -/
def execBrev (d a sz sgn g : Nat) : State → Host.Outcome State Fault Refusal :=
  bitsOp d a sz g (sgn == 1) brevN

/-- bswap (R118). -/
def execBswap (d a sz sgn g : Nat) : State → Host.Outcome State Fault Refusal :=
  bitsOp d a sz g (sgn == 1) bswapN

/-- sel (R119): the predicate chooses between two sources, in 64 bits. -/
def execSel (d a b p g : Nat) : State → Host.Outcome State Fault Refusal :=
  issue g [d, a, b] fun s => src a s fun x s => src b s fun y s => dst d (if s.p p then x else y) s

/-- li (R113): the sign-extended 20-bit immediate; no guard. -/
def execLi (d imm : Nat) : State → Host.Outcome State Fault Refusal :=
  issue 0 [d] fun s => dst d (wordI (sext 20 imm)) s

/-- lui (R113): the immediate times 2^12, sign-extended from bit 31; no guard. -/
def execLui (d imm : Nat) : State → Host.Outcome State Fault Refusal :=
  issue 0 [d] fun s => dst d (wordI (sext 32 (imm * 2 ^ 12))) s

/-- adda (R121). -/
def execAdda (d a b g : Nat) : State → Host.Outcome State Fault Refusal :=
  issue g [d, a, b] fun s => src a s fun x s => src b s fun y s => addaBody d x (sext 64 y.toNat) s

/-- addai (R121). -/
def execAddai (d a imm g : Nat) : State → Host.Outcome State Fault Refusal :=
  issue g [d, a] fun s => src a s fun x s => addaBody d x (sext 12 imm) s

/-- ptr.set (R122). -/
def execPtrSet (d a b g : Nat) : State → Host.Outcome State Fault Refusal :=
  issue g [d, a, b] (op2 d a b fun x y => word (y.toNat % 2 ^ 16 * 2 ^ 48 + x.toNat % 2 ^ 48))

/-- ptr.get (R122). -/
def execPtrGet (d a g : Nat) : State → Host.Outcome State Fault Refusal :=
  issue g [d, a] (op1 d a fun x => word (bits x.toNat 63 48))

/-- ptr.clr (R122). -/
def execPtrClr (d a g : Nat) : State → Host.Outcome State Fault Refusal :=
  issue g [d, a] (op1 d a fun x => word (x.toNat % 2 ^ 48))

/-- pred.and (R120). -/
def execPredAnd (d a b g : Nat) : State → Host.Outcome State Fault Refusal :=
  predOp d a b g fun x y => x && y

/-- pred.or (R120). -/
def execPredOr (d a b g : Nat) : State → Host.Outcome State Fault Refusal :=
  predOp d a b g fun x y => x || y

/-- pred.xor (R120). -/
def execPredXor (d a b g : Nat) : State → Host.Outcome State Fault Refusal :=
  predOp d a b g fun x y => x != y

/-- pred.andn (R120). -/
def execPredAndn (d a b g : Nat) : State → Host.Outcome State Fault Refusal :=
  predOp d a b g fun x y => x && !y

/-- pred.not (R120). -/
def execPredNot (d a g : Nat) : State → Host.Outcome State Fault Refusal :=
  predOp d a a g fun x _ => !x

/-- pred.fromg (R120). -/
def execPredFromg (d a g : Nat) : State → Host.Outcome State Fault Refusal :=
  issue g [a] fun s => src a s fun x s => .next (s.setP d (x != 0))

/-- pred.tog (R120). -/
def execPredTog (d a g : Nat) : State → Host.Outcome State Fault Refusal :=
  issue g [d] fun s => dst d (word (num (s.p a))) s

/-- coord.self (R123). -/
def execCoordSelf (d g : Nat) : State → Host.Outcome State Fault Refusal :=
  issue g [d] fun s => dst d (word s.here) s

/-- coord.pack (R123). -/
def execCoordPack (d a b g : Nat) : State → Host.Outcome State Fault Refusal :=
  issue g [d, a, b] (op2 d a b fun x y => word (pack x.toNat y.toNat))

/-- coord.x (R123). -/
def execCoordX (d a g : Nat) : State → Host.Outcome State Fault Refusal :=
  issue g [d, a] (op1 d a fun x => word (unpackX x.toNat))

/-- coord.y (R123). -/
def execCoordY (d a g : Nat) : State → Host.Outcome State Fault Refusal :=
  issue g [d, a] (op1 d a fun x => word (unpackY x.toNat))

/-- coord.add (R123): each half is a 12-bit step. -/
def execCoordAdd (d a b g : Nat) : State → Host.Outcome State Fault Refusal :=
  issue g [d, a, b] (op2 d a b fun x y =>
    word (pack (unpackX x.toNat + unpackX y.toNat) (unpackY x.toNat + unpackY y.toNat)))

/-- min (R116). -/
def execMin (d a b sz sgn g : Nat) : State → Host.Outcome State Fault Refusal :=
  intOp d a b sz sgn g fun n => minN n (sgn == 1)

/-- max (R116). -/
def execMax (d a b sz sgn g : Nat) : State → Host.Outcome State Fault Refusal :=
  intOp d a b sz sgn g fun n => maxN n (sgn == 1)

/-- absd (R116): always zero-extended. -/
def execAbsd (d a b sz sgn g : Nat) : State → Host.Outcome State Fault Refusal :=
  intOp d a b sz 0 g fun n => absdN n (sgn == 1)

/-- muli (R111): the low 64 bits of the product. -/
def execMuli (d a imm g : Nat) : State → Host.Outcome State Fault Refusal :=
  immOp d a imm g fun x k => x * k

/-- flags.get (R108). -/
def execFlagsGet (d g : Nat) : State → Host.Outcome State Fault Refusal :=
  issue g [d] fun s => dst d (word (s.st.csr.fpflags.toNat % 32)) s

/-- flags.clr (R108). -/
def execFlagsClr (a g : Nat) : State → Host.Outcome State Fault Refusal :=
  issue g [a] fun s => src a s fun x s =>
    .next (s.modCsr fun c => { c with fpflags := word (c.fpflags.toNat % 32 &&& (31 - x.toNat % 32)) })

/-- flags.set (R108): never traps. -/
def execFlagsSet (a g : Nat) : State → Host.Outcome State Fault Refusal :=
  issue g [a] fun s => src a s fun x s => .next (s.orFlags (x.toNat % 32))

end Sys2Proof.Machine
end

