-- ==== Sys2Proof/Machine/FpAlu.lean ====
section
/-! DEFINITION. Scalar floating point (R124 to R131): FARITH, FFMA, FCMP, SFU, CVT and FLI. Values lie in the low bits of a general
register, results are zero-extended; each captures FPCTL when it issues (R106). -/

namespace Sys2Proof.Machine

/-- A two-source operation of FARITH (R125, R126). -/
def farithOp (d a b fmt g op : Nat) : State → Host.Outcome State Fault Refusal :=
  issue g [d, a, b] fun s => src a s fun x s => src b s fun y s =>
    let f := fmtOf fmt
    let r := f.arith op s.fpctl (x.toNat % 2 ^ f.width) (y.toNat % 2 ^ f.width)
    withFlags s.fpctl r.2 s (dst d (word r.1))

/-- fabs and fneg (R125): the sign alone changes, no flag is set. -/
def fsignOp (d a fmt g op : Nat) : State → Host.Outcome State Fault Refusal :=
  issue g [d, a] fun s => src a s fun x s =>
    let f := fmtOf fmt
    dst d (word (f.arith op s.fpctl (x.toNat % 2 ^ f.width) 0).1) s

/-- FFMA (R127). -/
def fmaOp (d a b c g sub : Nat) : State → Host.Outcome State Fault Refusal :=
  issue g [d, a, b, c] fun s => src a s fun x s => src b s fun y s => src c s fun z s =>
    let r := fmaRound sub s.fpctl (x.toNat % 2 ^ 32) (y.toNat % 2 ^ 32) (z.toNat % 2 ^ 32)
    withFlags s.fpctl r.2 s (dst d (word r.1))

/-- FCMP (R128). -/
def fcmpOp (p a b fmt g code : Nat) : State → Host.Outcome State Fault Refusal :=
  issue g [a, b] fun s => src a s fun x s => src b s fun y s =>
    let f := fmtOf fmt
    let r := f.compare code s.fpctl (x.toNat % 2 ^ f.width) (y.toNat % 2 ^ f.width)
    withFlags s.fpctl r.2 s fun s => .next (s.setP p r.1)

/-- SFU (R129). -/
def sfuOp (d a g op : Nat) : State → Host.Outcome State Fault Refusal :=
  issue g [d, a] fun s => src a s fun x s =>
    let r := sfuRound op s.fpctl (x.toNat % 2 ^ 32)
    withFlags s.fpctl r.2 s (dst d (word r.1))

/-- CVT (R130): with `rto` the conversion rounds to odd whatever the mode; flags and traps follow the captured enables. -/
def cvtOp (d a t u g : Nat) (rto : Bool) : State → Host.Outcome State Fault Refusal :=
  issue g [d, a] fun s => src a s fun x s =>
    let r := convert 64 t u (if rto then forceRto s.fpctl else s.fpctl) (x.toNat % 2 ^ cvtWidth 64 u)
    withFlags s.fpctl r.2 s (dst d (word r.1))

/-- fadd (R125). -/
def execFadd (d a b fmt g : Nat) : State → Host.Outcome State Fault Refusal :=
  farithOp d a b fmt g 0

/-- fsub (R125). -/
def execFsub (d a b fmt g : Nat) : State → Host.Outcome State Fault Refusal :=
  farithOp d a b fmt g 1

/-- fmul (R125). -/
def execFmul (d a b fmt g : Nat) : State → Host.Outcome State Fault Refusal :=
  farithOp d a b fmt g 2

/-- fdiv (R125). -/
def execFdiv (d a b fmt g : Nat) : State → Host.Outcome State Fault Refusal :=
  farithOp d a b fmt g 3

/-- fmin (R126). -/
def execFmin (d a b fmt g : Nat) : State → Host.Outcome State Fault Refusal :=
  farithOp d a b fmt g 4

/-- fmax (R126). -/
def execFmax (d a b fmt g : Nat) : State → Host.Outcome State Fault Refusal :=
  farithOp d a b fmt g 5

/-- fabs (R125). -/
def execFabs (d a fmt g : Nat) : State → Host.Outcome State Fault Refusal :=
  fsignOp d a fmt g 6

/-- fneg (R125). -/
def execFneg (d a fmt g : Nat) : State → Host.Outcome State Fault Refusal :=
  fsignOp d a fmt g 7

/-- fma (R127). -/
def execFma (d a b c g : Nat) : State → Host.Outcome State Fault Refusal :=
  fmaOp d a b c g 0

/-- fms (R127). -/
def execFms (d a b c g : Nat) : State → Host.Outcome State Fault Refusal :=
  fmaOp d a b c g 1

/-- fnma (R127). -/
def execFnma (d a b c g : Nat) : State → Host.Outcome State Fault Refusal :=
  fmaOp d a b c g 2

/-- fnms (R127). -/
def execFnms (d a b c g : Nat) : State → Host.Outcome State Fault Refusal :=
  fmaOp d a b c g 3

/-- fcmp.eq (R128). -/
def execFcmpEq (p a b fmt g : Nat) : State → Host.Outcome State Fault Refusal :=
  fcmpOp p a b fmt g 0

/-- fcmp.ne (R128). -/
def execFcmpNe (p a b fmt g : Nat) : State → Host.Outcome State Fault Refusal :=
  fcmpOp p a b fmt g 1

/-- fcmp.lt (R128). -/
def execFcmpLt (p a b fmt g : Nat) : State → Host.Outcome State Fault Refusal :=
  fcmpOp p a b fmt g 2

/-- fcmp.le (R128). -/
def execFcmpLe (p a b fmt g : Nat) : State → Host.Outcome State Fault Refusal :=
  fcmpOp p a b fmt g 3

/-- fcmp.un (R128). -/
def execFcmpUn (p a b fmt g : Nat) : State → Host.Outcome State Fault Refusal :=
  fcmpOp p a b fmt g 4

/-- fsqrt (R129). -/
def execFsqrt (d a g : Nat) : State → Host.Outcome State Fault Refusal :=
  sfuOp d a g 0

/-- rcp (R129). -/
def execRcp (d a g : Nat) : State → Host.Outcome State Fault Refusal :=
  sfuOp d a g 1

/-- rsqrt (R129). -/
def execRsqrt (d a g : Nat) : State → Host.Outcome State Fault Refusal :=
  sfuOp d a g 2

/-- exp2 (R129). -/
def execExp2 (d a g : Nat) : State → Host.Outcome State Fault Refusal :=
  sfuOp d a g 3

/-- log2 (R129). -/
def execLog2 (d a g : Nat) : State → Host.Outcome State Fault Refusal :=
  sfuOp d a g 4

/-- cvt (R130). -/
def execCvt (d a t u g : Nat) : State → Host.Outcome State Fault Refusal :=
  cvtOp d a t u g false

/-- cvto (R130, R102). -/
def execCvto (d a t u g : Nat) : State → Host.Outcome State Fault Refusal :=
  cvtOp d a t u g true

/-- fli (R131): the immediate is the 20 most significant bits of an FP32 value; no guard. -/
def execFli (d imm : Nat) : State → Host.Outcome State Fault Refusal :=
  issue 0 [d] fun s => dst d (word (imm % 2 ^ 20 * 2 ^ 12)) s

end Sys2Proof.Machine
end

