-- ==== Sys2Proof/Machine/Vector.lean ====
section
/-! DEFINITION. Wide-register instructions (R135 to R143): every lane computes as the scalar instruction of its name, the flags of all
lanes are ORed, and an enabled exception in any lane writes none (R135). -/

namespace Sys2Proof.Machine

/-- An integer operation per lane (R136). -/
def valuOp (d a b sz g : Nat) (f : Nat → Nat → Nat → Nat) : State → Host.Outcome State Fault Refusal :=
  let l := widthOf sz
  issue g [] fun s => .next (s.setW d (wmap2 l (f l) (s.w a) (s.w b)))

/-- A saturated sum or difference of a lane (R136). -/
def satN (sgn sub : Bool) (n x y : Nat) : Nat :=
  let v := if sub then valueOf n sgn x - valueOf n sgn y else valueOf n sgn x + valueOf n sgn y
  let lo : Int := if sgn then -(2 ^ (n - 1) : Nat) else 0
  let hi : Int := if sgn then (2 ^ (n - 1) : Nat) - 1 else (2 ^ n : Nat) - 1
  wrap n (max lo (min hi v))

/-- Lanes with flags: the lanes' patterns and all their flags together (R135). -/
def joinFlags (rs : List (Nat × Nat)) : List Nat × Nat := (rs.map (·.1), rs.foldl (fun f r => f ||| r.2) 0)

/-- A wide result with flags (R135, R107). -/
def wideResult (d l : Nat) (rs : List (Nat × Nat)) (s : State) : Act :=
  let r := joinFlags rs
  withFlags s.fpctl r.2 s fun s => .next (s.setW d (ofWlanes l r.1))

/-- A floating-point operation per lane (R137). -/
def vfpOp (d a b fmt g op : Nat) : State → Host.Outcome State Fault Refusal :=
  issue g [] fun s =>
    let f := fmtOf fmt
    wideResult d f.width (List.zipWith (f.arith op s.fpctl) (wlanes f.width (s.w a)) (wlanes f.width (s.w b))) s

/-- A fused multiply-add per lane (R137). -/
def vfmaOp (d a b c g sub : Nat) : State → Host.Outcome State Fault Refusal :=
  issue g [] fun s =>
    wideResult d 32 (List.zipWith (fun x yz => fmaRound sub s.fpctl x yz.1 yz.2) (wlanes 32 (s.w a))
      (List.zip (wlanes 32 (s.w b)) (wlanes 32 (s.w c)))) s

/-- The lane width of a type of VCMP and VRED (R40): 0 to 3 signed integers of 64 to 8 bits, 4 f32, 5 f16, 6 bf16. -/
def vtypeWidth (t : Nat) : Nat := if t < 4 then widthOf t else if t = 4 then 32 else 16

/-- A comparison per lane (R138): all ones where it holds. -/
def vcmpOp (d a t g code : Nat) (second : State → Wide) (f : Int → Int → Bool) : State → Host.Outcome State Fault Refusal :=
  let l := vtypeWidth t
  issue g [] fun s =>
    let ones (b : Bool) : Nat := if b then 2 ^ l - 1 else 0
    let rs := if t < 4 then List.zipWith (fun x y => (ones (f (sext l x) (sext l y)), 0)) (wlanes l (s.w a)) (wlanes l (second s))
      else List.zipWith (fun x y => let r := (fmtOf (t - 4)).compare code s.fpctl x y; (ones r.1, r.2)) (wlanes l (s.w a))
        (wlanes l (second s))
    wideResult d l rs s

/-- A reduction of integer lanes (R139): the sum of sign-extended lanes in 64 bits, or a fold whose result is sign-extended. -/
def vredInt (op l : Nat) (xs : List Nat) : Word :=
  let vs := xs.map (sext l)
  match op with
  | 0 => wordI (vs.foldl (· + ·) 0)
  | 1 => wordI (vs.foldl min (vs.headD 0))
  | 2 => wordI (vs.foldl max (vs.headD 0))
  | 3 => wordI (sext l (xs.foldl (· &&& ·) (2 ^ l - 1)))
  | 4 => wordI (sext l (xs.foldl (· ||| ·) 0))
  | _ => wordI (sext l (xs.foldl (· ^^^ ·) 0))

/-- A reduction of floating-point lanes (R139): one rounding of the exact sum; minimum and maximum by R126. -/
def vredFp (f : Fmt) (op fpctl : Nat) (xs : List Nat) : Nat × Nat :=
  if op = 0 then
    let r := f.sum fpctl (xs.map (f.value (fizOf fpctl)))
    r
  else
    (xs.drop 1).foldl (fun acc x => let r := f.minmax (op == 2) fpctl acc.1 x; (r.1, acc.2 ||| r.2))
      (let r := f.minmax (op == 2) fpctl (xs.headD 0) (xs.headD 0); (r.1, r.2))

def vredOp (d a t g op : Nat) : State → Host.Outcome State Fault Refusal :=
  let l := vtypeWidth t
  issue g [d] fun s =>
    let xs := wlanes l (s.w a)
    if t < 4 then dst d (vredInt op l xs) s
    else
      let r := vredFp (fmtOf (t - 4)) op s.fpctl xs
      withFlags s.fpctl r.2 s (dst d (word r.1))

/-- A permutation of lanes (R140): lane i of the result is an element of the list made from the sources. -/
def vpermOp (d a b l g : Nat) (f : Nat → List Nat → List Nat → List Nat) : State → Host.Outcome State Fault Refusal :=
  let w := widthOf l
  issue g [] fun s => .next (s.setW d (ofWlanes w (f (512 / w) (wlanes w (s.w a)) (wlanes w (s.w b)))))

/-- VCVT (R141): conversion of the part k, widening, narrowing or of equal width. -/
def vcvtOp (d a k t u g : Nat) (rto : Bool) : State → Host.Outcome State Fault Refusal :=
  issue g [] fun s =>
    let wd := cvtWidth 32 t
    let ws := cvtWidth 32 u
    let n := 512 / max ws wd
    let ctl := if rto then forceRto s.fpctl else s.fpctl
    let xs := wlanes ws (s.w a)
    let part := if ws < wd then (xs.drop (k * n)).take n else xs.take n
    let r := joinFlags (part.map (convert 32 t u ctl))
    let old := wlanes wd (s.w d)
    let out := if wd < ws then old.take (k * n) ++ r.1 ++ old.drop (k * n + n) else r.1
    withFlags s.fpctl r.2 s fun s => .next (s.setW d (ofWlanes wd out))

/-- One lane of VDOT (R142). -/
def vdotLane (t fpctl acc x y : Nat) : Nat × Nat :=
  if t = 2 then
    let pair (v : Nat) : List (Int × Bool) := (lanes 8 4 v).map fun e => (if e = 128 then 0 else sext 8 e, e == 128)
    let xs := pair x
    let ys := pair y
    let bad := xs.any (·.2) || ys.any (·.2)
    let sum := (List.zipWith (fun p q => p.1 * q.1) xs ys).foldl (· + ·) (sext 32 acc)
    (wrap 32 sum, if bad then flagNV else 0)
  else
    let f := if t = 0 then f16 else if t = 1 then bf16 else qf8
    let cnt := 32 / f.width
    let val (v : Nat) : FVal := f.value (fizOf fpctl) v
    let ps := List.zipWith (fun p q => (val p).mul (val q)) (lanes f.width cnt x) (lanes f.width cnt y)
    let ops := (lanes f.width cnt x ++ lanes f.width cnt y).map val ++ [f32.value (fizOf fpctl) acc]
    if ps.any (·.isNone) then (f32.nan, flagNV)
    else
      let r := f32.sum fpctl (f32.value (fizOf fpctl) acc :: ps.map fun p => p.getD (.nan false))
      (r.1, r.2 ||| sigFlags ops)

/-- vadd (R136). -/
def execVadd (d a b sz _sgn g : Nat) : State → Host.Outcome State Fault Refusal :=
  valuOp d a b sz g addN

/-- vsub (R136). -/
def execVsub (d a b sz _sgn g : Nat) : State → Host.Outcome State Fault Refusal :=
  valuOp d a b sz g subN

/-- vand (R136). -/
def execVand (d a b sz _sgn g : Nat) : State → Host.Outcome State Fault Refusal :=
  valuOp d a b sz g andN

/-- vor (R136). -/
def execVor (d a b sz _sgn g : Nat) : State → Host.Outcome State Fault Refusal :=
  valuOp d a b sz g orN

/-- vxor (R136). -/
def execVxor (d a b sz _sgn g : Nat) : State → Host.Outcome State Fault Refusal :=
  valuOp d a b sz g xorN

/-- vandn (R136). -/
def execVandn (d a b sz _sgn g : Nat) : State → Host.Outcome State Fault Refusal :=
  valuOp d a b sz g andnN

/-- vorn (R136). -/
def execVorn (d a b sz _sgn g : Nat) : State → Host.Outcome State Fault Refusal :=
  valuOp d a b sz g ornN

/-- vxnor (R136). -/
def execVxnor (d a b sz _sgn g : Nat) : State → Host.Outcome State Fault Refusal :=
  valuOp d a b sz g xnorN

/-- vshl (R136). -/
def execVshl (d a b sz _sgn g : Nat) : State → Host.Outcome State Fault Refusal :=
  valuOp d a b sz g shlN

/-- vshr (R136). -/
def execVshr (d a b sz _sgn g : Nat) : State → Host.Outcome State Fault Refusal :=
  valuOp d a b sz g shrN

/-- vsra (R136). -/
def execVsra (d a b sz _sgn g : Nat) : State → Host.Outcome State Fault Refusal :=
  valuOp d a b sz g sraN

/-- vrol (R136). -/
def execVrol (d a b sz _sgn g : Nat) : State → Host.Outcome State Fault Refusal :=
  valuOp d a b sz g rolN

/-- vror (R136). -/
def execVror (d a b sz _sgn g : Nat) : State → Host.Outcome State Fault Refusal :=
  valuOp d a b sz g rorN

/-- vadds (R136). -/
def execVadds (d a b sz sgn g : Nat) : State → Host.Outcome State Fault Refusal :=
  valuOp d a b sz g (satN (sgn == 1) false)

/-- vsubs (R136). -/
def execVsubs (d a b sz sgn g : Nat) : State → Host.Outcome State Fault Refusal :=
  valuOp d a b sz g (satN (sgn == 1) true)

/-- vfadd (R137). -/
def execVfadd (d a b fmt g : Nat) : State → Host.Outcome State Fault Refusal :=
  vfpOp d a b fmt g 0

/-- vfsub (R137). -/
def execVfsub (d a b fmt g : Nat) : State → Host.Outcome State Fault Refusal :=
  vfpOp d a b fmt g 1

/-- vfmul (R137). -/
def execVfmul (d a b fmt g : Nat) : State → Host.Outcome State Fault Refusal :=
  vfpOp d a b fmt g 2

/-- vfdiv (R137). -/
def execVfdiv (d a b fmt g : Nat) : State → Host.Outcome State Fault Refusal :=
  vfpOp d a b fmt g 3

/-- vfmin (R137). -/
def execVfmin (d a b fmt g : Nat) : State → Host.Outcome State Fault Refusal :=
  vfpOp d a b fmt g 4

/-- vfmax (R137). -/
def execVfmax (d a b fmt g : Nat) : State → Host.Outcome State Fault Refusal :=
  vfpOp d a b fmt g 5

/-- vfabs (R137). -/
def execVfabs (d a fmt g : Nat) : State → Host.Outcome State Fault Refusal :=
  vfpOp d a a fmt g 6

/-- vfneg (R137). -/
def execVfneg (d a fmt g : Nat) : State → Host.Outcome State Fault Refusal :=
  vfpOp d a a fmt g 7

/-- vfma (R137). -/
def execVfma (d a b c g : Nat) : State → Host.Outcome State Fault Refusal :=
  vfmaOp d a b c g 0

/-- vfms (R137). -/
def execVfms (d a b c g : Nat) : State → Host.Outcome State Fault Refusal :=
  vfmaOp d a b c g 1

/-- vfnma (R137). -/
def execVfnma (d a b c g : Nat) : State → Host.Outcome State Fault Refusal :=
  vfmaOp d a b c g 2

/-- vfnms (R137). -/
def execVfnms (d a b c g : Nat) : State → Host.Outcome State Fault Refusal :=
  vfmaOp d a b c g 3

/-- vcmp.eq (R138). -/
def execVcmpEq (d a b t g : Nat) : State → Host.Outcome State Fault Refusal :=
  vcmpOp d a t g 0 (fun s => s.w b) fun x y => x == y

/-- vcmp.ne (R138). -/
def execVcmpNe (d a b t g : Nat) : State → Host.Outcome State Fault Refusal :=
  vcmpOp d a t g 1 (fun s => s.w b) fun x y => x != y

/-- vcmp.lt (R138). -/
def execVcmpLt (d a b t g : Nat) : State → Host.Outcome State Fault Refusal :=
  vcmpOp d a t g 2 (fun s => s.w b) fun x y => decide (x < y)

/-- vcmp.le (R138). -/
def execVcmpLe (d a b t g : Nat) : State → Host.Outcome State Fault Refusal :=
  vcmpOp d a t g 3 (fun s => s.w b) fun x y => decide (x ≤ y)

/-- vcmp.ltz (R138). -/
def execVcmpLtz (d a t g : Nat) : State → Host.Outcome State Fault Refusal :=
  vcmpOp d a t g 2 (fun _ => 0) fun x y => decide (x < y)

/-- vcmp.lez (R138). -/
def execVcmpLez (d a t g : Nat) : State → Host.Outcome State Fault Refusal :=
  vcmpOp d a t g 3 (fun _ => 0) fun x y => decide (x ≤ y)

/-- vred.sum (R139). -/
def execVredSum (d a t g : Nat) : State → Host.Outcome State Fault Refusal :=
  vredOp d a t g 0

/-- vred.min (R139). -/
def execVredMin (d a t g : Nat) : State → Host.Outcome State Fault Refusal :=
  vredOp d a t g 1

/-- vred.max (R139). -/
def execVredMax (d a t g : Nat) : State → Host.Outcome State Fault Refusal :=
  vredOp d a t g 2

/-- vred.and (R139). -/
def execVredAnd (d a t g : Nat) : State → Host.Outcome State Fault Refusal :=
  vredOp d a t g 3

/-- vred.or (R139). -/
def execVredOr (d a t g : Nat) : State → Host.Outcome State Fault Refusal :=
  vredOp d a t g 4

/-- vred.xor (R139). -/
def execVredXor (d a t g : Nat) : State → Host.Outcome State Fault Refusal :=
  vredOp d a t g 5

/-- vshuf (R140). -/
def execVshuf (d a b l g : Nat) : State → Host.Outcome State Fault Refusal :=
  vpermOp d a b l g fun n xs ys => ys.map fun y => xs.getD (y % n) 0

/-- vrotl (R140): by a general register. -/
def execVrotl (d a b l g : Nat) : State → Host.Outcome State Fault Refusal :=
  issue g [b] fun s => src b s fun k s =>
    let w := widthOf l
    let n := 512 / w
    let xs := wlanes w (s.w a)
    .next (s.setW d (ofWlanes w ((List.range n).map fun i => xs.getD ((i + n - k.toNat % n) % n) 0)))

/-- vzip (R140). -/
def execVzip (d a b l g : Nat) : State → Host.Outcome State Fault Refusal :=
  vpermOp d a b l g fun n xs ys => (List.range n).map fun i => (if i % 2 = 0 then xs else ys).getD (i / 2) 0

/-- vunzip (R140). -/
def execVunzip (d a b l g : Nat) : State → Host.Outcome State Fault Refusal :=
  vpermOp d a b l g fun n xs ys => (List.range n).map fun i => (xs ++ ys).getD (2 * i) 0

/-- vcvt (R141). -/
def execVcvt (d a k t u g : Nat) : State → Host.Outcome State Fault Refusal :=
  vcvtOp d a k t u g false

/-- vcvto (R141, R102). -/
def execVcvto (d a k t u g : Nat) : State → Host.Outcome State Fault Refusal :=
  vcvtOp d a k t u g true

/-- vsel (R138): the top bit of the old lane chooses. -/
def execVsel (d a b l g : Nat) : State → Host.Outcome State Fault Refusal :=
  issue g [] fun s =>
    let w := widthOf l
    .next (s.setW d (ofWlanes w (List.zipWith (fun m xy => if bit m (w - 1) then xy.1 else xy.2) (wlanes w (s.w d))
      (List.zip (wlanes w (s.w a)) (wlanes w (s.w b))))))

/-- vdot (R142). -/
def execVdot (d a b t g : Nat) : State → Host.Outcome State Fault Refusal :=
  issue g [] fun s =>
    wideResult d 32 (List.zipWith (fun acc xy => vdotLane t s.fpctl acc xy.1 xy.2) (wlanes 32 (s.w d))
      (List.zip (wlanes 32 (s.w a)) (wlanes 32 (s.w b)))) s

/-- vsplat (R143): lane i is g[a] + i·k. -/
def execVsplat (d a l k g : Nat) : State → Host.Outcome State Fault Refusal :=
  issue g [a] fun s => src a s fun x s =>
    let w := widthOf l
    .next (s.setW d (ofWlanes w ((List.range (512 / w)).map fun (i : Nat) => wrap w ((x.toNat : Int) + i * sext 10 k))))

end Sys2Proof.Machine
end

