-- ==== Sys2Proof/Machine/LocalMem.lean ====
section
/-! DEFINITION. Local memory (R62 to R69): regions and swizzle, the checks of a local access, LD, ST, LDW, STW, LDX, STX, and the exact
accumulator (R132 to R134). The order of the checks where several fail is log entry 15. -/

namespace Sys2Proof.Machine

/-! ## Regions (R63, R64) -/

/-- Fields of a region register (R63). -/
def regBase (r : Word) : Nat := bits r.toNat 9 0 * 256
def regLen (r : Word) : Nat := bits r.toNat 20 10 * 256
def regSwz (r : Word) : Nat := bits r.toNat 23 21

/-- Whether a region lets an access of n bytes at an offset through. -/
def regAllows (r : Word) (off n : Nat) (wr : Bool) : Bool :=
  regLen r != 0 && regBase r ≤ off && off + n ≤ regBase r + regLen r && off + n ≤ 2 ^ 18 && bit r.toNat (if wr then 25 else 24)

/-- The swizzle an access goes through (R63): of the lowest-numbered region that allows it; 0 for the implicit whole scratchpad. -/
def Strand.regionFor (t : Strand) (off n : Nat) (rd wr : Bool) : Option Nat :=
  let rs := t.csr.region.toList
  if rs.all fun r => regLen r == 0 then (if off + n ≤ 2 ^ 18 then some 0 else none)
  else (rs.find? fun r => (!rd || regAllows r off n false) && (!wr || regAllows r off n true)).map regSwz

/-- The physical offset P of an offset under a swizzle (R64). -/
def swizzle (k o : Nat) : Nat :=
  let t := if k = 6 then bits o 13 9 else bits o 12 8
  let m := match k with
    | 1 => 0b11110
    | 2 => 0b11100
    | 3 => 0b11000
    | 4 => 0b10000
    | 5 => 0b11111
    | 6 => 0b11111
    | _ => 0
  o / 256 * 256 + ((bits o 7 3 ^^^ (t &&& m)) * 8 + o % 8)

/-- The physical pieces of an access: itself up to 8 bytes, else its doublewords (R66, R133). -/
def pieces (k off n : Nat) : List (Nat × Nat) :=
  if n ≤ 8 then [(swizzle k off, n)] else (List.range (n / 8)).map fun i => (swizzle k (off + 8 * i), 8)

/-! ## Checks of an access -/

/-- Whether two ranges overlap. -/
def overlap (a n b m : Nat) : Bool := a < b + m && b < a + n && n != 0 && m != 0

/-- The key of a core's scratchpad in the range-lock table (R235). -/
def scratchSide (c : Nat) : Nat := 2 ^ 60 + c

/-- The lock entry an access conflicts with (R236): one of another issuer whose write range it overlaps, or whose read range it writes. -/
def State.lockedBy (s : State) (cl issuer side : Nat) (ps : List (Nat × Nat)) (wr : Bool) : Option LockEntry :=
  (s.cluster cl).locks.find? fun e => e.issuer != issuer && ps.any fun p =>
    (e.wr.any fun r => r.1 == side && overlap p.1 p.2 r.2.1 (r.2.2 - r.2.1 + 1))
    || (wr && e.rd.any fun r => r.1 == side && overlap p.1 p.2 r.2.1 (r.2.2 - r.2.1 + 1))

/-- The trap LOCKED_RANGE of an access, with the class of R80 (R236). -/
def lockTrap (e : LockEntry) (pc cls addr : Nat) (wr : Bool) : Trap :=
  { code := 6, info := failInfo pc (num wr) cls, addr := word addr, party := word (e.issuer % 2 ^ 28) }

/-- The lock entry an access served by an NI conflicts with (R236): no issuer is exempt. -/
def State.lockedFor (s : State) (cl side : Nat) (ps : List (Nat × Nat)) (wr : Bool) : Option LockEntry := s.lockedBy cl (2 ^ 64) side ps wr

/-- A tag that an access with the given detector state races with (R229). -/
def races (tag : RaceTag) (me : Nat) (stamp : Option (Nat × Nat)) (acq : List (Nat × Nat)) (ovf : Bool) : Bool :=
  !(tag.writer == me || tag.stamp != stamp || ovf
    || acq.any fun a => a.1 == tag.writer && (let d := (a.2 + 2 ^ 24 - tag.rc) % 2 ^ 24; 1 ≤ d && d ≤ 2 ^ 23))

/-- The trap MM_RACE of an access (R230). -/
def raceTrap (tag : RaceTag) (pc cls addr : Nat) (wr : Bool) : Trap :=
  { code := 7, info := failInfo pc (num wr) cls, addr := word addr,
    party := word (tag.writer % 2 ^ 28 + tag.rc % 2 ^ 24 * 2 ^ 28) }

/-- Whether the focused core's scratchpad is checked by the race detector (R226). -/
def State.racy (s : State) : Bool := s.core.racy && s.st.task.isNone

/-- The task frame of the focused strand (R266): first offset and length. -/
def State.taskFrame (s : State) : Nat × Nat :=
  let u := (s.cluster s.cl).task
  (u.fbase + 256 * u.fsize * s.k, 256 * u.fsize)

/-- Whether n bytes at an offset lie in a frame that may wrap modulo 2^18 (R266). -/
def inFrame (f : Nat × Nat) (off n : Nat) : Bool := (off + 2 ^ 18 - f.1 % 2 ^ 18) % 2 ^ 18 + n ≤ f.2

/-- An operation of the focused strand by its id. -/
def Strand.opById (t : Strand) (id : Nat) : Option Op := t.ops.find? fun o => o.id == id

/-- The number of a class in counts and in WAIT (R78, R80). -/
def Cls.no : Cls → Nat
  | .l => 0
  | .s => 1
  | .c => 2
  | .t => 3
  | .m => 4

/-- How many operations of a class the strand has issued. -/
def Strand.issuedOf (t : Strand) (k : Cls) : Nat := vget t.issued k.no 0

/-- How many operations of a class have retired: those older than the first that is not complete (R78). -/
def Strand.retiredOf (t : Strand) (k : Cls) : Nat :=
  (t.ops.filter fun o => o.cls == k && !o.complete).foldl (fun m o => min m o.seq) (t.issuedOf k)

/-- Whether an operation has retired (R78). -/
def Strand.retired (t : Strand) (o : Op) : Bool := o.seq < t.retiredOf o.cls

/-- Whether an asynchronous access of the focused strand touches a core's scratchpad, and at which offset (R71, R208, R210, R213). -/
def State.scratchAt (s : State) (o : Op) (c : Nat) : Option Nat :=
  match o.kind with
  | .gld | .gst => (s.leafFor (o.a.toNat % 2 ^ 48)).bind fun e =>
      if e.type = 4 && e.scratchCore = c then some (e.scratchOff (o.a.toNat % 2 ^ 48)) else none
  | .rst | .rld | .ramo => if o.target = c then some o.a.toNat else none
  | .sendStore => if (match o.regs with | [r] => inScopeRect r.toNat c | _ => o.target == c) then some (o.a.toNat % 2 ^ 18) else none
  | _ => none

/-- Whether an operation is in the network on a channel that keeps the order of messages (R198): a remote access on channel 0, a
kind-1 SEND on its own, which `op` holds. -/
def Op.onChannel (o : Op) (ch : Nat) : Bool := ch < 3 && match o.kind with
  | .gld | .gst => o.started && ch == 0
  | .rst | .rld | .ramo => ch == 0
  | .sendStore => o.op == ch
  | _ => false

/-- Whether an access of the strand, of those before `before`, has not completed and touches the same doublewords of a core's scratchpad: the
accesses of one strand to one doubleword are performed in program order (R220). Messages on the channel of the new access need no wait. -/
def State.behind (s : State) (before c : Nat) (ch : Option Nat) (ps : List (Nat × Nat)) : Bool :=
  s.st.ops.any fun o => o.id < before && !o.complete && !(ch.map o.onChannel).getD false &&
    match s.scratchAt o c with
    | some off => ps.any fun p => overlap (p.1 / 8 * 8) ((p.1 % 8 + p.2 + 7) / 8 * 8) off o.n
    | none => false

/-- The first doubleword of the pieces of a scratchpad access whose tag races with an accessor's detector state (R229), and its tag. -/
def Core.racing (c : Core) (ps : List (Nat × Nat)) (me : Nat) (d : Detector) : Option (Nat × RaceTag) :=
  ps.findSome? fun p => (c.tags.find? fun t => t.1 == p.1 / 8).bind fun t =>
    if races t.2 me d.stamp d.acq d.ovf then some (p.1 / 8 * 8, t.2) else none

/-- The tags that the writes of a strand leave in a scratchpad (R228). -/
def Core.tagged (c : Core) (ps : List (Nat × Nat)) (me : Nat) (d : Detector) : Core :=
  { c with tags := ps.foldl (fun ts p => putKey (·.1) (p.1 / 8, { writer := me, rc := d.rc, stamp := d.stamp }) ts) c.tags }

/-- The copies on whose ranges a strand's local access has stalled (R81). -/
def Strand.stalls (t : Strand) : List Nat := match t.waiting with
  | .copy l => l
  | _ => []

/-- The failure that a local access reports which stalled on copies' ranges: of the oldest of them that has retired and failed (R79, R80, R81). -/
def Strand.stalledOn (t : Strand) : Option (Nat × Trap) :=
  t.ops.findSome? fun o => if t.stalls.contains o.id && o.complete && t.retired o then o.fail.map fun f => (o.id, f) else none

/-- The copies of a strand whose ranges a local access of the core overlaps: a load those that they write, a store each (R81). -/
def Core.copiesOn (c : Core) (k : Nat) (wr : Bool) (ps : List (Nat × Nat)) : List Nat :=
  (c.ranges.filter fun r => r.strand == k && (wr || r.write) && (ps.any fun p => overlap p.1 p.2 r.lo (r.hi - r.lo + 1))).map (·.op)

/-- A local access that a region with swizzle k lets through (R69, R79, R81, R220, R229, R236, R346, R410): the body goes on with the physical pieces. -/
def localThrough (k off n : Nat) (wr : Bool) (s : State) (f : List (Nat × Nat) → Act) : Act :=
  let ps := pieces k off n
  if wr && s.st.task.isSome && !inFrame s.taskFrame off n then .code 0x12
  else match s.st.stalledOn with
  | some (id, t) => .trap t fun s => s.dropOp id
  | none =>
  if !(s.core.copiesOn s.k wr ps).isEmpty then
    .wait fun s => s.modSt fun t => { t with waiting := .copy (t.stalls ++ s.core.copiesOn s.k wr ps).eraseDups }
  else
  if s.behind s.sys.nextId s.here none ps then .hold
  else match s.lockedBy s.cl s.me (scratchSide s.here) ps wr with
  | some e => .trap (lockTrap e s.st.pc 6 ((ps.headD (0, 0)).1) wr) id
  | none => match if s.racy then s.core.racing ps s.me s.st.det else none with
    | some (a, t) => .trap (raceTrap t s.st.pc 6 a wr) id
    | none => match s.sleeping ps with
      | b :: bs => .wait fun s => s.wake (b :: bs)
      | [] => match ps.findSome? fun p => s.core.softAt p.1 p.2 (wr && n < 80) with
        | some a => .trap (softErr a) id
        | none => f ps

/-- A checked local access (R62, R63): LOCAL_RANGE where no region grants it. -/
def localAccess (off n : Nat) (rd wr : Bool) (s : State) (f : List (Nat × Nat) → Act) : Act :=
  match s.st.regionFor off n rd wr with
  | none => .trap { code := 5, addr := word off } id
  | some k => localThrough k off n wr s f

/-- The bytes of the pieces of an access. -/
def Core.readPieces (c : Core) (ps : List (Nat × Nat)) : List Byte := ps.flatMap fun p => c.scratch.get p.1 p.2

/-- Bytes written to the pieces of an access. -/
def Core.writePieces (c : Core) : List (Nat × Nat) → List Byte → Core
  | [], _ => c
  | p :: ps, bs => Core.writePieces (c.store p.1 (bs.take p.2)) ps (bs.drop p.2)

/-- A performed local write: the bytes, and in a checked scratchpad the tags (R228). -/
def State.localWrite (s : State) (ps : List (Nat × Nat)) (bs : List Byte) : State :=
  let s' := s.modCore fun c => c.writePieces ps bs
  if s.racy then s'.modCore fun c => c.tagged ps s.me s.st.det else s'

/-- A local load (R62, R65): ALIGN, then the checked access, then the value. -/
def localLoad (off n : Nat) (s : State) (f : Nat → Act) : Act :=
  if off % n != 0 then .code 3
  else localAccess off n true false s fun ps => f (wordOfBytes (s.core.readPieces ps))

/-- A local store (R62, R65). -/
def localStore (off n v : Nat) (s : State) : Act :=
  if off % n != 0 then .code 3
  else localAccess off n false true s fun ps => .next (s.sideEffect.localWrite ps (bytesOfWord n v))

/-! ## LD, ST, LDW, STW, LDX, STX (R65 to R67) -/

/-- ld (R65). -/
def execLd (d a off sz z g : Nat) : State → Host.Outcome State Fault Refusal :=
  let n := bytesOfSize sz
  issue g [d, a] fun s => src a s fun x s =>
    localLoad (localAddr x (sext 9 off * n)) n s fun v => dst d (extend (8 * n) (z == 0) v) s

/-- st (R65): the low n bytes of g[d]. -/
def execSt (d a off sz g : Nat) : State → Host.Outcome State Fault Refusal :=
  let n := bytesOfSize sz
  issue g [a, d] fun s => src a s fun x s => src d s fun v s =>
    localStore (localAddr x (sext 9 off * n)) n (v.toNat % 2 ^ (8 * n)) s

/-- ldw (R66): 64 bytes into a wide register. -/
def execLdw (d a off g : Nat) : State → Host.Outcome State Fault Refusal :=
  issue g [a] fun s => src a s fun x s =>
    localLoad (localAddr x (sext 9 off * 64)) 64 s fun v => .next (s.setW d (BitVec.ofNat 512 v))

/-- stw (R66). -/
def execStw (d a off g : Nat) : State → Host.Outcome State Fault Refusal :=
  issue g [a] fun s => src a s fun x s => localStore (localAddr x (sext 9 off * 64)) 64 (s.w d).toNat s

/-- ldx (R67). -/
def execLdx (d a b sz sgn sc g : Nat) : State → Host.Outcome State Fault Refusal :=
  let n := widthOf sz / 8
  issue g [d, a, b] fun s => src a s fun x s => src b s fun y s =>
    localLoad (localAddr x ((y.toNat * 2 ^ sc : Nat) : Int)) n s fun v => dst d (extend (8 * n) (sgn == 1) v) s

/-- stx (R67). -/
def execStx (d a b sz sc g : Nat) : State → Host.Outcome State Fault Refusal :=
  let n := widthOf sz / 8
  issue g [a, b, d] fun s => src a s fun x s => src b s fun y s => src d s fun v s =>
    localStore (localAddr x ((y.toNat * 2 ^ sc : Nat) : Int)) n (v.toNat % 2 ^ (8 * n)) s

/-! ## The exact accumulator (R132 to R134) -/

/-- The width of an exact accumulator and the exponent of its unit (R132). -/
def accBits : Nat := 640
def accUnit : Int := -266

/-- A value as a multiple of 2^-266 (R132). -/
def accOf (neg : Bool) (m : Nat) (e : Int) : Int := signedAt neg m e accUnit

/-- An addend added modulo 2^640 (R133): the new V and whether the signed result wrapped. -/
def accAdd (v : Nat) (x : Int) : Nat × Nat :=
  let t := sext accBits v + x
  let r := wrap accBits t
  (r, if sext accBits r = t then 0 else flagOF)

/-- V·2^-266 rounded once into a format; zero gives +0 (R133, R250). -/
def accRound (f : Fmt) (fpctl v : Nat) : Nat × Nat :=
  let x := sext accBits v
  f.round fpctl (x < 0) x.natAbs accUnit

/-- The addend of a value (R133): an infinity or NaN is not added and sets NV. -/
def accAddend (x : FVal) : Int × Nat :=
  match x with
  | .fin n m e => (accOf n m e, 0)
  | _ => (0, flagNV)

/-- An access to an accumulator's 80 bytes: aligned to 16, in one region that grants both RD and WR (R133). -/
def accAccess (base : Word) (wr : Bool) (s : State) (f : List (Nat × Nat) → Act) : Act :=
  let off := base.toNat % 2 ^ 18
  if off % 16 != 0 then .code 3
  else
    match s.st.regionFor off 80 true true with
    | none => .trap { code := 5, addr := word off } id
    | some k => localThrough k off 80 wr s f

/-- An accumulator changed, with flags; an enabled exception writes nothing (R133). -/
def accUpdate (base : Word) (f : State → Nat → Nat × Nat) (s : State) : Act :=
  accAccess base true s fun ps =>
    let v := wordOfBytes (s.core.readPieces ps)
    let r := f s v
    withFlags s.fpctl r.2 s fun s => .next (s.localWrite ps (bytesOfWord 80 r.1))

/-- xacc (R133). -/
def execXacc (a b fmt g : Nat) : State → Host.Outcome State Fault Refusal :=
  issue g [a, b] fun s => src a s fun x s => src b s fun y s =>
    accUpdate x (fun s v =>
      let f := fmtOf fmt
      let (t, fl) := accAddend (f.value (fizOf s.fpctl) (y.toNat % 2 ^ f.width))
      let r := accAdd v t
      (r.1, r.2 ||| fl)) s

/-- xaccp (R133): the exact product of the two halfwords of g[b]. -/
def execXaccp (a b fmt g : Nat) : State → Host.Outcome State Fault Refusal :=
  issue g [a, b] fun s => src a s fun x s => src b s fun y s =>
    accUpdate x (fun s v =>
      let f := fmtOf fmt
      let p := (f.value (fizOf s.fpctl) (y.toNat % 2 ^ 16)).mul (f.value (fizOf s.fpctl) (bits y.toNat 31 16))
      let (t, fl) := match p with
        | some p => accAddend p
        | none => (0, flagNV)
      let r := accAdd v t
      (r.1, r.2 ||| fl)) s

/-- xrnd (R133): into FP32 or binary64. The .f64 form can set only NX. -/
def execXrnd (d a fmt g : Nat) : State → Host.Outcome State Fault Refusal :=
  issue g [d, a] fun s => src a s fun x s =>
    accAccess x false s fun ps =>
      let r := accRound (if fmt = 3 then f64 else f32) s.fpctl (wordOfBytes (s.core.readPieces ps))
      withFlags s.fpctl r.2 s (dst d (word r.1))

/-- xmrg (R133): both accumulators are read before the first is written. Where both accesses fail, the trap is that of g[b], whose access is made
first: DESIGN CHOICE, log entry 15. -/
def execXmrg (a b g : Nat) : State → Host.Outcome State Fault Refusal :=
  issue g [a, b] fun s => src a s fun x s => src b s fun y s =>
    accAccess y false s fun qs =>
      accUpdate x (fun s v => accAdd v (sext accBits (wordOfBytes (s.core.readPieces qs)))) s

/-- xclr (R133). -/
def execXclr (a g : Nat) : State → Host.Outcome State Fault Refusal :=
  issue g [a] fun s => src a s fun x s => accUpdate x (fun _ _ => (0, 0)) s

end Sys2Proof.Machine
end

