-- ==== Sys2Proof/Machine/Async.lean ====
section
/-! DEFINITION. Asynchronous operations: issue, counts, retirement (R78), completion with flags (R106, R107) and records (R77), failures at
their consumers (R79, R80), and what a recording core appends to its negative (R325, R331, R332). -/

namespace Sys2Proof.Machine

/-! ## Recording (R325, R328, R332) -/

/-- Entries appended to the focused core's stream while it records. -/
def State.record (s : State) (es : List TapeEntry) : State :=
  if s.core.tape.recording.isNone then s
  else s.modCore fun c => { c with tape := { c.tape with entries := c.tape.entries ++ es } }

/-- The page a byte lies in, when it is mapped: size code of R331 and base. -/
def State.guardPage (s : State) (va : Nat) : Option (Nat × Nat) :=
  match (s.walk s.gid va 0).2 with
  | .leaf e => some (if e.size = 2 ^ 30 then 2 else if e.size = 2 ^ 21 then 1 else 0, e.base)
  | _ => none

/-- The pages that a core's recording ends with: one that was not available when its command was issued is looked up again. -/
def State.guardsAtEnd (s : State) (ps : List (Nat × Nat)) : List (Nat × Nat) :=
  (ps.filterMap fun p => if p.1 = 3 then s.guardPage p.2 else some p).eraseDups

/-- The pages of a range, in 64 KiB steps; one that is not available has the size code 3. -/
def State.guardPages (s : State) (r : Nat × Nat) : List (Nat × Nat) :=
  if r.2 = 0 then []
  else (List.range ((r.1 + r.2 - 1) / 65536 + 1 - r.1 / 65536)).filterMap fun i =>
    let va := (r.1 / 65536 + i) * 65536
    (s.guardPage va).or (some (3, va))

/-- A command recorded: an EREG for each register whose value changed or is retouched, CMD, VALB, PAY; its slot declarations; the pages
its ranges touch (R331). A declaration names the entry of the CMD. -/
def State.recordCmd (s : State) (eng : Nat) (regs : List Word) (word_ fpc : Nat) (a b : Word) (pay : List Word)
    (ranges : List (Nat × Nat)) : State :=
  let u := s.core.tape
  if u.recording.isNone then s
  else
    let mine := u.tpend.filter fun t => t.1 == s.k
    let olds (i : Nat) : Word := ((u.prev.find? fun p => p.1 == (s.k, eng, i)).map (·.2)).getD 0
    let erg := (List.range regs.length).filter fun i =>
      regs.getD i 0 != olds i || mine.any fun t => t.2.1 == 2 && t.2.2.1 == i
    let es := erg.map fun i => ({ kind := 3, strand := s.k, word := i + eng * 256, value := regs.getD i 0 } : TapeEntry)
    let cmd : TapeEntry := { kind := 1, strand := s.k, arg := pay.length, fpc := fpc % 1024, word := word_ / 8 * 8, value := a }
    let at_ := u.entries.length + es.length
    let es := es ++ [cmd, { kind := 2, strand := s.k, value := b }]
      ++ pay.map fun w => ({ kind := 10, strand := s.k, value := w } : TapeEntry)
    let decls := mine.map fun t =>
      let v := if t.2.1 = 0 then a else if t.2.1 = 1 then b else regs.getD t.2.2.1 0
      ({ field := t.2.1, reg := t.2.2.1, slot := t.2.2.2, entry := at_, value := v } : TapeDecl)
    let prev := (List.range regs.length).foldl (fun p i => putKey (fun q => q.1.1 + 16 * (q.1.2.1 + 8 * q.1.2.2))
      ((s.k, eng, i), regs.getD i 0) p) u.prev
    let pages := ranges.foldl (fun ps r => (s.guardPages r).foldl (fun ps p => if ps.contains p then ps else ps ++ [p]) ps) u.pages
    s.modCore fun c => { c with tape := { u with
      entries := u.entries ++ es, decls := u.decls ++ decls, tpend := u.tpend.filter fun t => t.1 != s.k, prev := prev, pages := pages } }

/-- A completed WAIT, MXCTL, TWAITC or END recorded (R332, SYNC). -/
def State.recordSync (s : State) : State := s.record [{ kind := 5, strand := s.k, word := s.ir }]

/-- A completed barrier phase recorded (R332, GATE). -/
def State.recordGate (s : State) : State :=
  if s.core.tape.recording.isNone then s
  else (s.record [{ kind := 7, strand := s.k, value := word s.core.tape.gates }]).modCore
    fun c => { c with tape := { c.tape with gates := c.tape.gates + 1 } }

/-! ## Counts (R77, R78) -/

/-- The operations of a class not yet retired (R78). -/
def Strand.unretired (t : Strand) (k : Cls) : Nat := t.issuedOf k - t.retiredOf k

/-- The records of a strand, queued or promised (R77). -/
def Strand.promised (t : Strand) : Nat := t.q2.length + (t.ops.filter fun o => o.record && !o.complete).length

/-- Whether the strand's handler was started by a kind-3 message (R209). -/
def State.hpStarted (s : State) : Bool := match s.st.start with
  | some m => m.kind == 3
  | none => false

/-- An operation entered: it takes the next id, its place in its class, its pc, word, FPCTL and the detector state at issue. -/
def State.addOp (s : State) (o : Op) : State :=
  let d := s.st.det
  let o := { o with id := s.sys.nextId, seq := s.st.issuedOf o.cls, pc := s.st.pc, word := s.ir, fpctl := s.fpctl,
                    rc := d.rc, rstamp := d.stamp, racq := d.acq, rovf := d.ovf, hp := s.hpStarted }
  (s.modSys fun y => { y with nextId := y.nextId + 1 }).modSt fun t =>
    { t with ops := t.ops ++ [o], issued := vset t.issued o.cls.no (t.issuedOf o.cls + 1) }

/-- An operation issued: it stalls while its class has 63 unretired operations, or while 16 records are queued or promised (R77, R78). -/
def issueOp (o : Op) (s : State) (f : State → State) : Act :=
  if 63 ≤ s.st.unretired o.cls then .hold
  else if o.record && 16 ≤ s.st.promised then .hold
  else .next (f (s.addOp o))

/-! ## Completion (R77, R80, R106, R107) -/

/-- The engine number of R73 in a completion record (R77). -/
def OpKind.engine : OpKind → Nat
  | .copy | .armed => 0
  | .isect | .part | .bmpack | .prune | .msearch => 2
  | .qnt | .dqnt => 3
  | .apass | .asub | .aunsub | .trayput | .trayget | .aclose => 4
  | _ => 1

/-- TRAPINFO of an operation's failure (R80, R107, R230): the codes MM_RACE and LOCKED_RANGE bring theirs. -/
def Op.trapOf (o : Op) (t : Trap) : Trap :=
  if t.code = 6 || t.code = 7 || t.code = 0x0A then t else { t with info := failInfo o.pc t.sub o.cls.no }

/-- The status byte of a completion record (R77). -/
def recordStatus : Option Trap → Nat
  | none => 0
  | some t => if t.code = 0x0C then t.sub else 0x80 + t.code

/-- An operation of the focused strand completes: its flags merge, its destination takes the value unless it failed, an enabled
exception gives it the status FP, its record is posted, its lock entry is freed, and the ranges of retired copies are let go. A failed
operation stays until its consumer reports it. -/
def State.completeOp (s : State) (o : Op) (r : Option Trap) (fl : Nat) (v : Option Word) : State :=
  let s := s.orFlags fl
  let s := match r, o.d, v with
    | none, some d, some v => s.setG d v
    | _, _, _ => s
  let fp := fl &&& enables o.fpctl
  let r := match r with
    | some t => some (o.trapOf t)
    | none => if fp = 0 then none else some { code := 0x15, info := failInfo o.pc fl o.cls.no }
  let s := s.modSt fun t => { t with
    ops := match r with
      | none => t.ops.filter fun p => p.id != o.id
      | some f => t.ops.map fun p => if p.id = o.id then { p with complete := true, fail := some f } else p
    q2 := if o.record then t.q2 ++ [word (o.pc % 2 ^ 48 + recordStatus r % 2 ^ 8 * 2 ^ 48 + o.kind.engine * 2 ^ 56)] else t.q2 }
  let s := s.modCluster s.cl fun c => { c with locks := c.locks.filter fun e => e.op != o.id }
  s.modCore fun c => { c with ranges := c.ranges.filter fun q =>
    q.strand != s.k || s.st.ops.any fun p => p.cls == .c && !p.complete && p.id ≤ q.op }

/-! ## Consumers (R78, R79, R80) -/

/-- The oldest failed operation, completed and retired, that some limits require to retire. -/
def Strand.report (t : Strand) (lim : Cls → Nat) : Option Op :=
  t.ops.find? fun o => o.complete && o.fail.isSome && t.retired o && o.seq + lim o.cls < t.issuedOf o.cls

/-- The operation's failure is reported and cleared (R80). -/
def reportOp (o : Op) : Act := .trap (o.fail.getD (plainTrap 0x0C)) fun s => s.dropOp o.id

/-- A wait until the count of every class is at or below its limit; it then consumes the oldest failure (R78, R79, R80). -/
def waitAll (lim : Cls → Nat) (s : State) (f : State → Act) : Act :=
  if [Cls.l, .s, .c, .t, .m].any fun k => lim k < s.st.unretired k then .hold
  else match s.st.report lim with
    | some o => reportOp o
    | none => f s

/-- Body of wait (R78): a field of 15 is a limit as any other. -/
def waitBody (nl ns nc nt nm : Nat) (s : State) : Act :=
  let lim : Cls → Nat
    | .l => nl
    | .s => ns
    | .c => nc
    | .t => nt
    | .m => nm
  waitAll lim s fun s => .next s.recordSync

/-- wait (R78). -/
def execWait (nl ns nc nt nm g : Nat) : State → Host.Outcome State Fault Refusal := issue g [] (waitBody nl ns nc nt nm)

/-- What an engine register keeps of a value written to it: CCTL, XCTL and ACTL only bit 0, for their bits 63:1 are RZ (R3, R74, R184, R281). -/
def shadowKept (eng idx : Nat) (v : Word) : Word := if idx = 7 && (eng = 0 || eng = 2 || eng = 4) then word (v.toNat % 2) else v

/-- A shadow register of an engine written (R73). -/
def State.setShadow (s : State) (eng idx : Nat) (v : Word) : State :=
  let v := shadowKept eng idx v
  s.modSt fun t =>
    let h := t.shadow
    { t with shadow := match eng with
      | 0 => { h with copy := vset h.copy idx v }
      | 1 => { h with mx := vset h.mx idx v }
      | 2 => { h with idx := vset h.idx idx v }
      | 3 => { h with qnt := vset h.qnt idx v }
      | 4 => { h with att := vset h.att idx v }
      | _ => h }

/-- eset (R73): the shadow register of an engine. -/
def execEset (idx a eng g : Nat) : State → Host.Outcome State Fault Refusal :=
  issue g [a] fun s => src a s fun v s => .next (s.setShadow eng idx v)

end Sys2Proof.Machine
end

