-- ==== Sys2Proof/Machine/Sync.lean ====
section
/-! DEFINITION. The race detector's releases and acquires (R228), the synchronisation engine and its cells (R243 to R253), and barriers
(R254 to R257). An operation on a cell is performed whole by its event, in the issue order of the strand (R246). -/

namespace Sys2Proof.Machine

/-! ## Releases and acquires (R227, R228) -/

/-- Whether count c' is later than c (R227). -/
def laterCount (c' c : Nat) : Bool := let d := (c' + 2 ^ 24 - c) % 2 ^ 24; 1 ≤ d && d ≤ 2 ^ 23

/-- A release of the focused strand. -/
def State.release (s : State) : State :=
  s.modSt fun t => { t with det := { t.det with rc := (t.det.rc + 1) % 2 ^ 24 } }

/-- The pair that a release carries. -/
def State.pair (s : State) : Nat × Nat := (s.me, s.st.det.rc)

/-- The acquire of a pair by a strand. -/
def Detector.acquire (d : Detector) (me : Nat) (p : Nat × Nat) : Detector :=
  if p.1 = me then d
  else if d.acq.any fun a => a.1 == p.1 then
    { d with acq := d.acq.map fun a => if a.1 = p.1 then (if laterCount p.2 a.2 then p else a) else a }
  else if d.acq.length < 8 then { d with acq := d.acq ++ [p] }
  else { d with ovf := true }

/-- The focused strand acquires a pair, if there is one. -/
def State.acquire (s : State) (p : Option (Nat × Nat)) : State :=
  match p with
  | some p => s.modSt fun t => { t with det := t.det.acquire s.me p }
  | none => s

/-- The focused strand completes phase n of a barrier. -/
def State.phaseDone (s : State) (cell n : Nat) : State :=
  s.modSt fun t => { t with det := { t.det with acq := [], ovf := false, stamp := some (cell, n) } }

/-- A variable's release: it keeps the pair of its most recent release (R222). -/
def State.releaseVar (s : State) (key : Nat) (p : Nat × Nat) : State :=
  s.modSys fun y => { y with cellRel := putKey (·.1) (key, p) y.cellRel }

/-- The pair a variable keeps. -/
def State.varPair (s : State) (key : Nat) : Option (Nat × Nat) := (s.sys.cellRel.find? fun e => e.1 == key).map (·.2)

/-! ## Cells (R243 to R245) -/

/-- Where a synchronisation access goes: the cell's key and the offset in it, a status, or a wait for its page. -/
inductive SyncAt where
  | cell (key off : Nat)
  | fail (t : Trap)
  | wait

/-- Whether a core may operate on a cell: its SCOPE names it (R232, R245). -/
def inScope (scope c : Nat) : Bool := bit scope 48 || inScopeRect scope c

/-- The SYNC page of an address: the key of its attic frame, its context and its page number. -/
def TlbEntry.syncPage (e : TlbEntry) (s : State) (va : Nat) : Nat × Nat × Nat :=
  (memKey 0 (e.home s) (e.pa va / 65536 * 65536), e.gid, va / 65536)

/-- A SYNC page about to be used: a frame that no page known to be mapped has, or only one under another key, is newly mapped and reads as all
zero; the attic of a darkroom context stands under its key (R243, R371). -/
def State.mapSync (s : State) (e : TlbEntry) (va : Nat) : State :=
  let g := e.syncPage s va
  if s.sys.syncPages.contains g then s
  else
    let kept := s.sys.syncPages.any fun x => x.1 == g.1 && s.ctxKey x.2.1 == s.ctxKey g.2.1
    let s := s.modSys fun y => { y with syncPages := g :: y.syncPages }
    if kept then s
    else (s.modSys fun y => { y with mem := y.mem.filter fun c => c.1 < g.1 || g.1 + 65536 ≤ c.1 }).resealed e.gid none g.1 65536

/-- The cell an access reaches (R245, R249, R360): the page shall be SYNC, the rights granted, the core in the cell's SCOPE; a
poisoned cell is not read (R410). -/
def State.syncAt (s : State) (p : Word) (rd wr : Bool) : State × SyncAt :=
  let va := p.toNat % 2 ^ 48
  if bits p.toNat 53 48 != 0 then (s, .fail (copyErr 4 va))
  else match s.translate s.gid va s.cl with
    | (s, .hit e) =>
      let s := if e.type = 5 then s.mapSync e va else s
      let key := memKey 0 (e.home s) (e.pa va / 128 * 128)
      if s.pathHeld s.dk (e.hdie s) then (s, .wait)
      else if e.type != 5 || (rd && !e.r) || (wr && !e.w) || !inScope (s.physN (key + 8) 8) s.here then (s, .fail (copyErr 2 va))
      else if (s.die (e.hdie s)).fenced 3 then (s, .fail (copyErr 9 va))
      else if (rd && s.poisonedAt key 128) || s.keyless s.gid then (s, .fail (softErr va))
      else (s, .cell key (e.pa va % 128))
    | (s, .fail sub) => (s, .fail (copyErr sub va))
    | (s, _) => (s, .wait)

def State.cellType (s : State) (key : Nat) : Nat := s.physN key 8 % 8
def State.cellV (s : State) (key : Nat) : Nat := s.physN (key + 16) 80
def State.setCellV (s : State) (key v : Nat) : State := s.setPhysN (key + 16) 80 v
def State.cellFlags (s : State) (key fl : Nat) : State := s.setPhysN key 8 (s.physN key 8 ||| fl * 256)

/-- An operation that waits on an ABSENT page rereads the entry after 10 µs (R364). -/
def State.absent (s : State) (o : Op) : State :=
  s.modSt fun t => { t with ops := t.ops.map fun p => if p.id = o.id then { p with absentAt := s.sys.now + 10000 } else p }

/-- An operation that cannot go on now: it rereads the entry of a page that it waits for after 10 µs (R364); a bank's wake (R346) or a relock (R342) it
waits out. -/
def State.stallOp (s : State) (o : Op) (page : Bool) : State := if page then s.absent o else s

/-- The variable of a cell that an offset lies in (R222, R244): an exact accumulator is one variable, other cells have one in each doubleword. -/
def State.varOf (s : State) (key off : Nat) : Nat := if s.cellType key = 1 then key / 8 else (key + off) / 8

/-- The waits for the phases of a cell that satisfy a test end: by completion, or by a store to the cell. -/
def State.endWaits (s : State) (key : Nat) (done : Nat → Bool) (ok : Bool) : State :=
  let fix (c : Core) : Core := { c with strands := c.strands.map fun t => match t.waiting with
    | .barrier k m none => if k = key && done m then { t with waiting := .barrier k m (some ok) } else t
    | _ => t }
  { s with core := fix s.core, others := s.others.map fix }

/-- Strands that wait at a barrier cell are released with PROT by a store to its doubleword 0 (R245). -/
def State.freeWaiters (s : State) (key : Nat) : State := s.endWaits key (fun _ => true) false

/-- A GST of n bytes to a cell (R245): a failing sub-reason, or the cell written. DESIGN CHOICE (log entry 71): where n is below 8, what doubleword
0, 1 or 2 takes is the written bytes merged with the doubleword's other bytes as they stand. -/
def State.cellStore (s : State) (key off n v : Nat) : Except Nat State :=
  let old := s.physN (key + off / 8 * 8) 8
  let sh := 8 * (off % 8)
  let new := old - (bits old (sh + 8 * n - 1) sh) * 2 ^ sh + v % 2 ^ (8 * n) * 2 ^ sh
  let ty := s.cellType key
  if off / 8 = 0 then
    if 3 ≤ new % 8 || bits new 7 3 != 0 || bits new 63 13 != 0 then .error 8
    else .ok ((if ty = 2 then s.freeWaiters key else s).setPhysN key 128 (new + s.physN (key + 8) 8 * 2 ^ 64))
  else if off / 8 = 1 then if bits new 63 49 != 0 then .error 8 else .ok (s.setPhysN (key + 8) 8 new)
  else if ty = 2 then
    if off / 8 = 2 && bits old 63 32 = 0 then .ok (s.setPhysN (key + 16) 4 (new % 2 ^ 32)) else .error 2
  else if ty = 1 && 96 ≤ off then .error 2
  else .ok (s.setPhysN (key + off) n v)

/-! ## Atomics -/

/-- The operations of AMO by op code (R247). -/
def amoApply (op n old v : Nat) : Nat :=
  match op with
  | 0 => addN n old v
  | 1 => minN n true old v
  | 2 => maxN n true old v
  | 3 => minN n false old v
  | 4 => maxN n false old v
  | 5 => old &&& v
  | 6 => old ||| v
  | 7 => old ^^^ v
  | _ => v

/-- The engine a pointer's page is served by, when it is a SYNC page: die key + 1; 0 otherwise. -/
def State.engineOf (s : State) (p : Word) : Nat :=
  match (s.translate s.gid (p.toNat % 2 ^ 48) s.cl).2 with
  | .hit e => if e.type = 5 then e.hdie s + 1 else 0
  | _ => 0

/-- Whether an operation is a synchronisation access (R246). -/
def OpKind.isSync : OpKind → Bool
  | .amo | .amocas | .famo | .red | .redf | .arrive => true
  | _ => false

/-- Whether a GLD or GST reaches a SYNC page. -/
def State.onSync (s : State) (o : Op) : Bool := (o.kind == .gld || o.kind == .gst) && s.engineOf o.a != 0

/-- Whether an operation is a synchronisation access, or a GLD or GST that may be one: its page has no translation yet (R246). -/
def State.syncOp (s : State) (o : Op) : Bool := o.kind.isSync || s.onSync o
  || ((o.kind == .gld || o.kind == .gst) && (s.translate s.gid (o.a.toNat % 2 ^ 48) s.cl).2 == .absent)

/-- A synchronisation access issued (R246): it waits at issue for an earlier one that targets another engine; it is a release (R222). -/
def syncIssue (o : Op) (s : State) : Act :=
  let eng := s.engineOf o.a
  if s.st.ops.any fun p => !p.complete && s.syncOp p && p.target != eng then .hold
  else issueOp { o with target := eng } s.release.sideEffect id

/-- A destination register of an asynchronous operation; g0 discards the value. -/
def destOf (d : Nat) : Option Nat := if d = 0 then none else some d

def amoOp (op d a b sz g : Nat) : State → Host.Outcome State Fault Refusal :=
  let n := widthOf sz / 8
  issueNoSpec g [d, a, b] fun s => src a s fun x s => src b s fun y s =>
    if x.toNat % 2 ^ 48 % n != 0 then .code 3
    else syncIssue { kind := .amo, cls := .l, n := n, op := op, d := destOf d, a := x, b := y } s

def redOp (op a b sz g : Nat) : State → Host.Outcome State Fault Refusal :=
  let n := widthOf sz / 8
  issueNoSpec g [a, b] fun s => src a s fun x s => src b s fun y s =>
    if x.toNat % 2 ^ 48 % n != 0 then .code 3
    else syncIssue { kind := .red, cls := .s, n := n, op := op, a := x, b := y } s

/-- fmin and fmax are aligned to the format; the others take the cell's base (R250). -/
def famoOp (op d a b fmt g : Nat) : State → Host.Outcome State Fault Refusal :=
  let n := (fmtOf fmt).width / 8
  issueNoSpec g [d, a, b] fun s => src a s fun x s => src b s fun y s =>
    if (op = 1 || op = 2) && x.toNat % 2 ^ 48 % n != 0 then .code 3
    else syncIssue { kind := .famo, cls := .l, n := fmt, op := op, d := destOf d, a := x, b := y } s

def redfOp (op a b fmt g : Nat) : State → Host.Outcome State Fault Refusal :=
  let n := (fmtOf fmt).width / 8
  issueNoSpec g [a, b] fun s => src a s fun x s => src b s fun y s =>
    if op != 0 && x.toNat % 2 ^ 48 % n != 0 then .code 3
    else syncIssue { kind := .redf, cls := .s, n := fmt, op := op, a := x, b := y } s

/-- An AMO, integer RED or AMOCAS performed on a cell (R247 to R249): the cell's new value by the old one. -/
def State.cellAmo (s : State) (o : Op) (key off n : Nat) (f : Nat → Nat) : State :=
  if s.cellType key != 0 || off < 16 then s.completeOp o (some (copyErr 2 (o.a.toNat % 2 ^ 48))) 0 none
  else
    let old := s.physN (key + off) n
    let var := s.varOf key off
    let s := (s.setPhysN (key + off) n (f old))
    let s := if o.cls = .l then s.acquire (s.varPair var) else s
    (s.releaseVar var (s.me, o.rc)).completeOp o none 0 (some (word old))

/-- An FAMO or float RED performed on a cell (R250 to R253): flags go to the cell and to the issuer. A RED rounds nothing. -/
def State.cellFamo (s : State) (o : Op) (key off : Nat) : State :=
  let f := fmtOf o.n
  let prot := s.completeOp o (some (copyErr 2 (o.a.toNat % 2 ^ 48))) 0 none
  let done (s : State) (v fl : Nat) : State :=
    let var := s.varOf key off
    let s := s.cellFlags key fl
    let s := if o.cls = .l then s.acquire (s.varPair var) else s
    (s.releaseVar var (s.me, o.rc)).completeOp o none fl (some (word v))
  if o.op = 0 || o.op = 3 then
    if s.cellType key != 1 || off != 0 then prot
    else
      let v := s.cellV key
      let r := if o.cls = .l then accRound f o.fpctl v else (0, 0)
      if o.op = 3 then done (if bit o.b.toNat 0 then s.setCellV key 0 else s) r.1 r.2
      else
        let (t, fl) := accAddend (f.value (fizOf o.fpctl) (o.b.toNat % 2 ^ f.width))
        let w := accAdd v t
        done (s.setCellV key w.1) r.1 (r.2 ||| fl ||| w.2)
  else if s.cellType key != 0 || off < 16 then prot
  else
    let n := f.width / 8
    let old := s.physN (key + off) n
    let r := f.minmax (o.op = 2) 0 old (o.b.toNat % 2 ^ f.width)
    done (s.setPhysN (key + off) n r.1) old r.2

/-! ## Barriers (R254 to R257) -/

/-- Whether phase m has completed (R255). -/
def phasePast (phase m : Nat) : Bool := let d := (phase + 2 ^ 32 - m % 2 ^ 32) % 2 ^ 32; 1 ≤ d && d ≤ 2 ^ 31

/-- An arrival or a drop applied to a cell (R256): the ticket, or the sub-reason GEOM or PROT. The arrival that completes a phase ends the waits
for it. -/
def State.cellArrive (s : State) (key : Nat) (drop : Bool) : Except Nat (State × Nat) :=
  let d2 := s.physN (key + 16) 8
  let d3 := s.physN (key + 24) 8
  let expect := d2 % 2 ^ 32
  let arrived := d2 / 2 ^ 32 + 1
  let phase := d3 % 2 ^ 32
  let drops := d3 / 2 ^ 32 + num drop
  if s.cellType key != 2 then .error 2
  else if expect = 0 then .error 8
  else if arrived = expect then
    .ok (((s.endWaits key (phasePast ((phase + 1) % 2 ^ 32)) true).setPhysN (key + 16) 8 ((expect + 2 ^ 32 - drops % 2 ^ 32) % 2 ^ 32)).setPhysN (key + 24) 8 ((phase + 1) % 2 ^ 32), phase)
  else .ok ((s.setPhysN (key + 16) 8 (expect + arrived % 2 ^ 32 * 2 ^ 32)).setPhysN (key + 24) 8 (phase + drops % 2 ^ 32 * 2 ^ 32), phase)

def arriveOp (drop d a g : Nat) : State → Host.Outcome State Fault Refusal :=
  issueNoSpec g [d, a] fun s => src a s fun x s =>
    syncIssue { kind := .arrive, cls := .l, op := drop, d := destOf d, a := x } s

/-- Whether a barrier's scope spans beyond the waiting strand's crew (R257). -/
def State.scopeSpans (s : State) (scope : Nat) : Bool :=
  bit scope 48 || match s.crew with
    | some c => !(c.x0 ≤ bits scope 11 0 && bits scope 35 24 ≤ c.x1 && c.y0 ≤ bits scope 23 12 && bits scope 47 36 ≤ c.y1)
    | none => true

/-- bar.wait and bar.test (R255, R257): the synchronous access to the cell, which fails at itself; the body takes the cell and the phase.
It waits for the strand's earlier synchronisation accesses (R246). DESIGN CHOICE (log entry 72): a pointer that is not the base of its cell fails
with PROT, and PROT comes before BAR_SCOPE where both hold. -/
def barAccess (p : Word) (s : State) (f : Nat → Nat → State → Act) : Act :=
  if s.st.ops.any fun o => !o.complete && s.syncOp o then .hold
  else
    let prot : Act := .trap { s.selfErr 2 6 with addr := word (p.toNat % 2 ^ 48) } id
    match s.syncAt p true true with
    | (_, .wait) => .wait fun s => (s.syncAt p true true).1
    | (s, .fail t) => .trap (if t.code = 0x16 then t else { s.selfErr t.sub 6 with addr := t.addr }) id
    | (s, .cell key off) =>
      if s.cellType key != 2 || off != 0 then prot
      else if s.scopeSpans (s.physN (key + 8) 8) then .code 0x10
      else f key (s.physN (key + 24) 8 % 2 ^ 32) s

/-- bar.arr (R255). -/
def execBarArr (d a g : Nat) : State → Host.Outcome State Fault Refusal := arriveOp 0 d a g

/-- bar.drop (R255). -/
def execBarDrop (d a g : Nat) : State → Host.Outcome State Fault Refusal := arriveOp 1 d a g

/-- bar.wait (R255, R257): its access is checked once; then it is in WAIT until the phase completes (R256), or until a store to the cell
releases it with PROT (R245). -/
def execBarWait (a b g : Nat) : State → Host.Outcome State Fault Refusal :=
  issueNoSpec g [a, b] fun s => src a s fun x s => src b s fun y s =>
    match s.st.waiting with
    | .barrier _ _ (some false) => .trap { s.selfErr 2 6 with addr := word (x.toNat % 2 ^ 48) } id
    | .barrier key m (some true) => .next (s.phaseDone key m).recordGate
    | .barrier _ _ none => .hold
    | _ => barAccess x s fun key phase s =>
      let m := y.toNat % 2 ^ 32
      if phasePast phase m then .next (s.phaseDone key m).recordGate
      else .wait fun s => s.modSt fun t => { t with waiting := .barrier key m none }

/-- bar.test (R255, R257). -/
def execBarTest (p a b g : Nat) : State → Host.Outcome State Fault Refusal :=
  issueNoSpec g [a, b] fun s => src a s fun x s => src b s fun y s =>
    barAccess x s fun key phase s =>
      let m := y.toNat % 2 ^ 32
      if phasePast phase m then .next ((s.phaseDone key m).recordGate.setP p true) else .next (s.setP p false)

/-! ## Events -/

/-- An event about one operation of a strand: nothing where the operation is not outstanding. -/
def opEvent (c k id : Nat) (ok : Op → Bool) (f : Op → State → State) (s : State) : Host.Outcome State Fault Refusal :=
  if !s.inMesh c || 16 ≤ k then .next s
  else .next (s.atCore c k fun s =>
    match s.st.opById id with
    | some o => if !o.complete && ok o && !(s.core.savedLocks.any fun e => e.op == o.id) then f o s else s
    | none => s)

/-- Whether an earlier synchronisation access of the strand has not been performed (R246). -/
def State.syncBehind (s : State) (o : Op) : Bool := s.st.ops.any fun p => p.id < o.id && !p.complete && s.syncOp p

/-- A GLD or GST of the focused strand performed on a SYNC page (R245). A GST is a release (R222): at its issue, or here where its page had no
translation at issue (log entry 60). A cell with an uncorrectable error gives SOFT_ERR until a store to its doubleword 0 (R410). -/
def State.syncMove (s : State) (o : Op) : State :=
  let va := o.a.toNat % 2 ^ 48
  match s.syncAt o.a (o.kind == .gld) (o.kind == .gst) with
  | (s, .wait) => s.absent o
  | (s, .fail t) => s.completeOp o (some t) 0 none
  | (s, .cell key off) =>
    let var := s.varOf key off
    if o.kind = .gld then
      (s.acquire (s.varPair var)).completeOp o none 0 (some (extend (8 * o.n) o.sgn (s.physN (key + off) o.n)))
    else
      if s.poisonedAt key 128 && !(off = 0 && o.n = 8) then s.completeOp o (some (softErr va)) 0 none
      else match s.cellStore key off o.n o.b.toNat with
      | .error sub => s.completeOp o (some (copyErr sub va)) 0 none
      | .ok s =>
        let s := (if o.target = 0 then s.release else s).unpoisoned key 128
        (s.releaseVar var (s.me, if o.target = 0 then s.st.det.rc else o.rc)).completeOp o none 0 none

/-- SYNC_ACCESS_PERFORMED (R246): an atomic, or a GLD or GST of a SYNC page, performed at the engine. -/
def execSyncAccessPerformed (c k id : Nat) (s : State) : Host.Outcome State Fault Refusal :=
  opEvent c k id (fun o => o.kind.isSync && o.kind != .arrive || o.kind == .gld || o.kind == .gst) (fun o s =>
    if !o.kind.isSync && (!s.onSync o || s.st.task.isSome) || s.syncBehind o || s.sys.now < o.absentAt then s
    else if o.kind = .gld || o.kind = .gst then s.syncMove o
    else match s.syncAt o.a (o.cls == .l) true with
      | (s, .wait) => s.absent o
      | (s, .fail t) => s.completeOp o (some t) 0 none
      | (s, .cell key off) =>
        if s.poisonedAt key 128 then s.completeOp o (some (softErr (o.a.toNat % 2 ^ 48))) 0 none
        else match o.kind with
        | .amo | .red => s.cellAmo o key off o.n fun old => amoApply o.op (8 * o.n) old (o.b.toNat % 2 ^ (8 * o.n))
        | .amocas => s.cellAmo o key off o.n fun old =>
            if old = o.b.toNat % 2 ^ (8 * o.n) then o.c.toNat % 2 ^ (8 * o.n) else old
        | _ => s.cellFamo o key off) s

/-- BARRIER_ARRIVAL (R256). DESIGN CHOICE (log entry 72): a pointer that is not the base of its cell completes with PROT. -/
def execBarrierArrival (c k id : Nat) (s : State) : Host.Outcome State Fault Refusal :=
  opEvent c k id (fun o => o.kind == .arrive) (fun o s =>
    if s.syncBehind o || s.sys.now < o.absentAt then s
    else match s.syncAt o.a true true with
      | (s, .wait) => s.absent o
      | (s, .fail t) => s.completeOp o (some t) 0 none
      | (s, .cell key off) =>
        if off != 0 then s.completeOp o (some (copyErr 2 (o.a.toNat % 2 ^ 48))) 0 none
        else match s.cellArrive key (o.op = 1) with
          | .error sub => s.completeOp o (some (copyErr sub (o.a.toNat % 2 ^ 48))) 0 none
          | .ok (s, t) => s.completeOp o none 0 (some (word t))) s

/-! ## The instructions -/

/-- amocas (R248): sub is the size, 0 for 8 bits to 3 for 64. -/
def execAmocas (d a b c sz g : Nat) : State → Host.Outcome State Fault Refusal :=
  let n := bytesOfSize sz
  issueNoSpec g [d, a, b, c] fun s => src a s fun x s => src b s fun y s => src c s fun z s =>
    if x.toNat % 2 ^ 48 % n != 0 then .code 3
    else syncIssue { kind := .amocas, cls := .l, n := n, d := destOf d, a := x, b := y, c := z } s

/-- amo.add (R247). -/
def execAmoAdd (d a b sz g : Nat) : State → Host.Outcome State Fault Refusal := amoOp 0 d a b sz g

/-- amo.min (R247). -/
def execAmoMin (d a b sz g : Nat) : State → Host.Outcome State Fault Refusal := amoOp 1 d a b sz g

/-- amo.max (R247). -/
def execAmoMax (d a b sz g : Nat) : State → Host.Outcome State Fault Refusal := amoOp 2 d a b sz g

/-- amo.minz (R247). -/
def execAmoMinz (d a b sz g : Nat) : State → Host.Outcome State Fault Refusal := amoOp 3 d a b sz g

/-- amo.maxz (R247). -/
def execAmoMaxz (d a b sz g : Nat) : State → Host.Outcome State Fault Refusal := amoOp 4 d a b sz g

/-- amo.and (R247). -/
def execAmoAnd (d a b sz g : Nat) : State → Host.Outcome State Fault Refusal := amoOp 5 d a b sz g

/-- amo.or (R247). -/
def execAmoOr (d a b sz g : Nat) : State → Host.Outcome State Fault Refusal := amoOp 6 d a b sz g

/-- amo.xor (R247). -/
def execAmoXor (d a b sz g : Nat) : State → Host.Outcome State Fault Refusal := amoOp 7 d a b sz g

/-- amo.swap (R247). -/
def execAmoSwap (d a b sz g : Nat) : State → Host.Outcome State Fault Refusal := amoOp 8 d a b sz g

/-- red.add (R253). -/
def execRedAdd (a b sz g : Nat) : State → Host.Outcome State Fault Refusal := redOp 0 a b sz g

/-- red.min (R253). -/
def execRedMin (a b sz g : Nat) : State → Host.Outcome State Fault Refusal := redOp 1 a b sz g

/-- red.max (R253). -/
def execRedMax (a b sz g : Nat) : State → Host.Outcome State Fault Refusal := redOp 2 a b sz g

/-- red.minz (R253). -/
def execRedMinz (a b sz g : Nat) : State → Host.Outcome State Fault Refusal := redOp 3 a b sz g

/-- red.maxz (R253). -/
def execRedMaxz (a b sz g : Nat) : State → Host.Outcome State Fault Refusal := redOp 4 a b sz g

/-- red.and (R253). -/
def execRedAnd (a b sz g : Nat) : State → Host.Outcome State Fault Refusal := redOp 5 a b sz g

/-- red.or (R253). -/
def execRedOr (a b sz g : Nat) : State → Host.Outcome State Fault Refusal := redOp 6 a b sz g

/-- red.xor (R253). -/
def execRedXor (a b sz g : Nat) : State → Host.Outcome State Fault Refusal := redOp 7 a b sz g

/-- famo.faddx (R250, R251). -/
def execFamoFaddx (d a b fmt g : Nat) : State → Host.Outcome State Fault Refusal := famoOp 0 d a b fmt g

/-- famo.fmin (R250, R251). -/
def execFamoFmin (d a b fmt g : Nat) : State → Host.Outcome State Fault Refusal := famoOp 1 d a b fmt g

/-- famo.fmax (R250, R251). -/
def execFamoFmax (d a b fmt g : Nat) : State → Host.Outcome State Fault Refusal := famoOp 2 d a b fmt g

/-- famo.frdx (R250, R251). -/
def execFamoFrdx (d a b fmt g : Nat) : State → Host.Outcome State Fault Refusal := famoOp 3 d a b fmt g

/-- red.faddx (R253). -/
def execRedFaddx (a b fmt g : Nat) : State → Host.Outcome State Fault Refusal := redfOp 0 a b fmt g

/-- red.fmin (R253). -/
def execRedFmin (a b fmt g : Nat) : State → Host.Outcome State Fault Refusal := redfOp 1 a b fmt g

/-- red.fmax (R253). -/
def execRedFmax (a b fmt g : Nat) : State → Host.Outcome State Fault Refusal := redfOp 2 a b fmt g

end Sys2Proof.Machine
end

