-- ==== Sys2Proof/Machine/Net.lean ====
section
/-! DEFINITION. Messages as strands form them: the outbound buffer (R199, R212), the reply table (R201), SEND, SENDM and REPLY (R206 to
R211), RST, RLD and RAMO (R213), the porch and MSG (R215, R216), OWNER (R217), FENCE (R234). -/

namespace Sys2Proof.Machine

/-! ## Sending -/

/-- Whether a destination lies in the crew's rectangle or beyond a declared gateway (R209). -/
def State.reaches (s : State) (c : Nat) : Bool := match s.crew with
  | some w => inRect c w.x0 w.y0 w.x1 w.y1 || w.gates.any fun g => inScopeRect g.2.2 c
  | none => false

/-- Whether the reply table has an entry free (R201). An entry that a handler reply has matched is freed when that handler is dispatched, so
that the HP queue's 16 places suffice (R307; DESIGN CHOICE, log entry 59). -/
def State.replyFree (s : State) : Bool := s.core.ni.reply.length + s.core.ni.hpq.length < 16

/-- Whether an operation of the focused strand holds an entry of the reply table (R201). -/
def State.hasReply (s : State) (o : Op) : Bool := s.core.ni.reply.any fun e => e.strand == s.k && e.op == o.id

/-- A reply-table entry taken for the operation just entered (R201). -/
def State.takeReply (s : State) (group ch server target : Nat) : State :=
  let op := (s.st.ops.getLast?.map (·.id)).getD 0
  s.modNi fun n => { n with reply := n.reply ++ [{ group := group, ch := ch, server := server, target := target, strand := s.k, op := op }] }

/-- The timestamp and id of the speculative task the strand runs. -/
def State.heldFor (s : State) : Option (Nat × Nat) := s.st.task.map fun r => (r.ts, r.id)

/-- Whether a GLD or GST of the focused core may still become a message: its translation is not at hand, or it reaches another core's
scratchpad and has not been sent (R71, R199). -/
def State.unformed (s : State) (o : Op) : Bool :=
  (o.kind == .gld || o.kind == .gst) && !o.complete && !o.started && bits o.a.toNat 53 48 == 0 &&
    match s.cached (o.a.toNat % 2 ^ 48) with
    | none => true
    | some e => e.promotes || (e.type == 4 && e.scratchCore != s.here)

/-- Whether an instruction that forms a message has to wait for a GLD or GST that a strand of its core issued earlier, of those before `before`:
messages enter the buffer in the order of issue (R199). -/
def State.unsent (s : State) (before : Nat) : Bool := s.core.allOps.any fun o => o.id < before && s.unformed o

/-- A message of the focused strand formed (R195, R207) under a detector state, entered in the outbound buffer, and traced (R416). -/
def State.enterAs (s : State) (det : Detector) (kind pri ch flits target dest : Nat) (pay : List Word) (rect : Option Nat)
    (rel : Option (Nat × Nat)) (mark : Mark) : State :=
  let m : Msg :=
    { h0 := header0 kind pri ch flits s.st.tron s.st.task.isSome target
      h1 := header1 dest s.here s.st.csr.jobno.toNat
      h2 := word (s.st.csr.taskid.toNat % 2 ^ 32 * 2 ^ 32)
      pay := padTo (4 * flits - 3) pay
      gid := s.gid, mark := mark, release := rel, rect := rect, who := s.me, det := det
      made := if s.core.tape.recording.isSome then some s.core.tape.entries.length else none }
  let s := s.modNi fun n => { n with outb := n.outb ++ [{ msg := m, strand := s.k, held := s.heldFor }] }
  let s := if kind = 6 then s else s.sideEffect
  s.trace 1 (num s.st.task.isSome)
    (word (dest % 2 ^ 24 + kind * 2 ^ 24 + ch * 2 ^ 27 + (flits - 1) * 2 ^ 29 + target % 2 ^ 32 * 2 ^ 32))

/-- A message of the focused strand formed under its present detector state. -/
def State.enter (s : State) (kind pri ch flits target dest : Nat) (pay : List Word) (rect : Option Nat)
    (rel : Option (Nat × Nat)) (mark : Mark) : State := s.enterAs s.st.det kind pri ch flits target dest pay rect rel mark

/-- The message entered last expects a handler reply (R201). -/
def State.expectReply (s : State) : State := s.modNi fun n => match n.outb.getLast? with
  | some o => { n with outb := n.outb.dropLast ++ [{ o with msg := { o.msg with sub := 3 } }] }
  | none => n

/-- Whether the outbound buffer is full (R212). -/
def State.outFull (s : State) : Bool := 8 ≤ s.core.ni.outb.length

/-- A length of a remote store that R202 allows in a message of F flits. -/
def storeLen (len flits : Nat) : Bool :=
  len = 1 || len = 2 || len = 4 || (len != 0 && len % 8 = 0 && len ≤ 8 * (4 * flits - 4))

/-- The checks of R209 and R210 that every form shares: payload, kind, target; the body is the rest. -/
def sendChecks (many : Bool) (pri ch flits kind : Nat) (h : Word) (s : State) (f : Act) : Act :=
  let n := s.st.q1.length
  let cap := 4 * flits - 3
  let q := (s.st.q1.getD 0 0).toNat
  let rx := bit h.toNat 63
  if cap < n then .ill s 4
  else if kind = 2 || kind = 4 || kind = 7 || (kind = 3 && pri = 0) || (kind = 5 && flits != 2) || (kind = 6 && ch = 3) then .ill s 2
  else if many && (!(kind = 0 || kind = 1) || (kind = 0 && rx)) then .ill s 2
  else if kind = 3 && (4 < flits || h.toNat % 4 != 0) then .ill s 2
  else if (kind = 0 || kind = 5) && h.toNat % 4 != 0 then .code 3
  else if kind = 1 && (!storeLen (q % 256) flits || q / 256 != 0 || bits h.toNat 47 18 != 0) then .ill s 2
  else if kind = 1 && h.toNat % min (q % 256) 8 != 0 then .code 3
  else f

/-- UNREACHABLE raised at the sending instruction: class 4 (R209). -/
def unreachable (s : State) : Act := .trap (s.selfErr 9 4) id

/-- Whether a send is reply-expecting (R201). -/
def expects (kind : Nat) (h : Word) : Bool := kind = 1 || kind = 6 || ((kind = 0 || kind = 5) && bit h.toNat 63)

/-- The operation a reply-expecting send issues (R201): class S for a store of n bytes on a channel, else M; an engine command promises a
record (R77). -/
def sendOp (kind ch n dest : Nat) (h : Word) : Op :=
  if kind = 1 then { kind := .sendStore, cls := .s, op := ch, n := n, target := dest, a := h }
  else if kind = 6 then { kind := .sendEngine, cls := .m, target := dest, record := true }
  else { kind := .sendHandler, cls := .m, target := dest }

/-- The reply group a send waits for. -/
def sendGroup (kind : Nat) : Nat := if kind = 1 then 0 else if kind = 6 then 2 else 3

/-- The pushed words are taken (R207). -/
def State.takeQ1 (s : State) : State := s.modSt fun t => { t with q1 := [] }

/-- Whether an operation is an access of some scratchpad. -/
def State.scratchAny (s : State) (o : Op) : Bool := match o.kind with
  | .gld | .gst => match s.cached (o.a.toNat % 2 ^ 48) with
    | some e => e.type == 4
    | none => false
  | .rst | .rld | .ramo | .sendStore => true
  | _ => false

/-- sendm (R210): one copy to every core of a rectangle of the crew. A kind-1 SENDM waits for every access of a scratchpad that its channel does not
keep in order with it (R220). -/
def execSendm (pri ch fl h d kind g : Nat) : State → Host.Outcome State Fault Refusal :=
  issue g [h, d] fun s =>
    let r := (s.g d).toNat % 2 ^ 48
    let hv := s.g h
    let (x0, y0, x1, y1) := (bits r 11 0, bits r 23 12, bits r 35 24, bits r 47 36)
    if s.st.task.isSome && (!(kind = 0 || kind = 5) || bit hv.toNat 63) then .code 0x12
    else sendChecks true pri ch (fl + 1) kind hv s <|
      if kind = 1 && s.hpStarted then .ill s 2
      else
        let inside := match s.crew with
          | some w => inRect (pack x0 y0) w.x0 w.y0 w.x1 w.y1 && inRect (pack x1 y1) w.x0 w.y0 w.x1 w.y1
          | none => false
        if x1 < x0 || y1 < y0 || !inside then unreachable s
        else if (kind = 1 && !s.replyFree) || s.outFull || s.unsent s.sys.nextId then .hold
        else if kind = 1 && s.st.ops.any fun o => !o.complete && s.scratchAny o && !o.onChannel ch then .hold
        else
          let pay := s.st.q1
          let go (s : State) : State :=
            let s := s.release
            (s.enter kind pri ch (fl + 1) (hv.toNat % 2 ^ 48) (pack x0 y0) pay (some r) (some s.pair) .none).takeQ1
          if kind = 1 then
            issueOp { kind := .sendStore, cls := .s, op := ch, n := (s.st.q1.getD 0 0).toNat % 256, target := pack x0 y0, a := hv, regs := [word r] } s fun s =>
              go (s.takeReply 0 ch (pack x0 y0) (hv.toNat % 2 ^ 48))
          else .next (go s)

/-- reply (R211): to the source of the starting message, on its channel. -/
def execReply (fl h g : Nat) : State → Host.Outcome State Fault Refusal :=
  issueNoSpec g [h] fun s =>
    let hv := s.g h
    match s.st.start with
    | none => .ill s 2
    | some m =>
      sendChecks false 1 0 (fl + 1) 3 hv s <|
        if m.kind = 3 || m.kind = 7 || s.st.replied then .ill s 2
        else if s.outFull || s.unsent s.sys.nextId then .hold
        else
          let s' := s.release
          .next (((s'.enter 3 1 m.ch (fl + 1) (hv.toNat % 2 ^ 48) m.src s.st.q1 none (some s'.pair) .none).takeQ1).modSt
            fun t => { t with replied := true })

/-! ## Remote access (R213) -/

/-- A remote access of the focused strand: a 2-flit message on channel 0 with a reply-table entry. -/
def remoteIssue (o : Op) (kind group dest off : Nat) (pay : List Word) (s : State) : Act :=
  if s.hpStarted then .ill s 2
  else if !s.replyFree || s.outFull || s.unsent s.sys.nextId || s.behind s.sys.nextId dest (some 0) [(off, o.n)] then .hold
  else issueOp { o with a := word off } s fun s => (s.takeReply group 0 dest off).enter kind 0 0 2 off dest pay none none .none

/-- rst (R213). -/
def execRst (d a b sz g : Nat) : State → Host.Outcome State Fault Refusal :=
  let n := widthOf sz / 8
  issueNoSpec g [a, b, d] fun s => src a s fun x s => src b s fun y s => src d s fun v s =>
    let off := y.toNat % 2 ^ 18
    if off % n != 0 then .code 3
    else remoteIssue { kind := .rst, cls := .s, n := n, target := x.toNat % 2 ^ 24 } 1 0 (x.toNat % 2 ^ 24) off
      [word n, word (v.toNat % 2 ^ (8 * n))] s

/-- rld (R213). -/
def execRld (d a b sz sgn g : Nat) : State → Host.Outcome State Fault Refusal :=
  let n := widthOf sz / 8
  issueNoSpec g [d, a, b] fun s => src a s fun x s => src b s fun y s =>
    let off := y.toNat % 2 ^ 18
    if off % n != 0 then .code 3
    else remoteIssue { kind := .rld, cls := .l, n := n, d := destOf d, sgn := sgn == 1, target := x.toNat % 2 ^ 24 } 2 1
      (x.toNat % 2 ^ 24) off [word (3 - sz)] s

/-- ramo (R213): size, op, sgn and the captured FPCTL fields in word 0 (R202). -/
def ramoOp (op d a b sz sgn g : Nat) : State → Host.Outcome State Fault Refusal :=
  let n := widthOf sz / 8
  issueNoSpec g [d, a, b] fun s => src a s fun x s => src b s fun y s =>
    let off := y.toNat % 2 ^ 18
    let f := s.fpctl
    let w0 := (3 - sz) + op * 2 ^ 2 + sgn * 2 ^ 6 + f % 8 * 2 ^ 7 + bits f 4 3 * 2 ^ 10 + bits f 9 5 * 2 ^ 12
    if off % n != 0 then .code 3
    else remoteIssue { kind := .ramo, cls := .l, n := n, d := destOf d, sgn := sgn == 1, op := op, target := x.toNat % 2 ^ 24 } 4 1
      (x.toNat % 2 ^ 24) off [word w0, s.g d] s

/-- ramo.add. -/
def execRamoAdd (d a b sz sgn g : Nat) : State → Host.Outcome State Fault Refusal := ramoOp 0 d a b sz sgn g
/-- ramo.min. -/
def execRamoMin (d a b sz sgn g : Nat) : State → Host.Outcome State Fault Refusal := ramoOp 1 d a b sz sgn g
/-- ramo.max. -/
def execRamoMax (d a b sz sgn g : Nat) : State → Host.Outcome State Fault Refusal := ramoOp 2 d a b sz sgn g
/-- ramo.and. -/
def execRamoAnd (d a b sz sgn g : Nat) : State → Host.Outcome State Fault Refusal := ramoOp 3 d a b sz sgn g
/-- ramo.or. -/
def execRamoOr (d a b sz sgn g : Nat) : State → Host.Outcome State Fault Refusal := ramoOp 4 d a b sz sgn g
/-- ramo.xor. -/
def execRamoXor (d a b sz sgn g : Nat) : State → Host.Outcome State Fault Refusal := ramoOp 5 d a b sz sgn g
/-- ramo.swap. -/
def execRamoSwap (d a b sz sgn g : Nat) : State → Host.Outcome State Fault Refusal := ramoOp 6 d a b sz sgn g
/-- ramo.fadd: FP32. -/
def execRamoFadd (d a b g : Nat) : State → Host.Outcome State Fault Refusal := ramoOp 7 d a b 1 0 g

/-! ## The porch and MSG (R214 to R216) -/

/-- The porch bytes that are allocated. -/
def Core.porchUsed (c : Core) : Nat := (c.ni.porch.map (·.len)).foldl (· + ·) 0

/-- The porch bytes of a message (R215). -/
def Msg.porchLen (m : Msg) : Nat := 8 * (m.cap - 5)

/-- An allocation for a message with a key, leaving `keep` bytes free, with its payload from word 5 on written to the ring (R215). -/
def Core.porchAlloc (c : Core) (m : Msg) (key keep : Nat) : Option Core :=
  let len := m.porchLen
  if len = 0 then some c
  else if c.porchSize < c.porchUsed + len + keep then none
  else
    let wp := c.ni.porchWp
    let bs := (m.pay.drop 5).flatMap fun w => bytesOfWord 8 w.toNat
    let first := min len (c.porchSize - wp)
    let c := if first < len then (c.store (c.porchBase + wp) (bs.take first)).store c.porchBase (bs.drop first) else c.store (c.porchBase + wp) bs
    some { c with ni := { c.ni with porchWp := (wp + len) % (max c.porchSize 1)
                                    porch := c.ni.porch ++ [{ off := wp, len := len, key := key }] } }

/-- An allocation on the focused core: the banks it is written to start their wake (R346). -/
def State.porchTake (s : State) (m : Msg) (key keep : Nat) : Option State :=
  (s.core.porchAlloc m key keep).map fun c =>
    { s with core := c }.wakeAt ((List.range (m.porchLen / 8)).map fun i =>
      (c.porchBase + (s.core.ni.porchWp + 8 * i) % max c.porchSize 1, 8))

/-- A message's space freed: it is released once every older allocation is free (R215). -/
def Core.porchFree (c : Core) (key : Nat) : Core :=
  let l := c.ni.porch.map fun a => if a.key = key then { a with free := true } else a
  { c with ni := { c.ni with porch := l.dropWhile (·.free) } }

/-- The segments of the starting message in the porch (R216). -/
def Core.porchSegments (c : Core) (key : Nat) : Nat :=
  match c.ni.porch.find? fun a => a.key == key && !a.free with
  | none => 0
  | some a =>
    let first := min a.len (c.porchSize - a.off)
    let seg (off len : Nat) : Nat := if len = 0 then 0 else (c.porchBase + off) % 2 ^ 18 + len * 2 ^ 18
    seg a.off first + seg 0 (a.len - first) * 2 ^ 32

/-- The starting message's capacity; a strand with none has five words. -/
def Strand.capOf (t : Strand) : Nat := match t.start with
  | some m => m.cap
  | none => 5

/-- The key of the starting message's porch space. -/
def Strand.porchKey (t : Strand) : Nat := match t.start with
  | some m => m.key
  | none => 0

/-- msg.porch (R216). -/
def execMsgPorch (d g : Nat) : State → Host.Outcome State Fault Refusal :=
  issue g [d] fun s => .next (s.setG d (word (s.core.porchSegments s.st.porchKey)))

/-- msg.len (R216). -/
def execMsgLen (d g : Nat) : State → Host.Outcome State Fault Refusal :=
  issue g [d] fun s => .next (s.setG d (word (s.st.capOf + min s.st.q0 s.st.capOf * 2 ^ 8)))

/-- msg.skip (R216). -/
def execMsgSkip (g : Nat) : State → Host.Outcome State Fault Refusal :=
  issue g [] fun s => .next ((s.modSt fun t => { t with q0 := t.capOf }).modCore fun c => c.porchFree s.st.porchKey)

/-! ## OWNER (R217) -/

/-- owner (R217): the owner's coordinate and offset of element g[a] by the 16-byte descriptor at g[b]. -/
def execOwner (d a b g : Nat) : State → Host.Outcome State Fault Refusal :=
  issue g [d, a, b] fun s => src a s fun x s => src b s fun y s =>
    let at_ := y.toNat % 2 ^ 18
    if at_ % 16 != 0 then .code 3
    else localAccess at_ 16 true false s fun ps =>
      let v := wordOfBytes (s.core.readPieces ps)
      let d0 := v % 2 ^ 64
      let d1 := v / 2 ^ 64
      let (x0, y0, x1, y1) := (bits d0 11 0, bits d0 23 12, bits d0 35 24, bits d0 47 36)
      let blkSize := bits d1 23 0
      if d0 / 2 ^ 49 != 0 || d1 / 2 ^ 44 != 0 || blkSize = 0 || x1 < x0 || y1 < y0 then .ill s 2
      else
        let w := x1 - x0 + 1
        let h := y1 - y0 + 1
        let i := x.toNat
        let blk := i / blkSize
        let c := blk % (w * h)
        let off := bits d1 43 26 + (blk / (w * h) * blkSize + i % blkSize) * 2 ^ bits d1 25 24
        let (cx, cy) := if bit d0 48 then (x0 + c / h, y0 + c % h) else (x0 + c % w, y0 + c / w)
        if 2 ^ 18 ≤ off then .next (s.setP 1 true)
        else dst d (word (off * 2 ^ 32 + cy * 2 ^ 12 + cx)) (s.setP 1 false)

/-! ## FENCE (R232 to R234) -/

/-- Whether a member of a FENCE's set lies in scope (R233, R234). A GST or GLD whose page has no translation yet is waited for: where it is
served is not known (log entry 60). -/
def State.fenced (s : State) (scope : Nat) (o : Op) : Bool :=
  let hit (c : Option Nat) : Bool := bit scope 48 || match c with
    | some c => inScopeRect scope c
    | none => false
  match o.kind with
  | .gst => match s.leafFor (o.a.toNat % 2 ^ 48) with
    | some e => e.promotes || hit (e.homeCoord s (o.a.toNat % 2 ^ 48))
    | none => true
  | .gld => match s.leafFor (o.a.toNat % 2 ^ 48) with
    | some e => e.type == 4 && e.scratchCore != s.here && hit (some e.scratchCore)
    | none => true
  | .rst | .rld | .ramo | .sendHandler | .sendEngine => hit (some o.target)
  | .sendStore => match o.regs with
    | [r] => bit scope 48 || (bits scope 11 0 ≤ bits r.toNat 35 24 && bits r.toNat 11 0 ≤ bits scope 35 24
        && bits scope 23 12 ≤ bits r.toNat 47 36 && bits r.toNat 23 12 ≤ bits scope 47 36)
    | _ => hit (some o.target)
  | _ => false

/-- fence (R234). -/
def execFence (a g : Nat) : State → Host.Outcome State Fault Refusal :=
  issueNoSpec g [a] fun s => src a s fun v s =>
    let sc := v.toNat
    if bits sc 63 49 != 0 || bits sc 35 24 < bits sc 11 0 || bits sc 47 36 < bits sc 23 12 then .ill s 2
    else if (s.st.ops.any fun o => !o.complete && s.fenced sc o) || (s.core.ni.outb.any fun m => m.strand == s.k) then .hold
    else .next s

/-! ## Replies and bounces (R203) -/

/-- Whether a message took an entry of its sender's reply table (R201): kinds 0 and 5 only with RX, which `sub` 3 notes; no message of a device
unit but a queue-controller request. -/
def Msg.tookEntry (m : Msg) : Bool :=
  (m.mark == .none || m.mark == .queueReq) && (m.kind == 1 || m.kind == 2 || m.kind == 4 || m.kind == 6 || ((m.kind == 0 || m.kind == 5) && m.sub == 3))

/-- The group-4 bounce of a message with a cause; its source is the message's destination; `sub` 2 where the message took no entry (R203,
R204). -/
def bounceOf (m : Msg) (cause : Nat) : Msg :=
  { h0 := header0 3 1 m.ch 2 false false 9
    h1 := header1 m.src m.dst m.job
    h2 := word (m.task * 2 ^ 32)
    pay := [word (cause + 2 ^ 63), m.h0, m.h1, m.h2, m.word 0]
    gid := m.gid, mark := .ni, sub := if m.tookEntry then 0 else 2 }

/-- A completion reply to a message: its group's TARGET and payload (R203), from the message's destination; `sub` 1 where it goes to the launch
unit (R202). -/
def replyTo (m : Msg) (group : Nat) (pay : List Word) (mark : Mark) : Msg :=
  { h0 := header0 3 1 m.ch 2 false false (2 * group + 1)
    h1 := header1 m.src m.dst m.job
    h2 := word (m.task * 2 ^ 32)
    pay := padTo 5 pay
    gid := m.gid, mark := mark, sub := if m.mark = .launch then 1 else 0 }

/-- A status word of groups 0 and 1 (R203). -/
def statusWord (t : Option Trap) (fl : Nat) : Nat := match t with
  | none => fl * 2 ^ 16
  | some t => t.code + t.sub % 256 * 2 ^ 8 + fl * 2 ^ 16

end Sys2Proof.Machine
end

