-- ==== Sys2Proof/Machine/Ni.lean ====
section
/-! DEFINITION. The network interface: sender tables (R411 to R413), freeing and dispatching a strand (R9, R10), the delivery rule (R306 to
R309), the checks on arriving messages (R13, R196, R375), built-in services (R202), and replies and bounces (R203, R204). -/

namespace Sys2Proof.Machine

/-! ## Sender tables (R411 to R413) -/

/-- A sum that saturates at w bits. -/
def satAdd (w a b : Nat) : Nat := min (2 ^ w - 1) (a + b)

/-- The key of the entry OTHER. -/
def otherKey : Nat := 2 ^ 24

/-- A message charged to its source in the focused core's sender table. -/
def State.charge (s : State) (src transit wait run : Nat) (celled : Bool) : State :=
  if !s.core.senderEn then s
  else s.modCore fun c =>
    let known := c.sender.any fun e => e.src == src && e.valid
    let room := (c.sender.filter (·.valid)).length < 64
    let key := if known || room then src else otherKey
    let e := (findKey SenderEntry.src c.sender key).getD { src := key, valid := key != otherKey }
    { c with sender := putKey SenderEntry.src { e with
        count := satAdd 32 e.count 1, transit := satAdd 48 e.transit transit, cellarn := satAdd 16 e.cellarn (num celled)
        wait := satAdd 48 e.wait wait, run := satAdd 48 e.run run } c.sender }

/-- The transit of a message the NI has consumed (R411). -/
def Msg.transit (m : Msg) : Nat :=
  let d := (m.arrived % 2 ^ 32 + 2 ^ 32 - m.stampOf) % 2 ^ 32
  if 2 ^ 31 ≤ d then 0 else d

/-- A message that dispatches no handler is charged with its count and its transit (R411). -/
def State.chargeNow (s : State) (m : Msg) : State := s.charge m.src m.transit 0 0 m.celled

/-! ## Strands freed and dispatched (R9, R10, R24) -/

/-- What is noted of a handler that is over (R411, R416): its END record, with how it ended, and its message's charge. -/
def State.handlerOver (s : State) (x : Nat) : State :=
  let s := s.trace 3 x (word s.st.pc)
  match s.st.start with
  | some m => s.charge m.src m.transit (s.st.dispatched - m.arrived) (s.sys.now - s.st.dispatched) m.celled
  | none => s

/-- The focused strand becomes FREE (R24): its END is traced (R416), its message charged (R411) and its porch space freed (R215); the
detector state stays (R228). -/
def State.freeStrand (s : State) (x : Nat) : State :=
  let s := s.handlerOver x
  let key := s.st.porchKey
  let s := s.modSt fun t => { ({} : Strand) with det := t.det, issued := t.issued }
  s.modCore fun c => c.porchFree key

/-- The relative position of a core in the crew (R329). -/
def State.uv (s : State) (c : Nat) : Nat := match s.crew with
  | some w => pack (unpackX c - w.x0) (unpackY c - w.y0)
  | none => 0

/-- The focused strand begins a task of a unit (R271): its frame reads as zero; gated banks of the frame wake (R346). -/
def State.beginTask (s : State) (ts id cl : Nat) : State :=
  let f := s.taskFrame
  let lo := f.1 % 2 ^ 18
  let n := min f.2 (2 ^ 18 - lo)
  let s := s.wakeAt (pieces8 lo (min f.2 256))
  let s := s.modCore fun c =>
    (c.store lo (List.replicate n 0)).store 0 (List.replicate (f.2 - n) 0)
  let s := s.modCluster cl fun c => { c with task := { c.task with tasks := c.task.tasks.map fun t =>
    if t.ts = ts && t.id = id then { t with core := s.here, strand := s.k } else t } }
  s.modSt fun t => { t with task := some { ts := ts, id := id, cluster := cl } }

/-- Strand k of the focused core set up for a message (R10). The detector state is kept (R228). -/
def State.setUp (s : State) (k : Nat) (m : Msg) : State :=
  let fp := (s.crew.map (·.fpctl)).getD 0
  let g := (List.range 28).map fun i =>
    if i = 1 then m.h1 else if i = 2 then m.h2 else if 3 ≤ i && i ≤ 7 then m.word (i - 3) else 0
  let s := { s with k := k }
  let old := s.st
  let csr : Csrs := { fpctl := word fp, taskid := word m.task, jobno := word m.job }
  s.setSt { ({} : Strand) with
    g := Vector.ofFn fun i => g.getD i.val 0, pc := m.target, life := .run, csr := csr, start := some m
    det := old.det, issued := old.issued, tron := m.trc, dispatched := s.sys.now, waiting := .none }

/-- A strand that has been set up for a message starts its handler (R10): the message's acquire (R228), the trace record (R416), the task that the
message carries (R271). -/
def State.startHandler (s : State) (m : Msg) : State :=
  let s := (s.acquire m.release).trace 2 (num m.celled) (word (m.src + m.kind * 2 ^ 24 + m.target % 2 ^ 32 * 2 ^ 32))
  match m.run with
  | some (ts, cl) => s.beginTask ts m.task cl
  | none => s

/-- A handler address that is no multiple of 4, which only a run-queue entry can bring, traps ALIGN at once, with pc at the multiple of 4 below it
(R35; DESIGN CHOICE, log entry 61). -/
def State.checkTarget (s : State) (m : Msg) : State :=
  if m.target % 4 = 0 then s else (s.modSt fun t => { t with pc := m.target / 4 * 4 }).takeTrap (plainTrap 3)

/-- A message dispatched to strand k of the focused core (R9, R10), with its number (R397) and its place in a recorded stream (R332, DEP). -/
def State.dispatchTo (s : State) (k : Nat) (m : Msg) : State :=
  let s := (s.setUp k { m with seq := s.core.ni.inseq }).startHandler m
  let s := s.modNi fun n => { n with inseq := (n.inseq + 1) % 2 ^ 32 }
  let s := match m.made with
    | some n => if m.src = s.here then s
        else s.record [{ kind := 6, strand := k, value := word (s.uv m.src + n % 2 ^ 32 * 2 ^ 32) }]
    | none => s
  s.checkTarget m

/-- The lowest FREE strand of a core. -/
def Core.freeStrandNo (c : Core) : Option Nat := (List.range 16).find? fun i => (vget c.strands i {}).life == .free

/-- Whether a strand of a core waits to be drained (R398): nothing is dispatched meanwhile. -/
def Core.draining (c : Core) : Bool := c.strands.any fun t => t.draining != 0

/-- What the NI would dispatch next (R9, R306): the start message, the oldest HP message, the oldest LP message; none of these two before the
crew's start message has been dispatched. -/
inductive NextUp where
  | start (m : Msg)
  | hp (m : Msg)
  | lp (m : Msg)

def Core.nextUp (c : Core) : Option NextUp :=
  if c.draining then none
  else match c.ni.startSlot with
    | some m => some (.start m)
    | none =>
      if c.ni.infrz || c.ni.unstarted then none
      else match c.ni.hpq, c.ni.lpq with
        | m :: _, _ => some (.hp m)
        | [], m :: _ => some (.lp m)
        | [], [] => none

/-- DISPATCH (R9): one message to the lowest FREE strand. -/
def execDispatch (c : Nat) (s : State) : Host.Outcome State Fault Refusal :=
  if !s.inMesh c then .next s
  else .next (s.atCore c 0 fun s =>
    match s.core.freeStrandNo, s.core.nextUp with
    | some k, some (.start m) => (s.modNi fun n => { n with startSlot := none, unstarted := false }).dispatchTo k m
    | some k, some (.hp m) => (s.modNi fun n => { n with hpq := n.hpq.drop 1 }).dispatchTo k m
    | some k, some (.lp m) => (s.modNi fun n => { n with lpq := n.lpq.drop 1 }).dispatchTo k m
    | _, _ => s)

/-! ## The cellar (R308, R309, R437) -/

/-- The slots of a cellar outside its reply reserve. -/
def Core.cellarRoom (c : Core) : Nat :=
  let code := bits c.cellarcfg.toNat 2 0
  (if code = 0 then 65536 else 2 ^ (13 + code)) / 256 - 16

/-- LP queue entries (R308). -/
def Core.lpDepth (c : Core) : Nat := bits c.lpqdepth.toNat 5 0

/-- A message given porch space under a key of its own. -/
def State.keyed (s : State) (m : Msg) : State × Msg :=
  (s.modSys fun y => { y with nextId := y.nextId + 1 }, { m with key := s.sys.nextId + 1 })

/-- The GID of the crew's owner on the focused core: the context of its job. -/
def State.ownerGidHere (s : State) : Nat := s.gid

/-- A record about a message to the fault queue of a context (R13, R309). -/
def State.msgRecord (s : State) (m : Msg) (gid code sub cause : Nat) : State := s.messageFault s.here m gid code sub cause

/-- A bounce sent and its record written to the context of a GID (R13, R203). -/
def State.bounce (s : State) (m : Msg) (cause gid : Nat) : State :=
  (s.msgRecord m gid 0x0C 9 cause).launchMsg (bounceOf m cause)

/-- A combined acknowledgment takes one copy's answer; the last sends the one reply (R210). -/
def State.ackCopy (s : State) (m : Msg) (id : Nat) (st addr party : Word) : State :=
  match s.sys.acks.find? fun a => a.id == id with
  | none => s
  | some a =>
    let place := unpackY m.dst * 4096 + unpackX m.dst
    let worst := if st = 0 then a.worst else match a.worst with
      | none => some (place, st, addr, party)
      | some w => if place < w.1 then some (place, st, addr, party) else some w
    if a.left ≤ 1 then
      let first := { m with h1 := header1 (pack (bits a.rect 11 0) (bits a.rect 23 12)) m.src m.job }
      let (v, ad, pa) := match worst with
        | some w => (w.2.1, w.2.2.1, w.2.2.2)
        | none => (0, 0, 0)
      (s.modSys fun y => { y with acks := y.acks.filter fun b => b.id != id }).launchMsg (replyTo first 0 [v, word m.target, ad, pa] .ni)
    else s.modSys fun y => { y with acks := y.acks.map fun b => if b.id = id then { b with left := a.left - 1, worst := worst } else b }

/-- A message that found the cellar full (R309): its sender learns of it by a bounce, or, for a copy of a kind-1 SENDM, in the combined
acknowledgment (R210); and one record until the cellar has had a free slot again. A kind-3 message is not returned (R204). -/
def State.cellarFull (s : State) (m : Msg) (c : Core) (gid : Nat) : State :=
  let s := s.chargeNow m
  let s := if c.ni.cellarWasFull && m.kind != 3 then s else s.msgRecord m gid 0x0F 0 0
  if m.kind = 3 then s
  else match m.rect with
    | some id => if m.kind = 1 then s.ackCopy m id (word 0x0F) 0 0 else s.launchMsg (bounceOf m 2)
    | none => s.launchMsg (bounceOf m 2)

/-- The bytes of a cellar slot after the device has written a message there: their layout is not stated, so they are free values (log entry 26). -/
def State.fillSlot (s : State) (gid va : Nat) : State :=
  let bs := (List.range 4).flatMap fun i => bytesOfWord 64 (Config.freeWide (s.draw + i)).toNat
  { (s.writePage gid va bs s.cl).1 with draw := s.draw + 4 }

/-- The address of slot i of a core's cellar (R308); its reply reserve follows the other slots (R309). -/
def Core.slotVa (c : Core) (i : Nat) : Nat := c.cellarcfg.toNat / 2 ^ 14 * 2 ^ 14 + 256 * i

/-- A message placed in the cellar of a core, live or parked, when a slot outside the reserve is free (R306, R308): the core, and the address of
the slot. -/
def Core.toCellar (c : Core) (m : Msg) : Option (Core × Nat) :=
  if c.ni.cellar.length < c.cellarRoom then
    some ({ c with ni := { c.ni with cellar := c.ni.cellar ++ [{ m with celled := true }], cellarWasFull := false,
                                     cellarWp := (c.ni.cellarWp + 1) % c.cellarRoom } },
      c.slotVa c.ni.cellarWp)
  else none

/-- An LP message of the crew placed at the focused, running core (R306). -/
def State.placeLp (s : State) (m : Msg) : State :=
  let (s, m) := s.keyed m
  let direct := if s.core.ni.cellar.isEmpty && !s.core.ni.infrz && s.core.ni.lpq.length < s.core.lpDepth
    then s.porchTake m m.key 1024 else none
  match direct with
  | some s => s.modNi fun n => { n with lpq := n.lpq ++ [m] }
  | none =>
    match s.core.toCellar m with
    | some (c, va) => { s with core := c }.fillSlot s.gid va
    | none => (s.cellarFull m s.core s.ownerGidHere).modNi fun n => { n with cellarWasFull := true }

/-- CELLAR_DRAIN (R308, R215): the oldest cellar message moves to the LP queue when it has an entry and porch space. -/
def execCellarDrain (c : Nat) (s : State) : Host.Outcome State Fault Refusal :=
  if !s.inMesh c then .next s
  else .next (s.atCore c 0 fun s =>
    match s.core.ni.cellar with
    | [] => s
    | m :: rest =>
      if s.core.lpDepth ≤ s.core.ni.lpq.length then s
      else match s.porchTake m m.key 1024 with
        | some s => s.modNi fun n => { n with lpq := n.lpq ++ [m], cellar := rest, cellarWasFull := false }
        | none => s)

/-- MESSAGE_INJECT (R199, R212): the oldest message that no uncommitted task holds leaves the buffer with its STAMP; a SENDM's copies go
to every core of its rectangle, and the acknowledgments of a kind-1 SENDM will be combined (R210). -/
def execMessageInject (c : Nat) (s : State) : Host.Outcome State Fault Refusal :=
  if !s.inMesh c then .next s
  else .next (s.atCore c 0 fun s =>
    match s.core.ni.outb.find? fun o => o.held.isNone with
    | none => s
    | some o =>
      let m := o.msg.stamped s.sys.now
      let s := s.modNi fun n => { n with outb := n.outb.erase o }
      match m.rect with
      | none => s.launchMsg m
      | some r =>
        if m.kind = 6 then s.launchMsg m
        else
          let (x0, y0, x1, y1) := (bits r 11 0, bits r 23 12, bits r 35 24, bits r 47 36)
          let id := s.sys.nextId
          let dests := (List.range (y1 - y0 + 1)).flatMap fun j => (List.range (x1 - x0 + 1)).map fun i => pack (x0 + i) (y0 + j)
          let s := s.modSys fun y => { y with nextId := id + 1, flight := y.flight ++ dests.map fun d =>
            { m with h1 := header1 d m.src m.job, rect := if m.kind = 1 then some id else none } }
          if m.kind = 1 then
            s.modSys fun y => { y with acks := y.acks ++ [{ id := id, left := dests.length, h0 := m.h0, h1 := m.h1, rect := r, gid := m.gid }] }
          else s)

/-! ## Arrivals (R13, R196, R198, R375) -/

/-- Whether a message passes a die on its way (R197): a row of its route and a column of it, x first on channels 0 and 2, y first on channel 1;
on channel 3 it may take another way, so only its ends count. -/
def State.passes (s : State) (m : Msg) (dk : Nat) : Bool :=
  let c := s.dieCorner dk
  let (dx, dy) := (unpackX c, unpackY c)
  let (x0, y0, x1, y1) := (unpackX m.src, unpackY m.src, unpackX m.dst, unpackY m.dst)
  let crosses (d a b : Nat) : Bool := min a b < d + 24 && d ≤ max a b
  let leg (row col : Nat) : Bool := crosses dy row row && crosses dx x0 x1 || crosses dx col col && crosses dy y0 y1
  if m.ch = 3 then crosses dy y1 y1 && crosses dx x1 x1 else if m.ch = 1 then leg y1 x0 else leg y0 x1

/-- Whether message i of those in flight may arrive: none sent before it with its source, destination, priority and channel 0 to 2 is
still in flight (R198), and no die on its way is in a relock (R342). -/
def State.deliverable (s : State) (i : Nat) : Bool :=
  match s.sys.flight[i]? with
  | none => false
  | some m => (m.ch = 3 || !(s.sys.flight.take i).any fun o => o.src == m.src && o.dst == m.dst && o.pri == m.pri && o.ch == m.ch)
      && !(s.dies.any fun d => d.relock.isSome && s.passes m d.key)

/-- A malformed message (R196). -/
def Msg.malformed (m : Msg) : Bool :=
  bits m.h0.toNat 52 48 != 0 || ((m.pri = 1) != (m.kind = 3))
  || (m.kind = 7 && !(m.mark = .launch || m.mark = .firmware))
  || (m.kind = 1 && bit m.target 47 && m.mark != .launch)

/-- The crew of an arriving message at the focused core (R13, R306). -/
inductive Place where
  | running
  | parked (crew : Nat)
  | nobody

def State.placeOf (s : State) (job : Nat) : Place :=
  if (s.job.map (·.num)) == some job && s.core.crew.isSome then .running
  else match s.sys.crews.find? fun c => c.parkedCores.any (fun k => k.coord == s.here) && ((s.jobOf c.job).map (·.num)) == some job with
    | some c => .parked c.id
    | none => .nobody

/-- Whether a message's source lies in the REGION of the focused core's context, or the message is exempt (R375). -/
def State.regionOk (s : State) (m : Msg) (gid : Nat) : Bool :=
  m.mark != .none || m.kind = 7 || match s.ctxByGid gid with
    | some c => gid = 0 || inScopeRect (c.dw 4) m.src
    | none => true

/-- A message turned away with a cause (R13, R375): a copy of a kind-1 SENDM answers in the combined acknowledgment instead. -/
def State.turnAway (s : State) (m : Msg) (cause gid : Nat) : State :=
  match m.rect with
  | some id => if m.kind = 1 then (s.msgRecord m gid 0x0C 9 cause).ackCopy m id (word (0x0C + 9 * 2 ^ 8)) 0 0 else s.bounce m cause gid
  | none => s.bounce m cause gid

/-- A page-ready message consumed: the lock on its buffer is freed (R289). -/
def State.unlockPage (s : State) (m : Msg) : State :=
  if m.mark = .distributor then s.modCluster (s.clusterKey m.dst) fun c => { c with locks := c.locks.filter fun e => e.op != m.sub } else s

/-- An arrival at the NI of its destination: malformed, crewless and out-of-region messages, and those to a fenced core or a failed module,
are dealt with (R13, R196, R375, R400, R409), a kind-3 one never returned (R13); an answer to the launch unit is taken by it (R202); the others
are served at the running core or for a parked crew. `f` answers nothing when the message has to wait. Every message consumed is charged (R411). -/
def arrival (i : Nat) (ok : Msg → Bool) (f : Msg → Place → State → Option State) (s : State) : Host.Outcome State Fault Refusal :=
  match s.sys.flight[i]? with
  | none => .next s
  | some m0 =>
    if !s.deliverable i || !ok m0 || !s.inMesh m0.dst then .next s
    else
      let m := { m0 with arrived := s.sys.now }
      let out := (s.modSys fun y => { y with flight := y.flight.eraseIdx i }).focus m.dst 0
      let back (t : State) : Host.Outcome State Fault Refusal := .next ((t.unlockPage m).focus s.here s.k)
      let fenced := out.core.fenced || (out.mod (out.moduleOf m.dst)).failed
      if m.kind = 3 && m.sub = 1 then back out
      else if m.malformed then back ((out.chargeNow m).msgRecord m out.gid 1 0 0)
      else match (if fenced then .nobody else out.placeOf m.job) with
        | .nobody =>
          if m.kind = 3 then back ((out.chargeNow m).msgRecord m m.gid 0x0C 9 0)
          else back ((out.chargeNow m).turnAway m (if fenced then 4 else 1) m.gid)
        | p =>
          let gid := match p with
            | .parked c => ((out.crewOf c).bind fun w => (out.jobOf w.job).map (·.gid)).getD 0
            | _ => out.gid
          if m.kind < 7 && !out.regionOk m gid then
            back (if m.kind = 3 then (out.chargeNow m).msgRecord m gid 0x0C 9 4 else (out.chargeNow m).turnAway m 4 gid)
          else match f m p (if m.kind = 6 || (m.kind = 7 && m.sub != 0) then out.chargeNow m else out) with
            | some t => back t
            | none => .next s

/-- A message placed for a parked crew on the focused core (R306, R309), with a key for its porch space. -/
def State.placeParked (s : State) (id : Nat) (m : Msg) : State :=
  match s.crewOf id with
  | none => s
  | some w =>
    match findKey Core.coord w.parkedCores s.here with
    | none => s
    | some c =>
      let gid := ((s.jobOf w.job).map (·.gid)).getD 0
      let (s, m) := s.keyed m
      match c.toCellar m with
      | some (c, va) => (s.fillSlot gid va).modCrew id fun w => { w with parkedCores := putKey Core.coord c w.parkedCores }
      | none =>
        (s.cellarFull m c gid).modCrew id fun w =>
          { w with parkedCores := putKey Core.coord { c with ni := { c.ni with cellarWasFull := true } } w.parkedCores }

/-- MESSAGE_DELIVERY (R306): an LP handler or continuation message. -/
def execMessageDelivery (m : Nat) : State → Host.Outcome State Fault Refusal :=
  arrival m (fun m => m.kind = 0 || m.kind = 5) fun m p s =>
    match p with
    | .parked id => some (s.placeParked id m)
    | _ => some (s.placeLp m)

/-- The core of the router at which a message that names no core can go no further (R13, R197): on channel 1 it goes along y first, on the others
along x first (log entry 62). -/
def State.lastRouter (s : State) (m : Msg) : Nat :=
  let (w, h) := (48 * s.sys.mx, 48 * s.sys.my)
  let (x, y) := (unpackX m.dst, unpackY m.dst)
  if m.ch = 1 then (if h ≤ y then pack (unpackX m.src) (h - 1) else pack (min x (w - 1)) y)
  else if w ≤ x then pack (w - 1) (unpackY m.src) else pack x (min y (h - 1))

/-- ROUTER_BOUNCE (R13): a message addressed to no core; a kind-3 message is not returned. The record's COORD is the core of the router that forms it. -/
def execRouterBounce (m : Nat) (s : State) : Host.Outcome State Fault Refusal :=
  match s.sys.flight[m]? with
  | none => .next s
  | some x =>
    if s.inMesh x.dst || !s.deliverable m then .next s
    else
      let s := s.modSys fun y => { y with flight := y.flight.eraseIdx m }
      let s := s.messageFault (s.lastRouter x) x x.gid 0x0C 9 (if x.kind = 3 then 0 else 4)
      .next (if x.kind = 3 then s else s.launchMsg { bounceOf x 4 with mark := .router })

/-! ## Built-in services (R202) -/

/-- Whether bytes of the focused core's scratchpad lie in its porch (R202, R215). -/
def State.inPorch (s : State) (off n : Nat) : Bool := overlap off n s.core.porchBase s.core.porchSize

/-- The checks of an NI-served access once R202 lets it through: the porch, range locks (R236), the race detector (R229, not for
atomics; the core's attribute decides, R226), an uncorrectable error (R410). -/
def State.niChecks (s : State) (m : Msg) (off n : Nat) (wr atomic : Bool) : Option Trap :=
  let ps := if n ≤ 8 then [(off, n)] else (List.range (n / 8)).map fun i => (off + 8 * i, 8)
  if s.inPorch off n then some (copyErr 2 off)
  else match s.lockedFor s.cl (scratchSide s.here) ps wr with
    | some e => some (lockTrap e 0 0 off wr)
    | none =>
      match if !s.core.racy || atomic then none else s.core.racing ps m.who m.det with
      | some p => some (raceTrap p.2 0 0 p.1 wr)
      | none => (s.core.softAt off n (wr && !atomic)).map softErr

/-- A write by a remote strand into the focused core's scratchpad, tagged where it is checked (R228). -/
def State.niWrite (s : State) (m : Msg) (off : Nat) (bs : List Byte) (atomic : Bool) : State :=
  s.modCore fun c =>
    let c := c.store off bs
    if c.racy && !atomic then c.tagged (pieces8 off bs.length) m.who m.det else c

/-- The answer to a request of group 0 or 1, or to one copy of a SENDM (R203, R210); its words 2 and 3 carry the address and the second
party of a failure to the sender's record. -/
def State.answer (s : State) (m : Msg) (group : Nat) (t : Option Trap) (fl : Nat) (v : Word) : State :=
  let st := word (statusWord t fl)
  let (ad, pa) := match t with
    | some t => (t.addr, t.party)
    | none => (0, 0)
  match m.rect with
  | some id => s.ackCopy m id st ad pa
  | none => s.launchMsg (replyTo m group [st, v, ad, pa] .ni)

def illegalStatus : Trap := plainTrap 1

/-- Gated banks that a served access touches start their wake; the message waits until the banks are awake (R346). -/
def State.serveAwake (s : State) (off n : Nat) (f : State → State) : State → Option State := fun s0 =>
  let ps := if n ≤ 8 then [(off, n)] else (List.range (n / 8)).map fun i => (off + 8 * i, 8)
  if (s0.sleeping ps).isEmpty then some (f s) else none

/-- A kind-1 store served (R202). -/
def State.serveStore (s : State) (m : Msg) : Option State :=
  let s := s.chargeNow m
  let len := (m.word 0).toNat % 256
  let off := m.target % 2 ^ 18
  let fail (t : Trap) : Option State := some (s.answer m 0 (some t) 0 (word m.target))
  if !storeLen len m.flits || (m.word 0).toNat / 256 != 0 || bits m.target 47 18 != 0 || off % min len 8 != 0 || 2 ^ 18 < off + len
  then fail illegalStatus
  else match s.niChecks m off len true false with
    | some t => fail t
    | none =>
      let bs := ((m.pay.drop 1).flatMap fun w => bytesOfWord 8 w.toNat).take len
      s.serveAwake off len (fun s => (s.niWrite m off bs false).answer m 0 none 0 (word m.target)) s

/-- A kind-2 load served (R202). -/
def State.serveLoad (s : State) (m : Msg) : Option State :=
  let s := s.chargeNow m
  let n := 2 ^ ((m.word 0).toNat % 4)
  let off := m.target % 2 ^ 18
  let fail (t : Trap) : Option State := some (s.answer m 1 (some t) 0 0)
  if (m.word 0).toNat / 4 != 0 || bits m.target 47 18 != 0 || off % n != 0 then fail illegalStatus
  else match s.niChecks m off n false false with
    | some t => fail t
    | none => s.serveAwake off n (fun s => s.answer m 1 none 0 (word (s.core.scratch.rdN off n))) s

/-- The operations of RAMO (R40, R202): the new value and the flags. -/
def ramoApply (op n : Nat) (sgn : Bool) (fpctl old v : Nat) : Nat × Nat :=
  match op with
  | 0 => (addN n old v, 0)
  | 1 => (minN n sgn old v, 0)
  | 2 => (maxN n sgn old v, 0)
  | 3 => (old &&& v, 0)
  | 4 => (old ||| v, 0)
  | 5 => (old ^^^ v, 0)
  | 6 => (v, 0)
  | _ => f32.arith 0 fpctl old v

/-- A kind-4 atomic served (R202): an enabled exception of fadd is answered with FP, the sum written. DESIGN CHOICE (log entry 74): a request whose
RM field is 6 or 7 is answered ILLEGAL, one for an integer operation too. -/
def State.serveAtomic (s : State) (m : Msg) : Option State :=
  let s := s.chargeNow m
  let w0 := (m.word 0).toNat
  let n := 2 ^ (w0 % 4)
  let op := bits w0 5 2
  let off := m.target % 2 ^ 18
  let fp := bits w0 9 7 + bits w0 11 10 * 2 ^ 3 + bits w0 16 12 * 2 ^ 5
  let fail (t : Trap) : Option State := some (s.answer m 1 (some t) 0 0)
  if w0 / 2 ^ 17 != 0 || 7 < op || (op = 7 && (n != 4 || bit w0 6)) || bits m.target 47 18 != 0 || off % n != 0
      || 6 ≤ bits w0 9 7 then fail illegalStatus
  else match s.niChecks m off n true true with
    | some t => fail t
    | none => s.serveAwake off n (fun s =>
        let old := s.core.scratch.rdN off n
        let r := ramoApply op (8 * n) (bit w0 6) fp old ((m.word 1).toNat % 2 ^ (8 * n))
        let t := if r.2 &&& enables fp = 0 then none else some (plainTrap 0x15)
        (s.niWrite m off (bytesOfWord n r.1) true).answer m 1 t r.2 (word old)) s

/-- A service at a running core, or the cellar of a parked crew (R13, R306). -/
def serveOr (f : State → Msg → Option State) (m : Msg) (p : Place) (s : State) : Option State :=
  match p with
  | .parked id => some (s.placeParked id m)
  | _ => f s m

/-- Waking the banks that the next served access needs: done when the message is not yet served (R346). -/
def wakeFor (m : Nat) (r : Host.Outcome State Fault Refusal) (s : State) : Host.Outcome State Fault Refusal :=
  match r with
  | .next t => if t.sys.flight = s.sys.flight then
      match s.sys.flight[m]? with
      | some x => if s.deliverable m && s.inMesh x.dst then .next (s.atCore x.dst 0 fun s =>
          let off := x.target % 2 ^ 18
          let len := if x.kind = 1 then (x.word 0).toNat % 256 else 2 ^ ((x.word 0).toNat % 4)
          s.wake (s.sleeping ((List.range ((len + 7) / 8)).map fun i => (off + 8 * i, 1)))) else r
      | none => r
    else r
  | r => r

/-- REMOTE_STORE (R202). -/
def execRemoteStore (m : Nat) (s : State) : Host.Outcome State Fault Refusal :=
  wakeFor m (arrival m (fun m => m.kind = 1 && !bit m.target 47) (serveOr State.serveStore) s) s

/-- REMOTE_LOAD (R202). -/
def execRemoteLoad (m : Nat) (s : State) : Host.Outcome State Fault Refusal :=
  wakeFor m (arrival m (fun m => m.kind = 2) (serveOr State.serveLoad) s) s

/-- REMOTE_ATOMIC (R202). -/
def execRemoteAtomic (m : Nat) (s : State) : Host.Outcome State Fault Refusal :=
  wakeFor m (arrival m (fun m => m.kind = 4) (serveOr State.serveAtomic) s) s

/-- Code written to the instruction store: a word written holds no error any more (R410, log entry 27). -/
def Core.storeCode (c : Core) (off : Nat) (bs : List Byte) : Core :=
  { c with istore := c.istore.put off bs, badCode := c.badCode.filter fun w => !(off ≤ w * 4 && w * 4 + 4 ≤ off + bs.length) }

/-- A code store of the launch unit served, and answered to the launch unit (R202, R240). -/
def State.serveCode (s : State) (m : Msg) : State :=
  let s := s.chargeNow m
  let len := (m.word 0).toNat % 256
  let off := m.target % 2 ^ 15
  if bits m.target 46 15 != 0 || len % 8 != 0 || !storeLen len m.flits || off % 8 != 0 || 2 ^ 15 < off + len || (m.word 0).toNat / 256 != 0
  then s.answer m 0 (some illegalStatus) 0 (word m.target)
  else (s.modCore fun c => c.storeCode off (((m.pay.drop 1).flatMap fun w => bytesOfWord 8 w.toNat).take len)).answer
    m 0 none 0 (word m.target)

/-- INSTRUCTION_STORE_WRITE (R202, R240): code stored by the launch unit. A message that claims this target without the launch unit's mark is
malformed (R196). -/
def execInstructionStoreWrite (m : Nat) : State → Host.Outcome State Fault Refusal :=
  arrival m (fun m => m.kind = 1 && bit m.target 47) (serveOr fun s m => some (s.serveCode m))

/-! ## Replies and bounces (R203, R204) -/

/-- The oldest entry of the reply table that a reply matches, and the table without it. -/
def Ni.match_ (n : Ni) (group ch server : Nat) (target : Option Nat) : Option (ReplyEntry × List ReplyEntry) :=
  match n.reply.find? fun e => e.group == group && e.ch == ch && e.server == server &&
      (match target with | some t => e.target == t | none => true) with
  | some e => some (e, n.reply.erase e)
  | none => none

/-- The operation of a reply-table entry completed on its strand. -/
def State.finishReply (s : State) (e : ReplyEntry) (f : Op → State → State) : State :=
  s.atCore s.here e.strand fun s => match s.st.opById e.op with
    | some o => if o.complete then s else f o s
    | none => s

/-- The failing address of an operation: the virtual address of a GLD or GST that became a remote access (R80), else the one given. -/
def Op.failAddr (o : Op) (a : Word) : Word := if o.kind == .gld || o.kind == .gst then BitVec.ofNat 64 (o.a.toNat % 2 ^ 48) else a

/-- A status word of a reply as the operation's failure (R203, R204, R230). -/
def replyTrap (o : Op) (m : Msg) : Option Trap :=
  let st := (m.word 0).toNat
  if st % 256 = 0 then none
  else
    let dir := num (o.kind == .rst || o.kind == .sendStore || o.kind == .gst || o.kind == .ramo)
    let code := st % 256
    let info := if code = 6 || code = 7 then failInfo o.pc dir o.cls.no
      else if code = 0x15 then failInfo o.pc (bits st 20 16) o.cls.no else 0
    some { code := code, sub := if code = 0x15 then bits st 20 16 else bits st 15 8, info := info
           addr := if code = 6 || code = 7 then m.word 2 else o.failAddr (m.word 2), party := m.word 3 }

/-- The answer of a controller to the strand that waits for it (R262, R55). -/
def State.takeAnswer (s : State) (k : Nat) (pay : List Word) : State :=
  s.atCore s.here k fun s => s.modSt fun t => match t.waiting with
    | .answer e none r => { t with waiting := .answer e (some pay) r }
    | _ => t

/-- A completion reply of groups 0 to 2 applied at the focused core, or consumed with a record when it matches nothing (R204). -/
def State.applyCompletion (s : State) (m : Msg) : State :=
  let s := s.chargeNow m
  let group := bits m.target 3 1
  match group, m.rect with
  | 2, some k => s.takeAnswer k m.pay
  | _, _ =>
    match s.core.ni.match_ group m.ch m.src (if group = 0 then some (m.word 1).toNat else none) with
    | none => s.msgRecord m m.gid 1 0 0
    | some (e, rest) =>
      let s := s.modNi fun n => { n with reply := rest }
      s.finishReply e fun o s =>
        if group = 0 then s.completeOp o (replyTrap o m) 0 none
        else if group = 1 then
          s.completeOp o (replyTrap o m) (bits (m.word 0).toNat 20 16) (some (extend (8 * o.n) o.sgn (m.word 1).toNat))
        else if o.kind = .qop then ((s.acquire m.release).completeOp o none 0 none).takeAnswer e.strand m.pay
        else (s.completeOp { o with record := false } none 0 none).modSt fun t => { t with q2 := if o.record then t.q2 ++ [m.word 0] else t.q2 }

/-- The failure a bounce gives its request, by cause (R204). -/
def bounceTrap (o : Op) (cause : Nat) : Trap :=
  { (if cause = 2 then plainTrap 0x0F else if cause = 3 then plainTrap 0x0D else { code := 0x0C, sub := 9 }) with addr := o.failAddr 0 }

/-- The reply group of a returned message. -/
def groupOf (kind : Nat) : Nat := if kind = 1 then 0 else if kind = 2 || kind = 4 then 1 else if kind = 6 then 2 else 3

/-- The entry that a bounce matches (R204): none where the returned message took none. -/
def Ni.bounced (n : Ni) (m : Msg) : Option (ReplyEntry × List ReplyEntry) :=
  let r : Msg := { h0 := m.word 1, h1 := m.word 2 }
  if m.sub = 2 then none else n.match_ (groupOf r.kind) r.ch r.dst none

/-- A bounce applied: the request completes bounced; one that matches nothing is consumed (R204). -/
def State.applyBounce (s : State) (m : Msg) : State :=
  let s := s.chargeNow m
  let cause := (m.word 0).toNat % 256
  match m.rect with
  | some k => s.takeAnswer k [word (2 ^ 63 + cause)]
  | none =>
    match s.core.ni.bounced m with
    | none => s
    | some (e, rest) =>
      let s := s.modNi fun n => { n with reply := rest }
      s.finishReply e fun o s =>
        if o.kind = .qop then (s.completeOp o none 0 none).takeAnswer e.strand [word (2 ^ 63 + cause)]
        else s.completeOp { o with record := false } (some (bounceTrap o cause)) 0 none

/-- A handler reply applied: one that matches completes its request and waits in the HP queue; another is an LP message (R204). -/
def State.applyHandlerReply (s : State) (m : Msg) : State :=
  match s.core.ni.match_ 3 m.ch m.src none with
  | none => s.placeLp m
  | some (e, rest) =>
    let s := s.modNi fun n => { n with reply := rest }
    let s := s.finishReply e fun o s => s.completeOp o none 0 none
    let (s, m) := s.keyed m
    ((s.porchTake m m.key 0).getD s).modNi fun n => { n with hpq := n.hpq ++ [m] }

/-- Any kind-3 message applied at the focused, running core. -/
def State.applyReply (s : State) (m : Msg) : State :=
  if !bit m.target 0 then s.applyHandlerReply m else if bits m.target 3 1 = 4 then s.applyBounce m else s.applyCompletion m

/-- Whether a kind-3 message matches an entry of a core's reply table (R204). -/
def Ni.matches_ (n : Ni) (m : Msg) : Bool :=
  if !bit m.target 0 then (n.match_ 3 m.ch m.src none).isSome
  else if bits m.target 3 1 = 4 then m.rect.isSome || (n.bounced m).isSome
  else m.rect.isSome
    || (n.match_ (bits m.target 3 1) m.ch m.src (if bits m.target 3 1 = 0 then some (m.word 1).toNat else none)).isSome

/-- The reply table without the entry that a kind-3 message matches (R204). -/
def Ni.without (n : Ni) (m : Msg) : Ni :=
  let r := if !bit m.target 0 then n.match_ 3 m.ch m.src none
    else if bits m.target 3 1 = 4 then (if m.rect.isSome then none else n.bounced m)
    else if m.rect.isSome then none
    else n.match_ (bits m.target 3 1) m.ch m.src (if bits m.target 3 1 = 0 then some (m.word 1).toNat else none)
  match r with
  | some (_, rest) => { n with reply := rest }
  | none => n

/-- A kind-3 message put into a slot of the reply reserve of a core parked from its place (R309). -/
def State.reserve (s : State) (id : Nat) (c : Core) (m : Msg) : State :=
  match s.crewOf id with
  | none => s
  | some w =>
    let n := (w.replies.filter fun x => x.dst == m.dst).length
    (s.fillSlot (((s.jobOf w.job).map (·.gid)).getD 0) (c.slotVa (c.cellarRoom + n))).modCrew id fun w => { w with replies := w.replies ++ [m] }

/-- A kind-3 message for a parked crew: to the reply reserve when it matches an entry that no reply there has matched yet, else to the cellar
(R306, R309). -/
def State.replyParked (s : State) (id : Nat) (m : Msg) : State :=
  match (s.crewOf id).bind fun w => findKey Core.coord w.parkedCores s.here with
  | none => s
  | some c =>
    let held := ((s.crewOf id).map fun w => w.replies.filter fun x => x.dst == m.dst && x.sub != 4).getD []
    if (held.foldl Ni.without c.ni).matches_ m then s.reserve id c m
    else s.placeParked id m

/-- The arrival of a reply of one sort. -/
def replyArrival (i : Nat) (ok : Msg → Bool) : State → Host.Outcome State Fault Refusal :=
  arrival i (fun m => m.kind = 3 && ok m) fun m p s => match p with
    | .parked id => some (s.replyParked id m)
    | _ => some (s.applyReply m)

/-- COMPLETION_REPLY (R204). -/
def execCompletionReply (m : Nat) : State → Host.Outcome State Fault Refusal :=
  replyArrival m fun m => bit m.target 0 && bits m.target 3 1 != 4

/-- HANDLER_REPLY (R204). -/
def execHandlerReply (m : Nat) : State → Host.Outcome State Fault Refusal := replyArrival m fun m => !bit m.target 0

/-- BOUNCE_RECEIVE (R204). -/
def execBounceReceive (m : Nat) : State → Host.Outcome State Fault Refusal :=
  replyArrival m fun m => bit m.target 0 && bits m.target 3 1 = 4

/-- START_MESSAGE (R306): held in the start slot until it is dispatched, before every other message of the crew. -/
def execStartMessage (m : Nat) : State → Host.Outcome State Fault Refusal :=
  arrival m (fun m => m.kind = 7 && m.sub = 0) fun m p s => match p with
    | .running => some (s.modNi fun n => { n with startSlot := some { m with release := none } })
    | _ => some s

/-- FREEZE_MESSAGE (R395): the input queue freezes. -/
def execFreezeMessage (m : Nat) : State → Host.Outcome State Fault Refusal :=
  arrival m (fun m => m.kind = 7 && m.sub = 2) fun _ p s => match p with
    | .running => some (s.modNi fun n => { n with infrz := true })
    | .parked id => some (s.modCrew id fun w => { w with parkedCores := w.parkedCores.map fun c =>
        if c.coord = s.here then { c with ni := { c.ni with infrz := true } } else c })
    | .nobody => some s

/-! ## Messages that waited for a parked crew (R13, R306, R324) -/

/-- Whether a message is served by the NI, with no strand: kinds 1, 2 and 4, and completion replies (R12). -/
def Msg.niServed (m : Msg) : Bool := m.kind == 1 || m.kind == 2 || m.kind == 4 || (m.kind == 3 && bit m.target 0)

/-- Such a message that waited in the cellar of a parked crew, served at the resumed core; the gated banks it touches are awake (log entry 26). -/
def State.serveCelled (s : State) (m : Msg) : State :=
  let n := if m.kind = 1 then (m.word 0).toNat % 256 else 2 ^ ((m.word 0).toNat % 4)
  let bs := s.sleeping (pieces8 (m.target % 2 ^ 18) n)
  let s := s.modCore fun c => { c with gate := maskOf 32 fun b => bit c.gate b && !bs.contains b, waking := c.waking.filter fun w => !bs.contains w.1 }
  match m.kind with
  | 1 => if bit m.target 47 then s.serveCode m else (s.serveStore m).getD s
  | 2 => (s.serveLoad m).getD s
  | 4 => (s.serveAtomic m).getD s
  | _ => s.applyReply m

/-- The messages in the focused core's cellar that the NI serves are served, in the order of their arrival; the others stay. -/
def State.serveCellar (s : State) : State :=
  let l := s.core.ni.cellar
  (l.filter Msg.niServed).foldl State.serveCelled (s.modNi fun n => { n with cellar := l.filter fun m => !m.niServed })

end Sys2Proof.Machine
end

