-- ==== Sys2Proof/Machine/Queue.lean ====
section
/-! DEFINITION. QOP (R258 to R263) as its strand makes it and the queue controller answers it, and the run queues of an NI (R16). The words of
a request and of its answer are the model's (log entry 16). -/

namespace Sys2Proof.Machine

/-! ## The controller's operations (R261 to R263) -/

/-- The answer's words: status, sub-reason, code; ticket, state or failing address; the entry. -/
def answerWords : QRes → List Word
  | .ok ws => word 0 :: ws
  | .full => [word 1]
  | .empty => [word 2]
  | .frozen => [word 3]
  | .priv => [word 4]
  | .geom => [word 5]
  | .fail t => [word (6 + t.sub % 256 * 2 ^ 8 + t.code * 2 ^ 16), t.addr]
  | .stale | .wait => [word (2 ^ 63 + 3)]

/-- A QOP performed on a queue of a die (R262): what it answers, and the pair that a QCLAIM acquires with the entry it
returns (R222); SOFT_ERR where its descriptor has an uncorrectable error (R410). -/
def State.qServe (s : State) (dk fn h : Nat) (args : List Word) (rel : Option (Nat × Nat)) : State × QRes × Option (Nat × Nat) :=
  let i := handleIdx h
  let q := (s.die dk).queue i
  let pairOf (t : Nat) : Option (Nat × Nat) := (q.rels.find? fun e => e.1 == t).map (·.2)
  if q.bad then (s, .fail (softErr 0), none) else
  match fn % 256 with
  | 0 => let r := s.qPut dk i (args.flatMap fun w => bytesOfWord 8 w.toNat) (fn = 0) rel
         (r.1, r.2, none)
  | 1 => let r := s.qClaim dk i
         (r.1, r.2, match r.2 with | .ok _ => pairOf q.head | _ => none)
  | 2 => let r := s.qPublish dk i ((args.getD 0 0).toNat % 2 ^ 32) rel
         (r.1, r.2, none)
  | 3 => (s, .ok [word q.stat], none)
  | 4 => (s.setQueue dk { q with frozen := true }, .ok [], none)
  | 5 => (s.setQueue dk { q with frozen := false }, .ok [], none)
  | _ => if !q.frozen then (s, .empty, none)
         else let r := s.qTake dk i
              (r.1, r.2, none)

/-- The die's fault buffer is retried whenever a queue of the die has changed (R396). -/
def State.queueChanged (s : State) (dk : Nat) : State := drainFaults dk 256 s

/-! ## Requests -/

/-- The coordinate at which the controller of a handle's die takes requests (R262). -/
def State.controllerOf (s : State) (h : Nat) : Nat := s.dieCorner (handleDie (s.moduleOf s.here) h)

/-- A request to a queue controller entered in the outbound buffer: function, handle, ticket or entry (R200, R205, R262). A gang's asks only how
it would end (log entry 73). -/
def State.enterRequest (s : State) (fn : Nat) (h : Word) (args : List Word) (token : Option Nat) (rel : Bool) : State :=
  let fn := if s.st.csr.gangSize = 0 then fn else fn + 512
  let s := if rel then s.release else s
  s.enter 6 0 0 4 2 (s.controllerOf h.toNat) (word fn :: h :: args) token (if rel then some s.pair else none) .queueReq

/-- The status of an answer, and its trap (R263): TRAPINFO as R80 with class 4 where the code is COPY_ERR. -/
def answerTrap (s : State) (pay : List Word) : Option Trap :=
  let w := (pay.getD 0 0).toNat
  if bit w 63 then some (if w % 256 = 3 then plainTrap 0x0D else s.selfErr 9 4)
  else match w % 256 with
    | 4 => some (plainTrap 2)
    | 5 => some (s.selfErr 8 4)
    | 6 => some (if bits w 23 16 = 0x0C then { s.selfErr (bits w 15 8) 4 with addr := pay.getD 1 0 }
                 else { code := bits w 23 16, info := failInfo s.st.pc (bits w 15 8) 4, addr := pay.getD 1 0 })
    | _ => none

/-- A request of a gang's member performed, in the step in which all the gang completes the instruction, so that a trap of any member undoes it
(R146, R147; DEDUCED, log entry 73): the answer, none where the ring's page is awaited. -/
def State.gangRequest (s : State) (fn : Nat) (h : Word) (args : List Word) (rel : Bool) : State × Option (List Word) :=
  let s := if rel then s.release else s
  let dk := handleDie (s.moduleOf s.here) h.toNat
  match s.qCheck dk (h.toNat % 2 ^ 32) ((s.die dk).ctxOfGid s.gid) with
  | some r => (s, some (answerWords r))
  | none => match s.qServe dk fn (h.toNat % 2 ^ 32) args (if rel then some s.pair else none) with
    | (s, .wait, _) => (s, none)
    | (s, r, p) => ((s.acquire p).queueChanged dk, some (answerWords r))

/-- What an answer makes of its instruction (R263): its trap, or the rest with the answer. In a gang the operation itself comes now. -/
def answered (fn : Nat) (h : Word) (args : List Word) (rel : Bool) (pay : List Word) (s : State) (f : List Word → State → Act) : Act :=
  match answerTrap s pay with
  | some t => .trap t id
  | none =>
    if s.st.csr.gangSize = 0 then f pay s
    else match s.gangRequest fn h args rel with
      | (_, none) => .wait fun s => (s.gangRequest fn h args false).1.modSt fun t => { t with waiting := .answer 0 none (s.afterCycles 256) }
      | (s, some pay) => match answerTrap s pay with
        | some t => .trap t id
        | none => f pay s

/-- A QOP: its request is formed once; it waits in WAIT for the answer, and is its own consumer (R262, R263). -/
def qopBody (fn : Nat) (h : Word) (args : List Word) (rel : Bool) (s : State) (f : List Word → State → Act) : Act :=
  match s.st.waiting with
  | .answer _ (some pay) _ => answered fn h args rel pay s f
  | .answer _ none _ => .hold
  | _ =>
    if s.hpStarted then .ill s 2
    else if !s.replyFree || s.outFull || s.unsent s.sys.nextId || 63 ≤ s.st.unretired .m then .hold
    else .wait fun s =>
      let s := s.addOp { kind := .qop, cls := .m, target := s.controllerOf h.toNat }
      let s := (s.takeReply 2 0 (s.controllerOf h.toNat) 2).sideEffect
      (s.enterRequest fn h args none rel).modSt fun t => { t with waiting := .answer 0 none 0 }

/-- The status of an answer that is no trap: 0 done, 1 full, 2 empty, 3 frozen. -/
def answerCode (pay : List Word) : Nat := (pay.getD 0 0).toNat % 256

/-- The wide value of an entry in an answer. -/
def answerEntry (pay : List Word) : Wide := BitVec.ofNat 512 (ofWords ((pay.drop 2).take 8))

/-- A full queue: the request is made again after 256 core cycles (R262). -/
def fullWait : Act := .wait fun s => s.modSt fun t => { t with waiting := .answer 0 none (s.afterCycles 256) }

def qenqOp (d : Nat) (a b : Nat) (pub : Bool) (s : State) : Act :=
  src a s fun h s => qopBody (if pub then 0 else 256) h (toWords 8 (s.w b).toNat) true s fun pay s =>
    if answerCode pay = 1 then fullWait
    else if pub then .next s else .next (s.setG d (pay.getD 1 0))

/-- qenq (R262): publishes at once. -/
def execQenq (a b g : Nat) : State → Host.Outcome State Fault Refusal := issueNoSpec g [a] (qenqOp 0 a b true)

/-- qenq.r (R262): reserves and returns the ticket; a release, as every QENQ (R222). -/
def execQenqR (d a b g : Nat) : State → Host.Outcome State Fault Refusal := issueNoSpec g [d, a] (qenqOp d a b false)

/-- qclaim (R262): p names a predicate; p0 stands for none. -/
def execQclaim (d a p g : Nat) : State → Host.Outcome State Fault Refusal :=
  issueNoSpec g [a] fun s => src a s fun h s => qopBody 1 h [] false s fun pay s =>
    match answerCode pay with
    | 3 => if p % 8 = 0 then .trap (plainTrap 0x0E) fun s => s.setP 1 true else .next ((s.setP 1 true).setP p true)
    | 2 => .next ((s.setP 1 true).setP p false)
    | _ =>
      let e := answerEntry pay
      .next ((((s.setW d e).setP 1 false).setP p false).modSt fun t =>
        { t with claimed := some (h.toNat % 2 ^ 32, (pay.getD 1 0).toNat, e) })

/-- qpub (R262). -/
def execQpub (a b g : Nat) : State → Host.Outcome State Fault Refusal :=
  issueNoSpec g [a, b] fun s => src a s fun h s => src b s fun t s =>
    qopBody 2 h [word (t.toNat % 2 ^ 32)] true s fun _ s => .next s

/-- qstat (R262). -/
def execQstat (d a g : Nat) : State → Host.Outcome State Fault Refusal :=
  issueNoSpec g [d, a] fun s => src a s fun h s => qopBody 3 h [] false s fun pay s => .next (s.setG d (pay.getD 1 0))

/-- qfreeze (R262). -/
def execQfreeze (a g : Nat) : State → Host.Outcome State Fault Refusal :=
  issueNoSpec g [a] fun s => src a s fun h s => qopBody 4 h [] false s fun _ s => .next s

/-- qthaw (R262). -/
def execQthaw (a g : Nat) : State → Host.Outcome State Fault Refusal :=
  issueNoSpec g [a] fun s => src a s fun h s => qopBody 5 h [] false s fun _ s => .next s

/-- qskip (R262). -/
def execQskip (d a g : Nat) : State → Host.Outcome State Fault Refusal :=
  issueNoSpec g [a] fun s => src a s fun h s => qopBody 6 h [] false s fun pay s =>
    if answerCode pay = 2 then .next (s.setP 1 true) else .next ((s.setW d (answerEntry pay)).setP 1 false)

/-! ## The controller -/

/-- QUEUE_CONTROLLER_REQUEST (R205, R262): a request that carries the mark is performed and answered; any other is answered as illegal; a
stale handle bounces it (R263); it waits while the ring's page is absent. To a gang's question it answers how the operation would end (log entry 73). -/
def execQueueControllerRequest (m : Nat) (s : State) : Host.Outcome State Fault Refusal :=
  match s.sys.flight[m]? with
  | none => .next s
  | some x =>
    let dk := s.dieKey x.dst
    if !s.deliverable m || x.kind != 6 || x.target != 2 || !s.inMesh x.dst || s.dieCorner dk != x.dst then .next s
    else
      let out := s.modSys fun y => { y with flight := y.flight.eraseIdx m }
      if x.mark != .queueReq then .next (out.launchMsg (replyTo x 2 [word (2 + 1 * 2 ^ 8), x.word 0] .queueCtl))
      else
        let h := (x.word 1).toNat % 2 ^ 32
        let ctx := (out.die dk).ctxOfGid x.gid
        let reply (s : State) (r : QRes) (p : Option (Nat × Nat)) : State :=
          s.launchMsg { replyTo x 2 [] .queueCtl with
            h0 := header0 3 1 x.ch 4 false false 5, pay := padTo 13 (answerWords r), rect := x.rect, release := p }
        if (out.die dk).fenced 4 then .next (out.launchMsg { bounceOf x 4 with mark := .queueCtl, rect := x.rect })
        else match out.qCheck dk h ctx with
        | some .stale => .next (out.launchMsg { bounceOf x 3 with mark := .queueCtl, rect := x.rect })
        | some r => .next (reply out r none)
        | none =>
          match out.qServe dk ((x.word 0).toNat % 512) h ((x.pay.drop 2).take 8) x.release with
          | (t, .wait, _) => .next (t.modSys fun y => { y with flight := s.sys.flight })
          | (t, r, p) => .next (if 512 ≤ (x.word 0).toNat then reply out r none else (reply t r p).queueChanged dk)

/-- QENQ_RETRY (R262): after 256 core cycles a QENQ or SUSPEND on a full queue asks again. -/
def execQenqRetry (c k : Nat) (s : State) : Host.Outcome State Fault Refusal :=
  if !s.inMesh c || 16 ≤ k then .next s
  else .next (s.atCore c k fun s => match s.st.waiting with
    | .answer _ none r => if r != 0 && r ≤ s.sys.now then s.modSt fun t => { t with waiting := .none } else s
    | _ => s)

/-! ## Run queues (R16) -/

/-- How a run-queue claim ends: a continuation was placed, none was, or the ring's page is awaited. -/
inductive Polled where
  | placed
  | none
  | waits
  deriving DecidableEq

/-- A claim of the NI from a run queue by its handle (R16); `off` clears the register's EN. Where the ring access itself fails, EN is
cleared and a record with the failure's code and SRC 0 is written, as step 6 does for its two cases (DESIGN CHOICE, log entry 63). An entry whose
FLITS says more than 2 flits is placed with that capacity, its payload words beyond the five read as 0 (DESIGN CHOICE, log entry 63). -/
def State.pollOne (s : State) (h : Nat) (off : State → State) : State × Polled :=
  let dk := handleDie (s.moduleOf s.here) h
  let rec_ (s : State) (code src q e : Nat) (copy : List Word) : State :=
    s.fault s.dk { code := code, coord := s.here, ctx := s.ctxOn s.dk s.gid, job := (s.job.map (·.num)).getD 0, queue := q, entry := e,
                   src := src, ncopy := (copy.length + 7) / 8 } copy
  if s.pathHeld s.dk dk then (s, .waits)
  else match s.qCheck dk h ((s.die dk).ctxOfGid s.gid) with
  | some .stale => (rec_ (off s) 0x0D 0 0 0 [], .none)
  | some _ => (rec_ (off s) 2 0 0 0 [], .none)
  | none =>
    let pair := (((s.die dk).queue (handleIdx h)).rels.find? fun e => e.1 == ((s.die dk).queue (handleIdx h)).head).map (·.2)
    match s.qClaim dk (handleIdx h) with
    | (s, .ok (t :: e)) =>
      let m : Msg := { h0 := e.getD 0 0, h1 := e.getD 1 0, h2 := e.getD 2 0, pay := (e.drop 3).take 5, gid := s.gid
                       release := pair, arrived := s.sys.now }
      let s := s.queueChanged dk
      if m.kind = 5 && (s.job.map (·.num)) == some m.job then (s.placeLp m, .placed)
      else (rec_ (off s) 1 1 h t.toNat e, .none)
    | (s, .fail t) => (rec_ (off s) t.code 0 0 0 [], .none)
    | (s, .wait) => (s, .waits)
    | (s, _) => (s, .none)

/-- RUNQ0 or RUNQ1. -/
def Core.runq (c : Core) (r : Nat) : Nat := if r = 0 then c.runq0.toNat else c.runq1.toNat

/-- The register's EN cleared (R16, steps 4 and 6). -/
def State.runqOff (s : State) (r : Nat) : State := s.modCore fun c =>
  if r = 0 then { c with runq0 := word (c.runq0.toNat % 2 ^ 32) } else { c with runq1 := word (c.runq1.toNat % 2 ^ 32) }

/-- The claims from some registers, one after the other, until one gives a continuation or waits for its ring; that one stays the NI's one
outstanding claim. When none gives one, the NI waits 256 core cycles (R16, steps 1 and 5). -/
def State.pollFrom (s : State) : List (Nat × Nat) → State
  | [] => s.modNi fun n => { n with claiming := none, pollAt := s.afterCycles 256 }
  | (r, h) :: rest => match s.pollOne h fun s => s.runqOff r with
    | (s, .placed) => s.modNi fun n => { n with claiming := none }
    | (s, .waits) => s.modNi fun n => { n with claiming := some (r, h) }
    | (s, .none) => s.pollFrom rest

/-- Whether the focused core's NI may begin a claim (R16, step 1): with a FREE strand, nothing of the crew waiting, and no wait of step 5. -/
def State.pollDue (s : State) : Bool :=
  let n := s.core.ni
  (bit s.core.runq0.toNat 32 || bit s.core.runq1.toNat 32) && s.core.crew.isSome && n.startSlot.isNone && !n.unstarted && n.hpq.isEmpty
    && n.lpq.isEmpty && n.cellar.isEmpty && s.core.freeStrandNo.isSome && n.pollAt ≤ s.sys.now

/-- RUN_QUEUE_POLL (R16): the NI claims from RUNQ0, then from RUNQ1, of those with EN = 1; an outstanding claim goes on first. -/
def execRunQueuePoll (c : Nat) (s : State) : Host.Outcome State Fault Refusal :=
  if !s.inMesh c then .next s
  else .next (s.atCore c 0 fun s =>
    let on (r : Nat) : List (Nat × Nat) := if bit (s.core.runq r) 32 then [(r, s.core.runq r % 2 ^ 32)] else []
    match s.core.ni.claiming with
    | some (r, h) => s.pollFrom ((r, h) :: if r = 0 then on 1 else [])
    | none => if s.pollDue then s.pollFrom (on 0 ++ on 1) else s)

end Sys2Proof.Machine
end

