-- ==== Sys2Proof/Machine/Control.lean ====
section
/-! DEFINITION. Control transfer (R50 to R53), the array lease (R164, R165), END, SUSPEND and YIELD (R24, R54 to R57), TRAP, RFT, SLEEP
(R58 to R60, R348) and control-register access (R61, R31, R32). -/

namespace Sys2Proof.Machine

/-! ## Branches (R50 to R52) -/

/-- BR and CALL: the decision is the leader's in a gang (R53). A CALL that is taken writes g27, so it meets g27's pending load (R72). -/
def branch (link : Bool) (cond sense off : Nat) (s : State) : Host.Outcome State Fault Refusal :=
  issueLead (s.p cond == (sense == 1)) (if link then [27] else []) false (fun s =>
    let pc := s.st.pc
    .jump (wrap 48 ((pc : Int) + 4 * sext 21 off)) (if link then s.setG 27 (word (pc + 4)) else s)) s

/-- br (R50). -/
def execBr (cond sense off : Nat) : State → Host.Outcome State Fault Refusal := branch false cond sense off

/-- call (R50). -/
def execCall (cond sense off : Nat) : State → Host.Outcome State Fault Refusal := branch true cond sense off

/-- A jump to a register's bits 47:0 (R51): ALIGN when it is misaligned, g27 then unchanged. -/
def jumpTo (v : Word) (link : Bool) (s : State) : Act :=
  let t := v.toNat % 2 ^ 48
  if t % 4 != 0 then .code 3 else .jump t (if link then s.setG 27 (word (s.st.pc + 4)) else s)

/-- jmp (R51). -/
def execJmp (a g : Nat) : State → Host.Outcome State Fault Refusal := issue g [a] fun s => src a s fun v s => jumpTo v false s

/-- callr (R51). -/
def execCallr (a g : Nat) : State → Host.Outcome State Fault Refusal := issue g [a, 27] fun s => src a s fun v s => jumpTo v true s

/-- ret (R51). -/
def execRet (g : Nat) : State → Host.Outcome State Fault Refusal := issue g [27] fun s => jumpTo (s.g 27) false s

/-- loop (R52). -/
def execLoop (d imm g : Nat) : State → Host.Outcome State Fault Refusal :=
  issue g [d] fun s =>
    let v := s.g d - 1
    if v = 0 then .next (s.setG d v) else .jump (wrap 48 ((s.st.pc : Int) + 4 * sext 12 imm)) (s.setG d v)

/-! ## The lease (R164, R165) -/

/-- A strand as a requester of its cluster's lease: core index and strand; the agent is 256. -/
def leaseKey (c k : Nat) : Nat := coreInCluster c * 16 + k
def agentKey : Nat := 256

/-- The requester that holds the lease. -/
def Lease.key (l : Lease) : Option Nat := l.holder.map fun h => h * 16 + if h = 16 then 0 else l.strand

/-- Whether a requester holds the lease, or held it and waits for its next turn (R165). -/
def Lease.holds (l : Lease) (key : Nat) (waiting : Bool) : Bool := l.key == some key || (l.want.contains key && !waiting)

/-- The lease released by a requester, or its wait for it ended (R164). -/
def Lease.release (l : Lease) (key : Nat) : Lease :=
  let l := { l with want := l.want.filter (· != key) }
  if l.key = some key then { l with holder := none, steps := 0, ended := false } else l

/-- The waiting requester after the last holder in the order cores 0 to 15, then the agent (R165). -/
def Lease.nextWant (l : Lease) : Option Nat :=
  (List.range 17).findSome? fun i => l.want.find? fun w => w / 16 == (l.last + 1 + i) % 17

/-- The lease granted to a requester (R165). -/
def Lease.grant (l : Lease) (key now : Nat) : Lease :=
  { l with holder := some (key / 16), strand := key % 16, steps := 0, since := now, last := key / 16, ended := false
           want := l.want.filter (· != key) }

/-- Whether a run has reached its 32 steps or 8 µs (R165). -/
def Lease.over (l : Lease) (now : Nat) : Bool := 32 ≤ l.steps || l.since + 8000 ≤ now

def State.modLease (s : State) (cl : Nat) (f : Lease → Lease) : State := s.modCluster cl fun c => { c with lease := f c.lease }

/-- The focused strand's key, and its lease given up. -/
def State.leaseMe (s : State) : Nat := leaseKey s.here s.k
def State.dropLease (s : State) : State := s.modLease s.cl fun l => l.release s.leaseMe

/-- Body of lease (R164): waits in WAIT for the grant. While another strand of the core holds or requests it, it waits to request. Not in
a gang (R180). -/
def leaseBody (s : State) : Act :=
  let l := (s.cluster s.cl).lease
  let me := s.leaseMe
  if s.st.csr.gangSize != 0 then .ill s 1
  else if l.holds me (s.st.waiting == .lease) then .next s.recordSync
  else if l.want.contains me || l.holder == some (me / 16) || l.want.any fun w => w / 16 == me / 16 then .hold
  else .wait fun s => (s.modLease s.cl fun l => { l with want := l.want ++ [me] }).modSt fun t => { t with waiting := .lease }

/-- lease (R164). -/
def execLease (g : Nat) : State → Host.Outcome State Fault Refusal := issueNoSpec g [] leaseBody

/-- Body of unlease (R164). -/
def unleaseBody (s : State) : Act := if s.st.csr.gangSize != 0 then .ill s 1 else .next s.dropLease.recordSync

/-- unlease (R164). -/
def execUnlease (g : Nat) : State → Host.Outcome State Fault Refusal := issueNoSpec g [] unleaseBody

/-- LEASE_GRANT (R165): the lease is free and goes to the next waiting requester. -/
def execLeaseGrant (cl : Nat) (s : State) : Host.Outcome State Fault Refusal :=
  .next (s.modLease cl fun l => match l.holder, l.nextWant with
    | none, some w => l.grant w s.sys.now
    | _, _ => l)

/-- LEASE_RUN_END (R165): at the end of a run the holder waits for its next turn, or begins a new run when no other requester waits. -/
def execLeaseRunEnd (cl : Nat) (s : State) : Host.Outcome State Fault Refusal :=
  .next (s.modLease cl fun l => match l.key with
    | some k => if !l.over s.sys.now then l
        else if l.want.isEmpty then { l with steps := 0, since := s.sys.now }
        else { l with holder := none, want := l.want ++ [k], steps := 0 }
    | none => l)

/-! ## END, SUSPEND, YIELD (R24, R54 to R57) -/

/-- The drain of R24: every operation of the strand has completed, its failure reported, and the lease is released. -/
def drain (s : State) (f : State → Act) : Act := waitAll (fun _ => 0) s fun s => f s.dropLease

/-- The task the strand runs is finished (R274). -/
def State.finishTask (s : State) : State :=
  match s.st.task with
  | some r => s.modCluster r.cluster fun c => { c with task := { c.task with tasks := c.task.tasks.map fun t =>
      if t.ts = r.ts && t.id = r.id then { t with life := .finished } else t } }
  | none => s

/-- end (R24, R57). -/
def execExitEnd (g : Nat) : State → Host.Outcome State Fault Refusal :=
  issue g [] fun s => drain s fun s => .gone ((s.recordSync.finishTask).freeStrand 0)

/-- The continuation of the focused strand at a handler (R15, R55): a kind-5 message of 64 bytes. -/
def State.continuation (s : State) (handler : Nat) : Msg :=
  { h0 := header0 5 0 0 2 s.st.tron false handler
    h1 := header1 s.here s.here s.st.csr.jobno.toNat
    h2 := word (s.st.csr.taskid.toNat % 2 ^ 32 * 2 ^ 32)
    pay := (List.range 5).map fun i => s.g (3 + i)
    gid := s.gid, who := s.me }

/-- suspend (R55): ALIGN before the drain; then the enqueue of the continuation, and the strand is FREE once it is confirmed. -/
def execSuspend (a b g : Nat) : State → Host.Outcome State Fault Refusal :=
  issueNoSpec g [a, b, 3, 4, 5, 6, 7] fun s => src a s fun h s => src b s fun v s =>
    let t := v.toNat % 2 ^ 48
    if t % 4 != 0 then .code 3
    else match s.st.waiting with
      | .answer _ (some pay) _ =>
        let m := s.continuation t
        answered 0 h (m.h0 :: m.h1 :: m.h2 :: m.pay) true pay s fun pay s =>
          if answerCode pay = 1 then fullWait else .gone ((s.spoil 5).freeStrand 1)
      | .answer _ none _ => .hold
      | _ => drain s fun s =>
        if s.outFull then .hold
        else .wait fun s =>
          let m := (s.dropLease.continuation t)
          (s.dropLease.enterRequest 0 h (m.h0 :: m.h1 :: m.h2 :: m.pay) (some s.k) true).modSt
            fun t => { t with waiting := .answer 0 none 0 }

/-- yield (R56): the continuation is delivered to the core itself as an LP message, and the strand is FREE. -/
def execYield (b g : Nat) : State → Host.Outcome State Fault Refusal :=
  issueNoSpec g [b, 3, 4, 5, 6, 7] fun s => src b s fun v s =>
    let t := v.toNat % 2 ^ 48
    if t % 4 != 0 then .code 3
    else drain s fun s =>
      let s := s.release
      let m := { s.continuation t with h2 := word (s.st.csr.taskid.toNat % 2 ^ 32 * 2 ^ 32 + s.sys.now % 2 ^ 32)
                                       release := some s.pair, arrived := s.sys.now }
      .gone (((s.spoil 5).freeStrand 2).placeLp m)

/-! ## TRAP, RFT, SLEEP (R58 to R60) -/

/-- trap (R58). -/
def execTrap (imm g : Nat) : State → Host.Outcome State Fault Refusal :=
  issue g [] fun _ => .trap { code := 0x18, info := word imm } id

/-- A return from the trap state; PRIV outside it (R59). A TRAPPC that is no multiple of 4 traps ALIGN, so pc stays one (R35). -/
def rftOp (skip : Bool) (g : Nat) : State → Host.Outcome State Fault Refusal :=
  issue g [] fun s =>
    if !s.st.ts then .code 2
    else if s.st.csr.trappc.toNat % 4 != 0 then .code 3
    else let s := s.leaveTrap skip; .jump s.st.pc s

/-- rft (R59). -/
def execRft (g : Nat) : State → Host.Outcome State Fault Refusal := rftOp false g

/-- rft.skip (R59). -/
def execRftSkip (g : Nat) : State → Host.Outcome State Fault Refusal := rftOp true g

/-- sleep (R60, R348): in WAIT until REFTIME has reached g[a]; ILLEGAL class 1 in a gang (R146). -/
def execSleep (a g : Nat) : State → Host.Outcome State Fault Refusal :=
  issue g [a] fun s =>
    if s.st.csr.gangSize != 0 then .ill s 1
    else src a s fun v s =>
      if v.toNat ≤ s.sys.now then .next s else .wait fun s => s.modSt fun t => { t with waiting := .sleep v.toNat }

/-- SLEEP_WAKE (R348): REFTIME has reached the deadline, and the strand leaves WAIT. -/
def execSleepWake (c k : Nat) (s : State) : Host.Outcome State Fault Refusal :=
  if !s.inMesh c || 16 ≤ k then .next s
  else .next (s.atCore c k fun s => match s.st.waiting with
    | .sleep u => if u ≤ s.sys.now && s.st.life = .wait then s.modSt fun t => { t with life := .run, waiting := .none } else s
    | _ => s)

/-! ## Control registers (R31, R32, R61) -/

/-- GANGCTL (R144). -/
def Csrs.gangctl (c : Csrs) : Nat := c.gangSize + c.gangPos * 2 ^ 4

/-- The value of a control register (R31). -/
def State.readCsr (s : State) (n : Nat) : Word :=
  let r := s.st.csr
  let c := s.core
  if n = 0x000 then r.fpctl
  else if n = 0x001 then r.fpflags
  else if n = 0x010 then word (s.here + s.k * 2 ^ 24)
  else if n = 0x011 then r.taskid
  else if n = 0x012 then r.jobno
  else if n = 0x013 then word s.ctxno
  else if n = 0x020 then c.lpqdepth
  else if n = 0x021 then r.ngettime
  else if n = 0x022 then word r.gangctl
  else if n = 0x023 then c.porchcfg
  else if n = 0x024 then word (c.cellarcfg.toNat % 2 ^ 48 + c.ni.cellar.length * 2 ^ 48)
  else if n = 0x025 then c.runq0
  else if n = 0x026 then c.runq1
  else if 0x030 ≤ n ∧ n ≤ 0x037 then vget c.tgeom (n - 0x030) 0
  else if 0x038 ≤ n ∧ n ≤ 0x03B then vget c.ageom (n - 0x038) 0
  else if n = 0x040 then r.trapvec
  else if n = 0x041 then r.trapinfo
  else if n = 0x042 then r.trappc
  else if n = 0x043 then r.trapcode
  else if 0x050 ≤ n ∧ n ≤ 0x05F then vget r.region (n - 0x050) 0
  else if n = 0x070 then word ((s.die s.dk).cycles s.sys.now)
  else if n = 0x071 then word s.sys.now
  else 0

/-- A write to a control register: writes to RO registers and RZ fields are ignored; some values are refused as ILLEGAL class 2. -/
def State.writeCsr (s : State) (n : Nat) (v : Word) : Option State :=
  let low (k : Nat) : Word := word (v.toNat % 2 ^ k)
  if n = 0x000 then if 6 ≤ v.toNat % 8 then none else some (s.modCsr fun c => { c with fpctl := low 10 })
  else if n = 0x001 then some (s.modCsr fun c => { c with fpflags := low 5 })
  else if n = 0x011 then some (s.modCsr fun c => { c with taskid := low 32 })
  else if n = 0x021 then some (s.modCsr fun c => { c with ngettime := word (max 16 (v.toNat % 2 ^ 16)) })
  else if n = 0x025 then some (s.modCore fun c => { c with runq0 := low 33 })
  else if n = 0x026 then some (s.modCore fun c => { c with runq1 := low 33 })
  else if 0x030 ≤ n ∧ n ≤ 0x037 then
    some ((s.modCore fun c => { c with tgeom := vset c.tgeom (n - 0x030) (low 26) }).record
      [{ kind := 4, strand := s.k, word := n, value := v }])
  else if 0x038 ≤ n ∧ n ≤ 0x03B then
    some ((s.modCore fun c =>
      let old := (vget c.ageom (n - 0x038) 0).toNat
      let sat := if bit v.toNat 13 then 0 else bits old 13 13
      { c with ageom := vset c.ageom (n - 0x038) (word (v.toNat % 2 ^ 13 + sat * 2 ^ 13)) }).record
      [{ kind := 4, strand := s.k, word := n, value := v }])
  else if n = 0x040 then some (s.modCsr fun c => { c with trapvec := low 48 })
  else if 0x050 ≤ n ∧ n ≤ 0x05F then
    if regSwz v = 7 then none else some (s.modCsr fun c => { c with region := vset c.region (n - 0x050) (low 26) })
  else some s

/-- csrr (R61). -/
def execCsrr (d imm g : Nat) : State → Host.Outcome State Fault Refusal := issue g [d] fun s => dst d (s.readCsr imm) s

/-- csrw (R61). -/
def execCsrw (a imm g : Nat) : State → Host.Outcome State Fault Refusal :=
  issue g [a] fun s => src a s fun v s => match s.writeCsr imm v with
    | some s => .next s
    | none => .ill s 2

end Sys2Proof.Machine
end

