-- ==== Sys2Proof/Machine/Tasks.lean ====
section
/-! DEFINITION. Speculative ordered tasks (R266 to R279): the task units, TSPAWN, TASK, spawning and spilling (R268, R270), dispatch (R271),
aborts (R273), commits (R274), deferred traps (R277). -/

namespace Sys2Proof.Machine

/-! ## Keys, units and jobs (R266, R267) -/

/-- The key of a task (R267). -/
def TaskRec.key (t : TaskRec) : Nat × Nat := (t.ts, t.id)

/-- Whether one key is before another (R267). -/
def keyBefore (a b : Nat × Nat) : Bool := a.1 < b.1 || (a.1 == b.1 && a.2 < b.2)

/-- A job as a key: its context's GID and its number. -/
def jobKey (gid num : Nat) : Nat := gid * 2 ^ 16 + num % 2 ^ 16

/-- The job of a core's crew, as a key. -/
def State.coreJob (s : State) (c : Core) : Option Nat :=
  ((c.crew.bind s.crewOf).bind fun w => s.jobOf w.job).map fun j => jobKey j.gid j.num

/-- The job of the focused strand, as a key. -/
def State.myJob (s : State) : Nat := jobKey s.gid s.st.csr.jobno.toNat

/-- Whether a unit serves a job (R266). DESIGN CHOICE (log entry 79): a job number names a job of one context only (R312), so the unit serves the job of
the context that last wrote its doubleword 0. -/
def TaskUnit.serves (u : TaskUnit) (jk : Nat) : Bool := u.en && jobKey u.gid u.job == jk

/-- The clusters whose units serve a job, in ascending order of cluster. -/
def State.unitsOf (s : State) (jk : Nat) : List Nat :=
  ((s.clusters.filter fun c => c.task.serves jk).map (·.key)).mergeSort

/-- The uncommitted tasks of a job, each with its unit's cluster. -/
def State.tasksOf (s : State) (jk : Nat) : List (Nat × TaskRec) :=
  s.clusters.flatMap fun c => if c.task.serves jk then c.task.tasks.map fun t => (c.key, t) else []

/-- The element of a list of keyed things whose key is first. -/
def firstKey {α : Type} (key : α → Nat × Nat) : List α → Option α
  | [] => none
  | x :: xs => match firstKey key xs with
    | some y => if keyBefore (key y) (key x) then some y else some x
    | none => some x

/-- The element of a list of keyed things whose key is last. -/
def lastKey {α : Type} (key : α → Nat × Nat) : List α → Option α
  | [] => none
  | x :: xs => match lastKey key xs with
    | some y => if keyBefore (key x) (key y) then some y else some x
    | none => some x

/-- The job's earliest uncommitted task. -/
def State.earliest (s : State) (jk : Nat) : Option (Nat × TaskRec) := firstKey (·.2.key) (s.tasksOf jk)

/-- Whether a task is its job's earliest uncommitted task. -/
def State.isEarliest (s : State) (jk : Nat) (key : Nat × Nat) : Bool := (s.earliest jk).map (·.2.key) == some key

/-- The index of a cluster among the clusters of a crew's rectangle, row-major (R267). -/
def State.clusterIndex (s : State) (w : Crew) (cl : Nat) : Nat :=
  let c := s.clusterCore cl 0
  (unpackX c / 4 - w.x0 / 4) + (unpackY c / 4 - w.y0 / 4) * (w.x1 / 4 - w.x0 / 4 + 1)

/-- HELD and SPECN of a unit (R266). -/
def TaskUnit.held (u : TaskUnit) : Nat := (u.tasks.filter fun t => t.spill.isNone).length
def TaskUnit.specn (u : TaskUnit) : Nat := (u.tasks.filter fun t => t.life != .ready).length

def State.modTasks (s : State) (cl : Nat) (f : List TaskRec → List TaskRec) : State :=
  s.modCluster cl fun c => { c with task := { c.task with tasks := f c.task.tasks } }

/-! ## Spilling (R270) -/

/-- The 64 bytes of a spill entry (R270). -/
def TaskRec.spillBytes (t : TaskRec) : List Byte :=
  bytesOfWord 8 t.handler ++ bytesOfWord 8 t.ts ++ bytesOfWord 4 t.id ++ bytesOfWord 4 (t.spawner.getD 0xFFFFFFFF)
  ++ (padTo 5 t.args).flatMap fun w => bytesOfWord 8 w.toNat

/-- A unit with more than 256 held tasks moves its latest held task that is not dispatched to a free entry of its ring (R270), with how the write of
the entry ends. -/
def State.spill (s : State) (cl : Nat) : State × Res :=
  let u := (s.cluster cl).task
  match lastKey TaskRec.key (u.tasks.filter fun t => t.spill.isNone && t.life == .ready),
      (List.range (2 ^ u.splog)).find? fun i => u.tasks.all fun t => t.spill != some i with
  | some t, some i => match s.writePage u.gid (u.spill.toNat + 64 * i) t.spillBytes cl with
    | (s, .ok bs) => (s.modTasks cl fun l => l.map fun x => if x.id = t.id then { x with spill := some i } else x, .ok bs)
    | r => r
  | _, _ => (s, .ok [])

/-- While a unit holds fewer than 256 tasks, its earliest spilled task comes back (R270). -/
def refill : Nat → Nat → State → State
  | 0, _, s => s
  | n + 1, cl, s =>
    let u := (s.cluster cl).task
    match if u.held < 256 then firstKey TaskRec.key (u.tasks.filter fun t => t.spill.isSome) else none with
    | some t => refill n cl (s.modTasks cl fun l => l.map fun x => if x.id = t.id then { x with spill := none } else x)
    | none => s

/-- Whether a unit has room for one task more (R270). -/
def TaskUnit.room (u : TaskUnit) : Bool := u.tasks.length < 256 + 2 ^ u.splog

/-! ## Aborts (R273) -/

/-- A set of task ids closed under spawning and dependence. -/
def closeSet (ts : List TaskRec) : Nat → List Nat → List Nat
  | 0, l => l
  | n + 1, l => closeSet ts n ((ts.filter fun t => l.contains t.id || (t.parent.map l.contains).getD false || t.deps.any l.contains).map (·.id))

/-- A strand that could act is parked, and goes on as it was (R8). -/
def Life.park : Life → Life
  | .run => .parked false
  | .wait => .parked true
  | l => l
def Life.unpark : Life → Life
  | .parked w => if w then .wait else .run
  | l => l

/-- Something done at a parked crew's core, as if it stood in its place (R408). -/
def State.onParked (s : State) (id c : Nat) (f : State → State) : State :=
  match (s.crewOf id).bind fun w => findKey Core.coord w.parkedCores c with
  | none => s
  | some k => s.atCore c 0 fun s =>
      let real := s.core
      let t := f { s with core := k }
      let k' := { t.core with strands := t.core.strands.map fun x => { x with life := x.life.park } }
      { t with core := real }.modCrew id fun w =>
        { w with parkedCores := putKey Core.coord k' w.parkedCores, touched := if w.touched.contains c then w.touched else c :: w.touched }

/-- Something done at the core of a coordinate and at every core parked from it. -/
def State.atTaskCore (s : State) (c : Nat) (f : State → State) : State :=
  (s.sys.crews.map (·.id)).foldl (fun s id => s.onParked id c f) (s.atCore c 0 f)

/-- Whether a message carries a task of a job from its unit. -/
def Msg.carries (m : Msg) (jk id : Nat) : Bool := m.run.isSome && m.task == id && jobKey m.gid m.job == jk

/-- The strand of a running task of a job freed, also in an image: its operations are abandoned, its class counts become 0, its held messages are
discarded. -/
def State.stopTask (s : State) (jk : Nat) (t : TaskRec) : State :=
  let own (x : Strand) : Bool := match x.task with
    | some r => r.ts == t.ts && r.id == t.id
    | none => false
  let s := s.modSys fun y => { y with flight := y.flight.filter fun m => !(m.carries jk t.id && m.dst == t.core) }
  s.atTaskCore t.core fun s => if s.coreJob s.core != some jk then s else
    let s : State := { s with k := t.strand }
    let s := s.modNi fun n => { n with outb := n.outb.filter fun o => o.held != some t.key
                                       lpq := n.lpq.filter fun m => !m.carries jk t.id
                                       cellar := n.cellar.filter fun m => !m.carries jk t.id }
    if t.strand < 16 && own s.st then
      (s.modSt fun x => { x with ops := [], issued := Vector.replicate 5 0 }).freeStrand 3 else s

/-- The abort of tasks of a job, given by their ids (R273). -/
def State.abortTasks (s : State) (jk : Nat) (ids : List Nat) : State :=
  let all := (s.tasksOf jk).map (·.2)
  let set := closeSet all all.length ids
  let mem := all.filter fun t => set.contains t.id
  let s := (mem.filter fun t => t.life != .ready).foldl (fun s t => s.stopTask jk t) s
  let gone (v : Version) : Bool := v.job == jk && set.contains v.task.2
  let s := s.modSys fun y => { y with versions := y.versions.filter fun v => !gone v, readers := y.readers.filter fun v => !gone v }
  (s.unitsOf jk).foldl (fun s cl => refill 1024 cl (s.modTasks cl fun l => l.filterMap fun t =>
    if !set.contains t.id then some t
    else if (t.parent.map set.contains).getD false then none
    else some { t with life := .ready, core := 0, strand := 0, deps := [] })) s

/-! ## TSPAWN (R268, R269) -/

/-- The unit a hint selects (R269): the home cluster of a DEVMEM or TIER line that the core's data TLB maps. -/
def State.unitFor (s : State) (d : Nat) : Nat :=
  let va := (s.g d).toNat % 2 ^ 48
  match if d = 0 then none else s.core.dtlb.find? fun e => e.covers s.gid va with
  | some e => if e.type < 2 then e.homeCluster s va else s.cl
  | none => s.cl

/-- tspawn (R268). -/
def execTspawn (d a b g : Nat) : State → Host.Outcome State Fault Refusal :=
  issue g [d, a, b] fun s =>
    let h := (s.g a).toNat % 2 ^ 48
    if 5 < s.st.q1.length then .ill s 4
    else if h % 4 != 0 then .code 3
    else if (s.st.task.map fun r => decide ((s.g b).toNat < r.ts)).getD false then .code 0x12
    else issueOp { kind := .spawn, cls := .s, a := word h, b := s.g b, regs := padTo 5 s.st.q1, target := s.unitFor d
                   n := (s.st.task.map fun r => r.id + 1).getD 0 } s.sideEffect fun s => s.modSt fun t => { t with q1 := [] }

/-- task.gvt (R279): in a task, never after its own timestamp. -/
def execTaskGvt (d g : Nat) : State → Host.Outcome State Fault Refusal :=
  issue g [d] fun s =>
    let v := ((s.sys.gvts.find? fun e => e.1 == s.myJob).map (·.2)).getD (2 ^ 64 - 1)
    .next (s.setG d (word ((s.st.task.map fun r => min v r.ts).getD v)))

/-- task.ts (R279). -/
def execTaskTs (d g : Nat) : State → Host.Outcome State Fault Refusal :=
  issue g [d] fun s => match s.st.task with
    | some r => .next ((s.setG d (word r.ts)).setP 1 false)
    | none => .next ((s.setG d 0).setP 1 true)

/-! ## Spawns at their unit (R268, R270) -/

/-- Uncommitted tasks that a task spawned aborted, latest first, until the unit has room; never the earliest (R270, R276). -/
def State.makeRoom (s : State) (jk cl : Nat) : State :=
  let l := ((s.tasksOf jk).filter fun t => t.2.spawner.isSome).mergeSort fun a b => !keyBefore a.2.key b.2.key
  l.foldl (fun s t => if (s.cluster cl).task.room || s.isEarliest jk t.2.key then s else s.abortTasks jk [t.2.id]) s

/-- The key of a job's last committed task (R266): (0, 0) before the first. -/
def State.lastCommitted (s : State) (jk : Nat) : Nat × Nat :=
  (lastKey id ((s.unitsOf jk).map fun cl => let u := (s.cluster cl).task; (u.cts, u.cid))).getD (0, 0)

/-- A spawn of the focused strand treated by its unit: accepted, failed, discarded with its spawner, or left waiting (R268, R270). An entry of the
spill ring that the new task makes necessary is written first: the spawn waits while its page is not available, and fails as that write fails (DESIGN
CHOICE, log entry 80). The unit of a die in a relock does not act (R341). -/
def State.spawnAt (s : State) (o : Op) : State :=
  let cl := o.target
  let jk := s.myJob
  let u := (s.cluster cl).task
  let idx := (s.crew.map fun w => s.clusterIndex w cl).getD 0
  let id := idx % 256 * 2 ^ 24 + u.counter % 2 ^ 24
  let key := (o.b.toNat, id)
  let later (s : State) : State := s.modSt fun t => { t with ops := t.ops.map fun p =>
    if p.id = o.id then { p with started := true, absentAt := s.afterCycles 256 } else p }
  let accept (s : State) : State :=
    let t : TaskRec := { ts := o.b.toNat, id := id, handler := o.a.toNat, args := o.regs, parent := if o.n = 0 then none else some (o.n - 1) }
    let s := s.modCluster cl fun c => { c with task := { c.task with tasks := c.task.tasks ++ [t], counter := (c.task.counter + 1) % 2 ^ 24 } }
    let without (s : State) : State := s.modCluster cl fun c => { c with task := { c.task with tasks := c.task.tasks.filter (·.id != id), counter := u.counter } }
    if (s.cluster cl).task.held ≤ 256 then s.completeOp o none 0 none
    else match s.spill cl with
      | (s, .ok _) => s.completeOp o none 0 none
      | (s, .wait _) => later (without s)
      | (s, .fail t) => (without s).completeOp o (some t) 0 none
  if (s.die (cl / 36)).relock.isSome then s
  else if !u.serves jk then s.completeOp o (some (copyErr 9 0)) 0 none
  else if (s.tasksOf jk).any fun t => t.2.id == id then later s
  else if o.n = 0 && !keyBefore (s.lastCommitted jk) key then s.completeOp o (some (copyErr 8 0)) 0 none
  else if u.room then accept s
  else match s.st.task with
    | some r =>
      if s.isEarliest jk (r.ts, r.id) then let s := s.makeRoom jk cl; if (s.cluster cl).task.room then accept s else later s
      else s.abortTasks jk [r.id]
    | none => let s := s.makeRoom jk cl; if (s.cluster cl).task.room then accept s else later s

/-- TASK_SPAWN_ACCEPT (R270). -/
def execTaskSpawnAccept (c k id : Nat) : State → Host.Outcome State Fault Refusal :=
  opEvent c k id (fun o => o.kind == .spawn && !o.started) fun o s => s.spawnAt o

/-- SPAWN_RETRY (R270): a waiting spawn is retried every 256 core cycles. -/
def execSpawnRetry (c k id : Nat) : State → Host.Outcome State Fault Refusal :=
  opEvent c k id (fun o => o.kind == .spawn && o.started) fun o s => if s.sys.now < o.absentAt then s else s.spawnAt o

/-! ## Dispatch (R271) -/

/-- The place of a cluster in row-major order. -/
def State.rowMajor (s : State) (cl : Nat) : Nat :=
  let c := s.clusterCore cl 0
  unpackY c * 2 ^ 12 + unpackX c

/-- The unit that answers a request of the focused core, the first that has a ready task: its own cluster's, then the others in ascending cluster
index, wrapping; with 64 tasks dispatched it answers only with the job's earliest task. A unit of a die in a relock answers none (R341). -/
def State.readyUnit (s : State) (jk : Nat) : Option Nat :=
  let us := (s.unitsOf jk).mergeSort fun a b => s.rowMajor a ≤ s.rowMajor b
  let mine := s.rowMajor s.cl
  let order := (us.filter fun u => mine ≤ s.rowMajor u) ++ us.filter fun u => s.rowMajor u < mine
  let first (cl : Nat) : Option TaskRec := firstKey TaskRec.key ((s.cluster cl).task.tasks.filter fun t => t.life == .ready && t.spill.isNone)
  (order.find? fun cl => (first cl).isSome).filter fun cl =>
    ((s.cluster cl).task.specn < 64 || (first cl).any fun t => s.isEarliest jk t.key) && (s.die (cl / 36)).relock.isNone

/-- TASK_REQUEST (R271): a core with a FREE strand, an empty LP queue and an empty cellar takes the earliest ready task of a unit; it has one
task on its way at a time. Its run queues come first (R16, step 1). -/
def execTaskRequest (c : Nat) (s : State) : Host.Outcome State Fault Refusal :=
  if !s.inMesh c then .next s
  else .next (s.atCore c 0 fun s =>
    match s.coreJob s.core with
    | none => s
    | some jk =>
      if s.core.freeStrandNo.isNone || !s.core.ni.lpq.isEmpty || !s.core.ni.cellar.isEmpty || s.core.ni.startSlot.isSome
        || s.sys.flight.any (fun m => m.run.isSome && m.dst == s.here) || s.pollDue || s.core.ni.claiming.isSome || s.core.draining then s
      else match s.readyUnit jk with
        | none => s
        | some cl =>
          let u := (s.cluster cl).task
          let s := if u.specn < 64 then s
            else match lastKey TaskRec.key (u.tasks.filter fun t => t.life != .ready) with
              | some t => s.abortTasks jk [t.id]
              | none => s
          match firstKey TaskRec.key ((s.cluster cl).task.tasks.filter fun t => t.life == .ready && t.spill.isNone) with
          | none => s
          | some t =>
            let s := s.modTasks cl fun l => l.map fun x => if x.id = t.id then { x with life := .running, core := s.here, strand := 16 } else x
            s.launchMsg { h0 := header0 5 0 0 2 false true t.handler, h1 := header1 s.here s.here (jk % 2 ^ 16)
                          h2 := word (t.id * 2 ^ 32 + s.sys.now % 2 ^ 32), pay := padTo 5 t.args, gid := s.gid, run := some (t.ts, cl) })

/-! ## Commit (R274) -/

/-- The timestamps of a job's spawns that have issued and are not accepted. -/
def State.spawning (s : State) (jk : Nat) : List (Nat × Nat) :=
  let of (c : Core) : List (Nat × Nat) :=
    if s.coreJob c = some jk then c.strands.toList.flatMap fun t => (t.ops.filter fun o => o.kind == .spawn && !o.complete).map fun o => (o.b.toNat, 0)
    else []
  (s.cores.flatMap of) ++ s.sys.crews.flatMap fun w => w.parkedCores.flatMap of

/-- GVT of a job (R274): none for all ones. -/
def State.gvtOf (s : State) (jk : Nat) : Option (Nat × Nat) :=
  firstKey id (((s.tasksOf jk).filter fun t => t.2.life != .finished).map (·.2.key) ++ s.spawning jk)

/-- Whether a version's home cannot be written now: its page is being moved (R365), or a die on the way is in a relock (R342). -/
def State.homeBusy (s : State) (cl : Nat) (v : Version) : Bool := v.leaf.any fun e =>
  (s.sys.moves.any fun m => m.gid == e.gid && m.va == e.base) || s.pathHeld (walkerDie cl) (e.leafDie s v.va)

/-- A version written into the committed value at its home (R274, step 1): the bytes that its task has written. -/
def State.commitVersion (s : State) (v : Version) : State := match v.leaf with
  | none => s
  | some e => if s.keyless e.gid then s
    else ((List.range 8).filter fun i => bit v.mask i).foldl (fun s i => s.writeFrame e (v.va + i) [BitVec.ofNat 8 (v.value.toNat / 2 ^ (8 * i))]) s

/-- What follows the writes of a commit (R274): its held messages are released, its slot is freed, and CTS and CID are those of the task in
every unit of the job. -/
def State.endTask (s : State) (jk : Nat) (t : Nat × TaskRec) : State :=
  let own (v : Version) : Bool := v.job == jk && v.task == t.2.key
  let s := s.modSys fun y => { y with versions := y.versions.filter fun v => !own v, readers := y.readers.filter fun v => !own v }
  let s := s.atTaskCore t.2.core fun s => s.modNi fun n => { n with outb := n.outb.map fun o => if o.held = some t.2.key then { o with held := none } else o }
  let s := s.modTasks t.1 fun l => l.filter fun x => x.id != t.2.id
  let s := (s.unitsOf jk).foldl (fun s cl => s.modCluster cl fun c => { c with task := { c.task with
    cts := t.2.ts, cid := t.2.id
    tasks := c.task.tasks.map fun x => { x with deps := x.deps.filter (· != t.2.id), parent := if x.parent = some t.2.id then none else x.parent } } }) s
  refill 256 t.1 s

/-- A finished task committed (R274): its versions, then its held messages, then its slot; none while one of their homes cannot be written, or its
unit's die is in a relock (R341). -/
def State.commitTask (s : State) (jk : Nat) (t : Nat × TaskRec) : Option State :=
  let mine := s.sys.versions.filter fun v => v.job == jk && v.task == t.2.key
  if (s.die (t.1 / 36)).relock.isSome || mine.any (s.homeBusy t.1) then none
  else some ((mine.foldl State.commitVersion s).endTask jk t)

/-- The finished tasks of a job before its GVT committed in the order of their keys. -/
def commitAll (jk : Nat) : Nat → State → State
  | 0, s => s
  | n + 1, s =>
    match s.earliest jk with
    | none => s
    | some t =>
      if t.2.life == .finished && (match s.gvtOf jk with | some v => keyBefore t.2.key v | none => true)
      then match s.commitTask jk t with
        | some s => commitAll jk n s
        | none => s
      else s

/-- The jobs that some unit serves. -/
def State.taskJobs (s : State) : List Nat :=
  ((s.clusters.filter fun c => c.task.en).map fun c => jobKey c.task.gid c.task.job).eraseDups

/-- GVT_EPOCH (R274): at every multiple of 2,000 ns each job's GVT is computed and its finished tasks commit. -/
def execGvtEpoch (s : State) : Host.Outcome State Fault Refusal :=
  if s.sys.now < s.sys.gvtAt then .next s
  else
    let s := s.modSys fun y => { y with gvtAt := (y.now / 2000 + 1) * 2000 }
    .next (s.taskJobs.foldl (fun s jk =>
      let v := ((s.gvtOf jk).map (·.1)).getD (2 ^ 64 - 1)
      commitAll jk (s.tasksOf jk).length (s.modSys fun y => { y with gvts := putKey (·.1) (jk, v) y.gvts })) s)

/-- DEFERRED_TRAP_TAKEN (R277): the trap of the job's earliest uncommitted task is taken at its instruction. -/
def execDeferredTrapTaken (c k : Nat) (s : State) : Host.Outcome State Fault Refusal :=
  if !s.inMesh c || 16 ≤ k then .next s
  else .next (s.atCore c k fun s => match s.st.task with
    | some r => match r.deferred with
      | some t => if s.isEarliest s.myJob (r.ts, r.id)
          then (s.modSt fun x => { x with task := some { r with deferred := none } }).enterTrap t else s
      | none => s
    | none => s)

end Sys2Proof.Machine
end

