-- ==== Sys2Proof/Machine/Negative.lean ====
section
/-! DEFINITION. Negatives in tape memory: the directory (R330), the bytes of a negative (R331, R332), the end of a recording (R327), and the
guards that are checked before a print's first entry (R333 to R336). -/

namespace Sys2Proof.Machine

/-! ## The directory (R330) -/

/-- The doublewords of a directory entry. -/
def Die.dir0 (d : Die) (i : Nat) : Nat := d.tapeMem.rdN (16 * i) 8
def Die.dir1 (d : Die) (i : Nat) : Nat := d.tapeMem.rdN (16 * i + 8) 8

/-- The fields of a directory entry. -/
def Die.dirNumber (d : Die) (i : Nat) : Nat := bits (d.dir0 i) 15 0
def Die.dirCtx (d : Die) (i : Nat) : Nat := bits (d.dir0 i) 23 16
def Die.dirState (d : Die) (i : Nat) : Nat := bits (d.dir0 i) 25 24
def Die.dirReason (d : Die) (i : Nat) : Nat := bits (d.dir0 i) 29 26
def Die.dirActive (d : Die) (i : Nat) : Nat := bits (d.dir0 i) 39 30
def Die.dirOff (d : Die) (i : Nat) : Nat := bits (d.dir1 i) 21 0
def Die.dirLen (d : Die) (i : Nat) : Nat := bits (d.dir1 i) 43 22

/-- A directory entry written. -/
def Die.setDir (d : Die) (i number ctx state reason active off len : Nat) : Die :=
  let w0 := number + ctx * 2 ^ 16 + state * 2 ^ 24 + reason * 2 ^ 26 + active * 2 ^ 30
  { d with tapeMem := d.tapeMem.put (16 * i) (bytesOfWord 8 w0 ++ bytesOfWord 8 (off + len * 2 ^ 22)) }

/-- The state, reason and number of prints of an entry changed. -/
def Die.markDir (d : Die) (i state reason active : Nat) : Die :=
  d.setDir i (d.dirNumber i) (d.dirCtx i) state reason active (d.dirOff i) (d.dirLen i)

/-- The entry of a number in a context whose state is in a list. -/
def Die.dirFind (d : Die) (num ctx : Nat) (states : List Nat) : Option Nat :=
  (List.range 256).find? fun i => d.dirNumber i == num && d.dirCtx i == ctx && states.contains (d.dirState i)

/-- The ranges of tape memory that entries other than FREE ones hold. -/
def Die.dirUsed (d : Die) : List (Nat × Nat) :=
  (List.range 256).filterMap fun i => if d.dirState i = 0 || d.dirLen i = 0 then none else some (d.dirOff i, d.dirLen i)

/-- The lowest aligned place for a length in a range that overlaps nothing used. -/
def placeIn (base size align len : Nat) (used : List (Nat × Nat)) : Option Nat :=
  let ok (a : Nat) : Bool := base ≤ a && a + len ≤ base + size && used.all fun u => !overlap a len u.1 u.2
  (((base :: used.map fun u => u.1 + u.2).map fun a => (a + align - 1) / align * align).filter ok).foldl
    (fun m a => match m with
      | none => some a
      | some b => some (min a b)) none

/-! ## The bytes of a negative (R331, R332) -/

/-- The 16 bytes of a stream entry (R332). -/
def TapeEntry.bytes (e : TapeEntry) : List Byte :=
  bytesOfWord 8 (e.kind % 16 + e.strand % 16 * 2 ^ 4 + e.arg % 256 * 2 ^ 8 + e.fpc % 1024 * 2 ^ 16 + e.word % 2 ^ 32 * 2 ^ 32)
  ++ bytesOfWord 8 e.value.toNat

/-- A stream entry read back. -/
def readEntry (d0 d1 : Nat) : TapeEntry :=
  { kind := bits d0 3 0, strand := bits d0 7 4, arg := bits d0 15 8, fpc := bits d0 25 16, word := bits d0 63 32, value := word d1 }

/-- The PAGE guards of a recording, in the order of the core index (R331). -/
def Recording.pages (r : Recording) (w : Crew) : List (Nat × Nat) :=
  let index (c : Nat) : Nat := (unpackY c - w.y0) * (w.x1 - w.x0 + 1) + (unpackX c - w.x0)
  ((r.done.mergeSort fun a b => index a.1 ≤ index b.1).flatMap fun u => u.2.pages).eraseDups

/-- The bytes of a negative (R331): its streams in the order of the core index. PAGE guards come first, then VALUE guards. -/
def negativeImage (r : Recording) (w : Crew) : List Byte :=
  let wd := w.x1 - w.x0 + 1
  let index (c : Nat) : Nat := (unpackY c - w.y0) * wd + (unpackX c - w.x0)
  let us := r.done.mergeSort fun a b => index a.1 ≤ index b.1
  let pages := r.pages w
  let vbase (n : Nat) : Nat := ((us.take n).map fun u => u.2.guards.length).foldl (· + ·) pages.length
  let streams := us.zipIdx.map fun u => (u.1.2.entries.map fun e =>
    if e.kind = 8 then { e with value := word (e.value.toNat + vbase u.2) } else e) ++ [({ kind := 9 } : TapeEntry)]
  let decls := us.flatMap fun u => u.2.decls.map fun d => bytesOfWord 8 (index u.1 + d.field * 2 ^ 12 + d.reg * 2 ^ 16 + d.slot * 2 ^ 24
      + d.entry * 2 ^ 32) ++ bytesOfWord 8 d.value.toNat
  let guards := (pages.map fun p => bytesOfWord 8 (1 + p.1 * 16) ++ bytesOfWord 8 p.2 ++ bytesOfWord 16 0)
    ++ us.flatMap fun u => u.2.guards.map fun g => bytesOfWord 8 3 ++ bytesOfWord 8 g.addr ++ bytesOfWord 8 g.value.toNat
      ++ bytesOfWord 8 (index u.1 + g.entry * 2 ^ 32)
  let slotOff := 64 + 16 * us.length
  let guardOff := slotOff + 16 * decls.length
  let first := guardOff + 32 * guards.length
  let offs := streams.zipIdx.map fun t => first + 16 * ((streams.take t.2).map (·.length)).foldl (· + ·) 0
  bytesOfWord 8 (1 + r.num * 2 ^ 16 + r.job * 2 ^ 32 + r.ctx * 2 ^ 48 + num (us.any fun u => u.2.side) * 2 ^ 56)
  ++ bytesOfWord 8 (wd + (w.y1 - w.y0 + 1) * 2 ^ 12 + us.length * 2 ^ 24)
  ++ bytesOfWord 8 (decls.length + guards.length * 2 ^ 16) ++ bytesOfWord 8 (slotOff + guardOff * 2 ^ 22) ++ bytesOfWord 32 0
  ++ (us.zipIdx.flatMap fun u => bytesOfWord 8 (unpackX u.1.1 - w.x0 + (unpackY u.1.1 - w.y0) * 2 ^ 12)
      ++ bytesOfWord 8 (offs.getD u.2 0 + (streams.getD u.2 []).length * 2 ^ 22))
  ++ decls.flatten ++ guards.flatten ++ streams.flatten.flatMap TapeEntry.bytes

/-! ## Recording (R327) -/

/-- The recording a crew makes under a number. -/
def State.recordingOf (s : State) (crew num : Nat) : Option Recording := s.sys.recordings.find? fun r => r.crew == crew && r.num == num

def State.modRecording (s : State) (crew num : Nat) (f : Recording → Recording) : State :=
  s.modSys fun y => { y with recordings := y.recordings.map fun r => if r.crew = crew && r.num = num then f r else r }

/-- Whether recording under a number may start on the focused core (R327): the crew, or none. -/
def State.mayRecord (s : State) (num_ : Nat) : Option Crew :=
  match s.crew with
  | none => none
  | some w =>
    let dk := s.dieKey (pack w.x0 w.y0)
    let d := s.die dk
    let ctx := s.ctxOn dk s.gid
    let other := (List.range 256).any fun i => d.dirNumber i == num_ && d.dirState i != 0 && d.dirCtx i != ctx
    let busy := s.sys.recordings.any fun r => r.num == num_ && r.gid == s.gid && r.crew != w.id
    let used := (List.range 256).any fun i => d.dirNumber i == num_ && d.dirCtx i == ctx && d.dirState i != 0 && d.dirActive i != 0
    if num_ = 0 || s.core.tape.recording.isSome || 2304 < (w.x1 - w.x0 + 1) * (w.y1 - w.y0 + 1) || other || busy || used then none
    else some w

/-- A core's tape state without what it has recorded: its part in a print stays. -/
def TapeUse.cleared (u : TapeUse) : TapeUse :=
  { print := u.print, pos := u.pos, driver := u.driver, dest := u.dest, seen := u.seen, fin := u.fin }

/-- The focused core begins to record (R325): the recording's directory entry is taken when its first core begins. -/
def State.beginRecording (s : State) (w : Crew) (num_ : Nat) : State :=
  let dk := s.dieKey (pack w.x0 w.y0)
  let s := match s.recordingOf w.id num_ with
    | some _ => s
    | none =>
      let ctx := s.ctxOn dk s.gid
      let e := (List.range 256).find? fun i => (s.die dk).dirState i == 0
      let s := match e with
        | some i => s.modDie dk fun d => d.setDir i num_ ctx 1 0 0 0 0
        | none => s
      let r : Recording := { num := num_, gid := s.gid, crew := w.id, job := (s.job.map fun j : Job => j.num).getD 0, die := dk, ctx := ctx
                             entry := e, reason := if e.isNone then 4 else 0 }
      s.modSys fun y => { y with recordings := y.recordings ++ [r] }
  (s.modRecording w.id num_ fun r => { r with live := r.live ++ [s.here] }).modCore fun c =>
    { c with tape := { c.tape.cleared with recording := some num_ } }

/-- An earlier negative replaced (R327): its entry is FREE, or INVALID as long as a print that began before runs it. -/
def Die.replaced (d : Die) (o : Nat) : Die := if d.dirActive o = 0 then d.setDir o 0 0 0 0 0 0 0 else d.markDir o 3 0 (d.dirActive o)

/-- A recording that every core has ended: READY, replacing every earlier negative of its number, or INVALID with its reason (R327). One that
lost a page keeps its bytes, which the shape check reads (R334, R335), and the index of that guard (R336). -/
def State.finishRecording (s : State) (r : Recording) (w : Crew) : State :=
  let s := s.modSys fun y => { y with recordings := y.recordings.filter fun x => !(x.crew == r.crew && x.num == r.num) }
  match r.entry with
  | none => s
  | some i =>
    let d := s.die r.die
    let tooMany := 1024 < (r.done.map fun u => u.2.decls.length).foldl (· + ·) 0
    let bs := negativeImage r w
    let at_ := placeIn 4096 (2 ^ 22 - 4096) 64 bs.length d.dirUsed
    let reason := if r.reason != 0 then r.reason else if tooMany || at_.isNone then 4 else 0
    let old := (List.range 256).filter fun o => o != i && d.dirNumber o == r.num && d.dirCtx o == r.ctx && 2 ≤ d.dirState o
    let d := if reason = 0 then old.foldl Die.replaced d else d
    match at_ with
    | some a =>
      let lost := dropKey (·.1) i d.guardHit ++ r.hit.toList.map fun b => (i, ((r.pages w).map (·.2)).idxOf b)
      let held : Die := { d with tapeMem := d.tapeMem.put a bs, guardHit := lost }
      if reason = 0 then s.setDie (held.setDir i r.num r.ctx 2 0 0 a bs.length)
      else if reason = 1 then s.setDie (held.setDir i r.num r.ctx 3 1 0 a bs.length)
      else s.setDie (d.setDir i r.num r.ctx 3 reason 0 0 0)
    | none => s.setDie (d.setDir i r.num r.ctx 3 reason 0 0 0)

/-- The focused core ends its recording (R327). -/
def State.endRecording (s : State) : State :=
  match s.core.tape.recording, s.crew with
  | some n, some w =>
    let u := { s.core.tape with pages := s.guardsAtEnd s.core.tape.pages }
    let here := s.here
    let s := (s.modCore fun c => { c with tape := c.tape.cleared }).modRecording w.id n fun r =>
      { r with live := r.live.filter (· != here), done := r.done ++ [(here, u)] }
    match s.recordingOf w.id n with
    | some r => if r.live.isEmpty then s.finishRecording r w else s
    | none => s
  | _, _ => s

/-- The first PAGE guard of a directory entry's negative that lies in a range. -/
def Die.guardIn (d : Die) (i : Nat) (hit : Nat × Nat → Bool) : Option Nat :=
  let off := d.dirOff i
  let n := bits (d.tapeMem.rdN (off + 16) 8) 31 16
  let go := bits (d.tapeMem.rdN (off + 24) 8) 43 22
  (List.range n).find? fun g =>
    let w0 := d.tapeMem.rdN (off + go + 32 * g) 8
    bits w0 3 0 == 1 && hit (bits w0 5 4, d.tapeMem.rdN (off + go + 32 * g + 8) 8)

/-- A PAGE guard of a negative lies in an invalidated range of its context (R333): a READY negative becomes INVALID; a recording will, also
where its core has ended its part or is parked. -/
def State.dropNegatives (s : State) (gid lo hi : Nat) : State :=
  let hit (p : Nat × Nat) : Bool := overlap p.2 (if p.1 = 2 then 2 ^ 30 else if p.1 = 1 then 2 ^ 21 else 2 ^ 16) lo (hi - lo)
  let s := s.dies.foldl (fun s d => (List.range 256).foldl (fun s i =>
    if d.dirState i = 2 && d.ctxOfGid gid == some (d.dirCtx i) then
      match d.guardIn i hit with
      | some g => s.modDie d.key fun d => { d.markDir i 3 1 (d.dirActive i) with guardHit := putKey (·.1) (i, g) d.guardHit }
      | none => s
    else s) s) s
  let live := s.cores ++ s.sys.crews.flatMap fun w => w.parkedCores
  let lost (r : Recording) : Recording :=
    let pages := (r.done.flatMap fun u => u.2.pages) ++
      (live.filter fun c => c.crew == some r.crew && c.tape.recording == some r.num).flatMap fun c => c.tape.pages
    match pages.find? hit with
    | some p => if r.gid = gid then { r with reason := if r.reason = 0 then 1 else r.reason, hit := r.hit.or (some p.2) } else r
    | none => r
  s.modSys fun y => { y with recordings := y.recordings.map lost }

/-! ## Guards before the first entry (R334 to R336) -/

/-- A negative of a die, for reading: a doubleword at an offset from its first byte. -/
def Die.negWord (d : Die) (e off : Nat) : Nat := d.tapeMem.rdN (d.dirOff e + off) 8

/-- Width, height, streams, declarations, guards of a negative. -/
def Die.negW (d : Die) (e : Nat) : Nat := bits (d.negWord e 8) 11 0
def Die.negH (d : Die) (e : Nat) : Nat := bits (d.negWord e 8) 23 12
def Die.negNc (d : Die) (e : Nat) : Nat := bits (d.negWord e 8) 35 24
def Die.negDecls (d : Die) (e : Nat) : List (Nat × Nat) :=
  (List.range (bits (d.negWord e 16) 10 0)).map fun i =>
    let o := bits (d.negWord e 24) 21 0 + 16 * i
    (d.negWord e o, d.negWord e (o + 8))
def Die.negGuards (d : Die) (e : Nat) : List (List Nat) :=
  (List.range (bits (d.negWord e 16) 31 16)).map fun i =>
    let o := bits (d.negWord e 24) 43 22 + 32 * i
    (List.range 4).map fun j => d.negWord e (o + 8 * j)

/-- The offset and the entry count of the stream at a relative position. -/
def Die.negStream (d : Die) (e uv : Nat) : Option (Nat × Nat) :=
  (List.range (d.negNc e)).findSome? fun i =>
    let w0 := d.negWord e (64 + 16 * i)
    let w1 := d.negWord e (64 + 16 * i + 8)
    if w0 % 2 ^ 24 = uv then some (bits w1 21 0, bits w1 43 22) else none

/-- Entry n of a stream. -/
def Die.negEntry (d : Die) (e off n : Nat) : TapeEntry := readEntry (d.negWord e (off + 16 * n)) (d.negWord e (off + 16 * n + 8))

/-- The relative position of a core index of a negative. -/
def Die.negUv (d : Die) (e i : Nat) : Nat := let w := max (d.negW e) 1; pack (i % w) (i / w)

/-- Why a print does not begin: the guard kind, its index, its address, and the value read. -/
structure GuardFail where
  kind : Nat
  index : Nat := 0
  addr : Nat := 0
  value : Nat := 0
  reason : Nat := 0

/-- The replay fault record of R336 and R337, at the focused core. -/
def State.tapeRecord (s : State) (code sub num_ guard entry addr value : Nat) : State :=
  s.fault s.dk { code := code, sub := sub, coord := s.here, ctx := s.ctxOn s.dk s.gid, pc := s.st.pc, task := s.st.csr.taskid.toNat
                 job := (s.job.map (·.num)).getD 0, info := num_ % 2 ^ 16 + guard % 2 ^ 16 * 2 ^ 16 + entry % 2 ^ 32 * 2 ^ 32
                 addr := addr, party := value, strand := s.k } []

/-- A guard that failed before the first entry (R336): the record, and an invalidating guard makes the negative INVALID (R334). -/
def State.guardFailed (s : State) (w : Crew) (num_ : Nat) (f : GuardFail × Option Nat) : State :=
  let dk := s.dieKey (pack w.x0 w.y0)
  let s := s.tapeRecord 0x13 f.1.kind num_ f.1.index 0 f.1.addr f.1.value
  match f.2 with
  | some e => s.modDie dk fun d => d.markDir e 3 f.1.reason (d.dirActive e)
  | none => s

/-- A print begun on a crew: the negative is in use (R330, ACTIVE). -/
def State.openPrint (s : State) (w : Crew) (num_ e : Nat) (patch : List Word) (launch : Bool) : State × Nat :=
  let dk := s.dieKey (pack w.x0 w.y0)
  let id := s.sys.nextId
  let s := s.modDie dk fun d => d.markDir e 2 0 (d.dirActive e + 1)
  let p : Print := { id := id, crew := w.id, num := num_, die := dk, entry := e, patch := patch, launch := launch }
  (s.modSys fun y => { y with nextId := id + 1, prints := y.prints ++ [p] }, id)

/-- A print over: the negative is no longer in use; one that another has replaced is gone (R327). -/
def State.closePrint (s : State) (p : Print) : State :=
  let s := s.modSys fun y => { y with prints := y.prints.filter fun q => q.id != p.id }
  s.modDie p.die fun d =>
    let d := d.markDir p.entry (d.dirState p.entry) (d.dirReason p.entry) (d.dirActive p.entry - 1)
    let newer := (d.dirFind (d.dirNumber p.entry) (d.dirCtx p.entry) [2]).any (· != p.entry)
    if newer && d.dirState p.entry = 3 && d.dirActive p.entry = 0 then d.setDir p.entry 0 0 0 0 0 0 0 else d

/-- The focused strand becomes the driver of its core's stream (R329, R335). -/
def State.drive (s : State) (id dest : Nat) : State :=
  let s := s.modSys fun y => { y with prints := y.prints.map fun p => if p.id = id then { p with cores := p.cores ++ [s.here] } else p }
  (s.modCore fun c => { c with tape := { c.tape with print := some id, pos := 0, driver := s.k, dest := dest, seen := 0, fin := false } }).modSt
    fun t => { t with life := .wait, waiting := .print }

end Sys2Proof.Machine
end

