-- ==== Sys2Proof/Machine/Crew.lean ====
section
/-! DEFINITION. Crews as the launch unit and their owners handle them: results (R317), kills and fences (R399, R400), pre-emption images
(R401 to R408), parking (R322) and resuming (R324), and the commands of a core-control block (R397, R398). -/

namespace Sys2Proof.Machine

/-! ## Rectangles and pools (R314, R437) -/

/-- The coordinates of a crew's cores, row by row. -/
def Crew.coords (w : Crew) : List Nat :=
  (List.range (w.y1 - w.y0 + 1)).flatMap fun j => (List.range (w.x1 - w.x0 + 1)).map fun i => pack (w.x0 + i) (w.y0 + j)

/-- The die of a crew's core (x0, y0). -/
def State.crewDie (s : State) (w : Crew) : Nat := s.dieKey (pack w.x0 w.y0)

/-- The GID of a crew. -/
def State.crewGid (s : State) (w : Crew) : Nat := ((s.jobOf w.job).map (·.gid)).getD 0

/-- The size of a crew's image area (R402). -/
def Crew.imageSize (w : Crew) : Nat := 2 ^ 21 * (1 + (w.x1 - w.x0 + 1) * (w.y1 - w.y0 + 1))

/-- The ranges of a context's pool that live cellars and image areas hold (R437). -/
def State.poolUsed (s : State) (gid : Nat) : List (Nat × Nat) :=
  (s.sys.crews.filter fun w => s.crewGid w == gid).flatMap fun w =>
    w.cellars ++ match w.image with
      | some a => [(a, w.imageSize)]
      | none => []

/-- The base and the size of a context's pool (R373). -/
def Ctx.pool (c : Ctx) : Nat × Nat := (bits (c.dw 5) 47 0, 2 ^ bits (c.dw 5) 53 48)

/-- A core as it is left when it belongs to no crew: its banks awake (R347), its fence, its profile table and its scratchpad bytes (R24, log entry 3) kept. -/
def Core.emptied (c : Core) : Core := { Core.fresh c.x c.y with fenced := c.fenced, senderEn := c.senderEn, sender := c.sender, scratch := c.scratch }

/-! ## Results (R317) -/

/-- One posting at DONE in the queue owner's context: an addition on an INT location of a SYNC cell as RED makes it, or a record written as a
copy. Answers whether it is over: it waits while the page is not available (R76, R317). -/
def State.postAt (s : State) (dk gid done_ add : Nat) (record : List Byte) : State × Bool :=
  if done_ = 0 then (s, true)
  else match s.translate gid done_ (engineWalker dk) with
    | (s, .hit e) =>
      if e.type = 5 then
        let s := s.mapSync e done_
        if s.pathHeld dk (e.hdie s) then (s, false) else
        let key := memKey 0 (e.home s) (e.pa done_ / 128 * 128)
        let off := e.pa done_ % 128 / 8 * 8
        (if e.w && s.cellType key = 0 && 16 ≤ off then s.setPhysN (key + off) 8 ((s.physN (key + off) 8 + add) % 2 ^ 64) else s, true)
      else if record.isEmpty then (s, true)
      else match writeRange gid (engineWalker dk) 2 s done_ record with
        | (s, .wait _) => (s, false)
        | (s, _) => (s, true)
    | (s, .fail _) => (s, true)
    | (s, _) => (s, false)

/-- The 32-byte record of a job's end (R317). -/
def Job.bytes (j : Job) (status sub time : Nat) : List Byte :=
  bytesOfWord 1 status ++ bytesOfWord 1 sub ++ bytesOfWord 2 j.num ++ bytesOfWord 4 j.completed
    ++ bytesOfWord 4 j.queue ++ bytesOfWord 4 j.ticket ++ bytesOfWord 8 (j.started.getD 0) ++ bytesOfWord 8 time

/-- What a job has still to post at DONE (R317): its completed crews, then its end, 2^32 on an INT location for a failure. -/
def State.settleJob (s : State) (id : Nat) : State :=
  match s.jobOf id with
  | none => s
  | some j =>
    let at_ := bits (j.record.getD 4 0).toNat 47 0
    let (s, ok) := if j.owed = 0 then (s, true) else s.postAt j.die j.gid at_ j.owed []
    if !ok then s
    else
      let s := s.modJob id fun j => { j with owed := 0 }
      match j.result with
      | none => s
      | some (status, sub, time) =>
        let (s, ok) := s.postAt j.die j.gid at_ (if status = 0 then 0 else 2 ^ 32) (j.bytes status sub time)
        if ok then s.modJob id fun j => { j with result := none } else s

/-- The job ends (R317): its result is posted, its remaining crews are not placed. -/
def State.endJob (s : State) (id status sub : Nat) : State :=
  match s.jobOf id with
  | none => s
  | some j =>
    if j.ended then s
    else
      let s := s.modJob id fun j => { j with ended := true, result := some (status, sub, s.sys.now) }
      (s.modSys fun y => { y with waiters := y.waiters.filter fun w => w.job != some id }).settleJob id

/-- Ended jobs without crews that have posted their result are forgotten. -/
def State.tidyJobs (s : State) : State :=
  s.modSys fun y => { y with jobs := y.jobs.filter fun j => !j.ended || j.result.isSome || j.owed != 0 || j.dying.isSome || y.crews.any fun w => w.job == j.id }

/-- A record of the launch unit about a crew of a job, which it names by the coordinate of its first core (R399, R401). -/
def State.crewRecord (s : State) (job corner sub party : Nat) : State :=
  let dk := s.dieKey corner
  let gid := ((s.jobOf job).map (·.gid)).getD 0
  s.fault dk { code := 0x14, sub := sub, coord := corner, ctx := s.ctxOn dk gid
               job := ((s.jobOf job).map fun j : Job => j.num).getD 0, party := party } []

/-! ## Kill and fence (R399, R400) -/

/-- The messages a core holds. -/
def Ni.held (n : Ni) : Nat := n.hpq.length + n.lpq.length + n.cellar.length + n.outb.length + num n.startSlot.isSome

/-- What a core has in its cluster's units and in its die's distributor dropped: the lease, queued array commands that no operation of
`keep` owns, range locks, subscriptions (R399). -/
def State.dropUnitsOf (s : State) (keep : List Nat) : State :=
  let here := s.here
  let idx := coreInCluster here
  let s := s.modCluster s.cl fun c => { c with
    lease := (List.range 16).foldl (fun l k => l.release (idx * 16 + k)) c.lease
    mxq := c.mxq.filter fun m => m.core != here || m.executing
    locks := c.locks.filter fun e => e.issuer % 2 ^ 24 != here || keep.contains e.op }
  { s with dies := s.dies.map fun d => { d with
      passes := d.passes.map fun p => { p with subs := p.subs.map fun b => if b.core = here then { b with live := false } else b }
      held := d.held.filter fun h => h.1.core != here } }

/-- The operations of a strand that have begun moving data (R322, R399). -/
def Strand.moving (t : Strand) : List Op := t.ops.filter fun o => o.started && !o.complete && (o.cls == .c || o.cls == .t)

/-- Whether no transfer of a core moves data, and no step of its own executes in the array: what has begun waits for a page (R322, step 3). -/
def State.quiet (s : State) (c : Core) : Bool :=
  (c.strands.all fun t => t.moving.all fun o => s.sys.now < o.absentAt)
  && !((s.cluster (s.clusterKey c.coord)).mxq.any fun m => m.core == c.coord && m.executing)

/-- The handlers of the focused core that a kill or a fence ends, noted (R411, R416), and the negative it records is spoilt (R327). -/
def State.handlersKilled (s : State) : State :=
  let s := (List.range 16).foldl (fun s k => if (vget s.core.strands k {}).life = .free then s else { s with k := k }.handlerOver 3) s
  (s.spoil 5).endRecording

/-- The focused core's crew killed: strands stop, begun transfers go on with their completions discarded, the rest is dropped (R399). -/
def State.killCore (s : State) : State :=
  let s := s.handlersKilled.dropUnitsOf (s.core.strands.toList.flatMap fun t => t.moving.map (·.id))
  s.modCore fun c =>
    let left := c.strands.map fun t => ({ ops := t.moving.map fun o => { o with record := false, d := none } } : Strand)
    { c with strands := left, ni := {}, ranges := c.ranges.filter fun r => left.any fun t => t.ops.any fun o => o.id == r.op }

/-- Whether a core of a killed crew still moves data. -/
def Core.stopping (c : Core) : Bool := c.strands.any fun t => !t.moving.isEmpty

/-- A killed or completed crew's rectangle released; the cache ways that it gated are woken (R347). -/
def State.releaseCrew (s : State) (w : Crew) : State :=
  let mine := (s.cores.filter fun c => c.crew == some w.id).map Core.coord
  let s : State := { s with clusters := s.clusters.map fun c => { c with ways := c.ways.filter fun x => !mine.contains x.2 } }
  let s := s.cores.foldl (fun s c => if c.crew = some w.id then s.atCore c.coord 0 fun s => s.modCore Core.emptied else s) s
  (s.modSys fun y => { y with crews := y.crews.filter fun v => v.id != w.id }).tidyJobs

/-- The tasks of a job dropped from the task units (R399). -/
def State.dropTasks (s : State) (jk : Nat) : State :=
  let s := (s.unitsOf jk).foldl (fun s cl => s.modTasks cl fun _ => []) s
  s.modSys fun y => { y with versions := y.versions.filter fun v => v.job != jk, readers := y.readers.filter fun v => v.job != jk }

/-- The end of a job that is being killed (R399, step 4), once the last of its crews is released: a record of each crew, with the messages discarded,
then the job's end. -/
def State.endKilled (s : State) (id : Nat) : State :=
  match (s.jobOf id).bind fun j => j.dying.map fun d => (j, d) with
  | none => s
  | some (j, sub, status, sub') =>
    if s.sys.crews.any fun w => w.job == id then s
    else
      let s := j.dead.foldl (fun s d => s.crewRecord id d.1 sub d.2) s
      ((s.modJob id fun j => { j with dying := none, dead := [] }).endJob id status sub').tidyJobs

/-- A killed crew whose transfers have ended is released (R399, step 3); with the last of them the job ends. -/
def State.buryCrew (s : State) (w : Crew) : State :=
  if s.cores.any fun c => c.crew == some w.id && c.stopping then s
  else ((s.modJob w.job fun j => { j with dead := j.dead ++ [(pack w.x0 w.y0, w.discarded)] }).releaseCrew w).endKilled w.job

/-- One crew killed (R399, steps 1 to 3): the messages discarded are counted. -/
def State.killCrew (s : State) (w : Crew) : State :=
  if w.life == .killed then s
  else
    let mine := s.cores.filter fun c => c.crew == some w.id
    let n := ((mine ++ w.parkedCores).map fun c => c.ni.held).foldl (· + ·) w.replies.length
    let s := (s.sys.prints.filter fun p => p.crew == w.id).foldl State.closePrint s
    let s := mine.foldl (fun s c => s.atCore c.coord 0 State.killCore) s
    let s := w.parkedCores.foldl (fun s c => s.onParked w.id c.coord fun s => (s.spoil 5).endRecording) s
    s.modCrew w.id fun v => { v with life := .killed, killed := s.sys.now, discarded := n, parkedCores := [], replies := [] }

/-- A job killed (R399): its crews stop, those that move no data are released, none of its crews is placed any more; with the last release its end
is posted, with WATCHDOG and the sub-status, or as an alarm gives. -/
def State.killJob (s : State) (id sub status sub' : Nat) : State :=
  match s.jobOf id with
  | none => s
  | some j =>
    if j.ended || j.dying.isSome then s
    else
      let s := s.dropTasks (jobKey j.gid j.num)
      let s := (s.modJob id fun j => { j with dying := some (sub, status, sub') }).modSys fun y => { y with waiters := y.waiters.filter fun w => w.job != some id }
      let ws := s.sys.crews.filter fun w => w.job == id
      let s := ws.foldl State.killCrew s
      ((s.sys.crews.filter fun w => w.job == id).foldl State.buryCrew s).endKilled id

/-- A core cut off (R400): its state is discarded, and its record goes to the owner's fault queue. -/
def State.fenceCore (s : State) (c code sub : Nat) : State :=
  s.atCore c 0 fun s =>
    let job := (s.job.map fun j : Job => j.num).getD 0
    let ctx := s.ctxOn s.dk s.gid
    let s := (s.handlersKilled.dropUnitsOf []).modCluster s.cl fun k => { k with mxq := k.mxq.filter fun m => m.core != c }
    let s := s.modCore fun k => { k.emptied with fenced := true, crew := k.crew }
    s.fault s.dk { code := code, sub := sub, coord := c, ctx := ctx, job := job } []

/-! ## Images (R402 to R407) -/

/-- Doublewords laid into a sparse image. -/
def putWords (m : Mem) (off : Nat) (ws : List Nat) : Mem := m.put off (ws.flatMap (bytesOfWord 8))

/-- The bytes of a sparse memory moved by an offset. -/
def moveCells (m : Mem) (off : Nat) : Mem := m.map fun c => (c.1 + off, c.2)

/-- A saved operation (R406). -/
def Op.image (o : Op) : List Nat :=
  let regs := (o.regs ++ o.geoms).map (·.toNat)
  [o.word % 2 ^ 32 + o.cls.no * 2 ^ 32 + (if o.kind = .mxstep then o.op % 4 else 0) * 2 ^ 35 + o.seq % 2 ^ 24 * 2 ^ 40, o.pc, o.a.toNat, o.b.toNat,
   o.fpctl % 2 ^ 10 + o.kind.engine * 2 ^ 12 + o.regs.length % 32 * 2 ^ 16,
   if o.kind = .copy || o.kind = .armed then o.done.getD 3 0 else 0, 0, 0] ++ regs.take 24

/-- The number of a state in a strand record (R405). -/
def Life.code : Life → Nat
  | .free => 0
  | .run | .parked false => 1
  | .wait | .parked true => 2
  | .halted => 3

/-- A strand record (R405), at its offset in a core slot. The race detector's bytes are laid out by the model (log entry 18). -/
def Strand.image (t : Strand) (m : Mem) (off : Nat) : Mem :=
  let c := t.csr
  let words (v : List Word) : List Nat := v.map (·.toNat)
  let ps := maskOf 8 fun i => i != 0 && vget t.p i false
  let pend := maskOf 28 fun i => i != 0 && t.ops.any fun o => o.kind == .gld && o.d == some i
  let inc := t.ops.filter fun o => !o.complete
  let m := putWords m off [t.life.code + num t.ts * 8 + num t.task.isSome * 16 + c.gangSize % 16 * 2 ^ 5 + c.gangPos % 8 * 2 ^ 9, t.pc]
  let m := putWords m (off + 0x10) (words (t.g.toList.drop 1))
  let m := putWords m (off + 0xE8) [ps + pend * 2 ^ 32]
  let m := m.put (off + 0x100) (t.w.toList.flatMap fun w => bytesOfWord 64 w.toNat)
  let m := putWords m (off + 0x500) (words [c.fpctl, c.fpflags, c.taskid, c.jobno, c.ngettime] ++ [c.gangSize + c.gangPos * 2 ^ 4]
    ++ words [c.trapvec, c.trapinfo, c.trappc, c.trapcode])
  let m := putWords m (off + 0x580) (words c.region.toList)
  let m := putWords m (off + 0x600) (words t.shadow.copy.toList)
  let m := putWords m (off + 0x640) (words t.shadow.mx.toList)
  let m := putWords m (off + 0x680) (words t.shadow.idx.toList)
  let m := putWords m (off + 0x6E0) (words t.shadow.qnt.toList)
  let m := putWords m (off + 0x700) (words t.shadow.att.toList)
  let m := putWords (putWords m (off + 0x800) (words t.q1)) (off + 0x8F0) [t.q1.length]
  let m := putWords (putWords m (off + 0x900) (words t.q2)) (off + 0x980) [t.promised]
  let m := putWords m (off + 0x990) [([Cls.l, .s, .c, .t, .m].map fun k => t.unretired k * 2 ^ (8 * k.no)).foldl (· + ·) (inc.length * 2 ^ 48)]
  let m := putWords m (off + 0xA00) ([t.det.rc + num t.det.ovf * 2 ^ 24, (t.det.stamp.map fun x => x.1 + 1).getD 0, (t.det.stamp.map (·.2)).getD 0]
    ++ t.det.acq.flatMap fun a => [a.1, a.2])
  let m := match t.start with
    | some x => putWords m (off + 0xB00) [x.h0.toNat, x.h1.toNat, x.h2.toNat, t.q0, x.kind, num t.replied]
    | none => m
  let m := putWords m (off + 0xB40) (words t.q3)
  inc.zipIdx.foldl (fun m o => putWords m (off + 0x1000 + 256 * o.2) o.1.image) m

/-- A core slot (R403, R404) without its written-line maps. -/
def Core.image (c : Core) (full : Bool) (ctx seq : Nat) (mapped : Bool) : Mem :=
  let words (v : List Word) : List Nat := v.map (·.toNat)
  let m := putWords [] 0 [1 + num full * 2 ^ 8 + c.coord * 2 ^ 16 + ctx * 2 ^ 40, seq, c.porchcfg.toNat,
    c.ni.porchWp + (c.ni.porch.headD { off := c.ni.porchWp, len := 0, key := 0 }).off * 2 ^ 32, 
    (c.ni.cellarWp + c.cellarRoom - c.ni.cellar.length) % max 1 c.cellarRoom + c.ni.cellarWp * 2 ^ 32,
    c.ni.inseq + num c.ni.infrz * 2 ^ 32,
    (match c.leaseRec with | some k => 1 + k * 2 | none => 0) + num c.tape.print.isSome * 2 ^ 8 + c.tape.pos * 2 ^ 32,
    c.gate + maskOf 16 (fun i => c.savedWays.contains i) * 2 ^ 32]
  let m := c.ranges.zipIdx.foldl (fun m r => putWords m (0x40 + 16 * r.2) [r.1.lo + r.1.hi * 2 ^ 32, r.1.strand]) m
  let m := c.ni.reply.zipIdx.foldl (fun m r => putWords m (0x140 + 16 * r.2)
    [r.1.group + r.1.ch * 2 ^ 4 + r.1.server * 2 ^ 8 + r.1.strand * 2 ^ 32, r.1.target]) m
  let m := c.ni.outb.zipIdx.foldl (fun m o => putWords m (0x400 + 256 * o.2) (words (o.1.msg.h0 :: o.1.msg.h1 :: o.1.msg.h2 :: o.1.msg.pay))) m
  let m := putWords m 0xC00 (words (c.tgeom.toList ++ c.ageom.toList) ++ words [c.runq0, c.runq1])
  let m := m ++ moveCells c.tiles 0x4000
  let m := if mapped then m else m ++ moveCells c.istore 0x10000
  let m := m ++ moveCells c.scratch 0x18000
  c.strands.toList.zipIdx.foldl (fun m t => t.1.image m (0x58000 + 0x18000 * t.2)) m

/-- The bytes of a page of an image written in the crew's context. -/
def State.writeSlot (s : State) (gid dk at_ : Nat) (img : Mem) : State :=
  (List.range 32).foldl (fun s i => (s.writePage gid (at_ + 65536 * i) (img.get (65536 * i) 65536) (engineWalker dk)).1) s

/-- The written-line maps of an incremental image (R403, R407): the lines and records whose dirty bit is set, and a strand record too that differs
from what the area holds (log entry 19). -/
def lineMaps (dirty : List Nat) (img old : Mem) : Mem :=
  let record (i : Nat) : Bool := dirty.contains (1216 + i) || img.get (0x58000 + 0x18000 * i) 0x18000 != old.get (0x58000 + 0x18000 * i) 0x18000
  let m := img.put 0x2000 (bytesOfWord 128 (maskOf 1024 fun i => dirty.contains i))
  let m := m.put 0x2080 (bytesOfWord 24 (maskOf 192 fun i => dirty.contains (1024 + i)))
  m.put 0x20A0 (bytesOfWord 2 (maskOf 16 record))

/-- The crew header written (R402), with how that ends. -/
def State.putHeader (s : State) (w : Crew) (valid : Bool) : State × Res :=
  match w.image, s.jobOf w.job with
  | some a, some j =>
    let dk := s.crewDie w
    let h := putWords [] 0 [1 + num valid * 2 ^ 8 + num w.hold * 2 ^ 9 + j.num * 2 ^ 16 + s.ctxOn dk j.gid * 2 ^ 32 + w.idx * 2 ^ 40,
      rectWord w.x0 w.y0 w.x1 w.y1, w.seq, w.tpark, j.queue + j.ticket * 2 ^ 32]
    s.writePage j.gid a (h.get 0 64) (engineWalker dk)
  | _, _ => (s, .ok [])
def State.writeHeader (s : State) (w : Crew) (valid : Bool) : State := (s.putHeader w valid).1

/-- The address of a core's slot in its crew's image area (R402). -/
def Crew.slotAt (w : Crew) (c : Core) : Option Nat :=
  w.image.map fun a => a + 2 ^ 21 * (1 + (c.y - w.y0) * (w.x1 - w.x0 + 1) + (c.x - w.x0))

/-- A core's slot as memory holds it. -/
def State.readSlot (s : State) (w : Crew) (c : Core) : State × Res :=
  match w.slotAt c with
  | some a => readRange (s.crewGid w) (engineWalker (s.crewDie w)) 33 s a (2 ^ 21)
  | none => (s, .fail (copyErr 1 0))

/-- The focused core's slot written (R403, R407). -/
def State.writeImage (s : State) (w : Crew) (c : Core) : State :=
  match w.slotAt c with
  | none => s
  | some at_ =>
    let gid := s.crewGid w
    let dk := s.crewDie w
    let one := dieOf (pack w.x0 w.y0) = dieOf (pack w.x1 w.y1) && s.moduleOf (pack w.x0 w.y0) = s.moduleOf (pack w.x1 w.y1)
    let inc := one && w.valid
    let img := c.image (!inc) (s.ctxOn dk gid) w.seq w.mapped
    if inc then
      match s.readSlot w c with
      | (s, .ok bs) => s.writeSlot gid dk at_ (lineMaps c.dirty img (cellsOf 0 bs))
      | (s, _) => s.writeSlot gid dk at_ img
    else s.writeSlot gid dk at_ img

/-- The slot of a core changed since its image was written, by an owner's command or the end of a task, made to show the change (R408); its form and its
written-line maps stay. -/
def State.rewriteSlot (s : State) (id c : Nat) : State :=
  match s.crewOf id with
  | none => s
  | some w => match findKey Core.coord w.parkedCores c, w.slotAt (Core.fresh (unpackX c) (unpackY c)) with
    | some k, some at_ =>
      let done (s : State) : State := s.modCrew id fun w => { w with touched := w.touched.filter (· != c) }
      match s.readSlot w k with
      | (s, .wait _) => s
      | (s, .fail _) => done s
      | (s, .ok bs) =>
        let gid := s.crewGid w
        let img := k.image (bit (wordOfBytes (bs.take 8)) 8) (s.ctxOn (s.crewDie w) gid) w.seq w.mapped
        done (s.writeSlot gid (s.crewDie w) at_ (img.put 0x2000 ((bs.drop 0x2000).take 0x2000)))
    | _, _ => s.modCrew id fun w => { w with touched := w.touched.filter (· != c) }

/-- The header of a parked crew's image written again (R402, R409), once its page is there. -/
def State.rewriteHeader (s : State) (id : Nat) : State :=
  match s.crewOf id with
  | none => s
  | some w => match s.putHeader w (w.life == .parked && w.valid) with
    | (s, .wait _) => s
    | (s, _) => s.modCrew id fun w => { w with touched := w.touched.filter (· != 2 ^ 24) }

def State.rewriteSlots (s : State) : State :=
  s.sys.crews.foldl (fun s w => w.touched.foldl (fun s c => if c = 2 ^ 24 then s.rewriteHeader w.id else s.rewriteSlot w.id c) s) s

/-! ## Pre-emption (R322, R401) -/

/-- A message of the launch unit or the firmware to a core of a crew: kind 7 on channel 0 (R12, R23). -/
def systemMessage (mark : Mark) (sub dst job gid now : Nat) : Msg :=
  { h0 := header0 7 0 0 2 false false 0, h1 := header1 dst dst job, h2 := word (now % 2 ^ 32), pay := padTo 5 [], gid := gid, mark := mark, sub := sub }

/-- A crew asked to park by kind-7 messages of a kind (R401, R409): its image area is allocated when it first parks; without room a record says so and it
goes on running. Answers whether it was accepted. -/
def State.requestPark (s : State) (sub id : Nat) : State × Bool :=
  match s.crewOf id with
  | none => (s, false)
  | some w =>
    if w.life != .running then (s, true)
    else
      let gid := s.crewGid w
      let pool := ((s.ctxByGid gid).map Ctx.pool).getD (0, 0)
      let at_ := w.image.or (placeIn pool.1 pool.2 (2 ^ 21) w.imageSize (s.poolUsed gid))
      match at_ with
      | none => (s.crewRecord w.job (pack w.x0 w.y0) 4 0, false)
      | some a =>
        let job := ((s.jobOf w.job).map fun j : Job => j.num).getD 0
        let s := s.modCrew id fun w => { w with image := some a, life := .preempting, asked := some s.sys.now, seq := w.seq + 1 }
        (w.coords.foldl (fun s c => s.launchMsg (systemMessage .launch sub c job gid s.sys.now)) s, true)

/-- A pre-emption requested of a running crew (R401). -/
def State.requestPreempt (s : State) (id : Nat) : State × Bool := s.requestPark 1 id

/-- What a strand of a parked core waits for is noted no more: it executes its instruction again (R322). A request that has left, a claim
and a print's stream stay. -/
def Strand.toImage (t : Strand) : Strand :=
  let w := match t.waiting with
    | .answer e none r => if r = 0 then .answer e none 0 else .none
    | .answer e (some p) r => .answer e (some p) r
    | .claim n a => .claim n a
    | .print => .print
    | _ => .none
  { t with waiting := w, age := 0, life := t.life.park }

/-- The focused core parked (R322): its speculative tasks other than the earliest are aborted, the LP queue's messages go back to the cellar and the
handler replies of the HP queue to the reply reserve, what its cluster holds for it is saved, the image is written, and the core is free. DESIGN
CHOICE (log entry 26): the cellar takes the LP queue's messages also where they exceed the slots outside its reserve. -/
def State.parkCore (s : State) (w : Crew) : State :=
  let here := s.here
  let jk := (s.coreJob s.core).getD 0
  let ids := s.core.strands.toList.filterMap fun t => t.task.bind fun r => if s.isEarliest jk (r.ts, r.id) then none else some r.id
  let s := if ids.isEmpty then s else s.abortTasks jk ids
  let cl := s.cluster s.cl
  let idx := coreInCluster here
  let gid := s.crewGid w
  let lpq := s.core.ni.lpq
  let hpq := s.core.ni.hpq
  let rec_ := (List.range 16).find? fun k => cl.lease.holds (idx * 16 + k) ((vget s.core.strands k {}).waiting == .lease)
  let mine := cl.mxq.filter fun m => m.core == here && !m.executing
  let locks := cl.locks.filter fun e => e.issuer % 2 ^ 24 == here
  let s := s.modCore fun c =>
    let c := (c.ni.lpq ++ c.ni.hpq).foldl (fun c m => c.porchFree m.key) c
    { c with strands := c.strands.map Strand.toImage, parking := false, savedMx := mine, savedLocks := locks, leaseRec := rec_
             savedWays := (cl.ways.filter fun x => x.2 == here).map (·.1)
             ni := { c.ni with lpq := [], hpq := [], claiming := none, cellar := (lpq.map fun m => { m with celled := true }) ++ c.ni.cellar } }
  let saved := s.core
  let s := (List.range lpq.length).foldl (fun s i => s.fillSlot gid (saved.slotVa ((saved.ni.cellarWp + i + (saved.ni.cellar.length + 1) * saved.cellarRoom
    - saved.ni.cellar.length) % saved.cellarRoom))) s
  let s := hpq.foldl (fun s m => s.reserve w.id saved { m with h1 := header1 here m.src m.job, sub := 4 }) s
  let s := s.modCluster s.cl fun c => { c with
    lease := (List.range 16).foldl (fun l k => l.release (idx * 16 + k)) c.lease
    mxq := c.mxq.filter fun m => m.core != here, ways := c.ways.filter fun x => x.2 != here, locks := c.locks.filter fun e => e.issuer % 2 ^ 24 != here }
  let s := if w.parkedCores.isEmpty then s.writeHeader w false else s
  let s := s.writeImage w saved
  let s := (s.modCore Core.emptied).modCrew w.id fun w => { w with parkedCores := w.parkedCores ++ [saved] }
  match s.crewOf w.id with
  | some v =>
    if v.parkedCores.length = v.coords.length then
      let v := { v with life := .parked, tpark := s.sys.now, valid := true, asked := none }
      (s.modCrew w.id fun _ => v).writeHeader v true
    else s
  | none => s

/-- The focused core stops at its next instruction boundary, as its crew is to park (R322, step 2). -/
def State.stopToPark (s : State) (p : Place) : State :=
  match p with
  | .running => s.modCore fun c => { c with parking := (s.crew.map (·.life)) == some .preempting }
  | _ => s

/-- The focused core parked once it has been told to, no command of R398 is under way (R408), its begun transfers have run to completion (R322, step 3)
and the pages of its slot and of the crew header are there. -/
def State.parkIfQuiet (s : State) : State :=
  match s.crew with
  | some w =>
    if !s.core.parking || w.life != .preempting || s.core.draining || !s.quiet s.core then s
    else match s.readSlot w s.core with
      | (s, .wait _) => s
      | _ => match s.readPage (s.crewGid w) (w.image.getD 0) 64 (engineWalker (s.crewDie w)) with
        | (s, .wait _) => s
        | _ => s.parkCore w
  | none => s

/-- PREEMPT_MESSAGE (R322). -/
def execPreemptMessage (m : Nat) : State → Host.Outcome State Fault Refusal :=
  arrival m (fun m => m.kind = 7 && m.sub = 1) fun _ p s => some (s.stopToPark p)

/-- FAULT_MESSAGE (R409): a module has failed; the core parks with HOLD set, where its crew's image area has room. -/
def execFaultMessage (m : Nat) : State → Host.Outcome State Fault Refusal :=
  arrival m (fun m => m.kind = 7 && m.sub = 3) fun _ p s => some (s.stopToPark p)

/-! ## Resumption (R324, R408) -/

/-- Doubleword, wide register and register file of an image. -/
def imageDw (m : Mem) (off : Nat) : Nat := wordOfBytes (m.get off 8)
def imageWord (m : Mem) (off : Nat) : Word := word (imageDw m off)
def imageFile (n : Nat) (m : Mem) (off : Nat) : Vector Word n := Vector.ofFn fun i => imageWord m (off + 8 * i.val)

/-- A saved operation with what its image holds of it (R406). -/
def Op.ofImage (o : Op) (m : Mem) (off : Nat) : Op :=
  let w (i : Nat) : Word := imageWord m (off + 8 * i)
  { o with word := (w 0).toNat % 2 ^ 32, pc := (w 1).toNat, a := w 2, b := w 3, fpctl := (w 4).toNat % 2 ^ 10
           regs := (List.range o.regs.length).map fun i => w (8 + i)
           geoms := (List.range o.geoms.length).map fun i => w (8 + o.regs.length + i) }

/-- A strand with what its image holds of it (R405); what the record has no place for is as the core left it (log entry 18). -/
def Strand.ofImage (t : Strand) (m : Mem) (off : Nat) : Strand :=
  let d (o : Nat) : Nat := imageDw m (off + o)
  let w (o : Nat) : Word := imageWord m (off + o)
  let list (n o : Nat) : List Word := (List.range n).map fun i => w (o + 8 * i)
  let life := match d 0 % 8 with
    | 0 => Life.free
    | 1 => .run
    | 2 => .wait
    | _ => .halted
  let c := { t.csr with
    fpctl := w 0x500, fpflags := w 0x508, taskid := w 0x510, jobno := w 0x518, ngettime := w 0x520, trapvec := w 0x530, trapinfo := w 0x538
    trappc := w 0x540, trapcode := w 0x548, gangSize := bits (d 0) 8 5, gangPos := bits (d 0) 11 9, region := imageFile 16 m (off + 0x580) }
  let sh := { t.shadow with
    copy := imageFile 8 m (off + 0x600), mx := imageFile 1 m (off + 0x640), idx := imageFile 12 m (off + 0x680)
    qnt := imageFile 2 m (off + 0x6E0), att := imageFile 8 m (off + 0x700) }
  let saved := (t.ops.filter fun o => !o.complete).map (·.id)
  { t with
    life := life, ts := bit (d 0) 3, pc := d 8, csr := c, shadow := sh
    g := Vector.ofFn fun i => if i.val = 0 then 0 else w (0x08 + 8 * i.val)
    p := Vector.ofFn fun i => i.val != 0 && bit (d 0xE8) i.val
    w := Vector.ofFn fun i => BitVec.ofNat 512 (wordOfBytes (m.get (off + 0x100 + 64 * i.val) 64))
    q1 := list (min 30 (d 0x8F0)) 0x800, q2 := list t.q2.length 0x900, q3 := list t.q3.length 0xB40
    start := t.start.map fun x => { x with h0 := w 0xB00, h1 := w 0xB08, h2 := w 0xB10 }
    q0 := if t.start.isSome then d 0xB18 else t.q0, replied := bit (d 0xB28) 0
    ops := t.ops.map fun o => if o.complete then o else o.ofImage m (off + 0x1000 + 256 * saved.idxOf o.id) }

/-- A core with what its image holds of it (R403, R404); its reply table, outbound buffer and scoreboard are the device's own. -/
def Core.ofImage (c : Core) (mapped : Bool) (m : Mem) : Core :=
  let part (off n : Nat) : Mem := (m.filter fun x => off ≤ x.1 && x.1 < off + n).map fun x => (x.1 - off, x.2)
  { c with
    porchcfg := imageWord m 0x10, tgeom := imageFile 8 m 0xC00, ageom := imageFile 4 m 0xC40
    runq0 := imageWord m 0xC60, runq1 := imageWord m 0xC68, gate := imageDw m 0x38 % 2 ^ 32
    tiles := part 0x4000 0xC000, istore := if mapped then c.istore else part 0x10000 0x8000, scratch := part 0x18000 0x40000
    strands := Vector.ofFn fun k => (vget c.strands k.val {}).ofImage m (0x58000 + 0x18000 * k.val) }

/-- The saved cores of a crew with what their image holds, read back in the crew's context; none while a page of it is not available. A slot
that cannot be read leaves its core as it was saved (log entry 18). -/
def imagesBack (w : Crew) : List Core → State → State × Option (List Core)
  | [], s => (s, some [])
  | c :: cs, s =>
    match s.readSlot w c with
    | (s, .wait _) => (s, none)
    | (s, r) =>
      let c := match r with
        | .ok bs => c.ofImage w.mapped (cellsOf 0 bs)
        | _ => { c with strands := c.strands.map fun t => { t with life := t.life.unpark } }
      let (s, rest) := imagesBack w cs s
      (s, rest.map fun l => c :: l)

/-- As many of the focused core's saved range locks made again as the cluster's table has room for (R235). -/
def State.relock (s : State) : State :=
  let n := 64 - (s.cluster s.cl).locks.length
  let more := s.core.savedLocks.take n
  if more.isEmpty then s
  else (s.modCluster s.cl fun k => { k with locks := k.locks ++ more }).modCore fun c => { c with savedLocks := c.savedLocks.drop n }

/-- A parked core put back on its place: its strands go on, its array commands, locks and lease request are made again, its profile table is
zeroed (R413). -/
def State.restoreCore (s : State) (c : Core) : State :=
  s.atCore c.coord 0 fun s =>
    let idx := coreInCluster s.here
    let old := s.core
    let s := s.modCluster s.cl fun k => { k with
      mxq := k.mxq ++ c.savedMx, ways := k.ways ++ c.savedWays.map fun x => (x, s.here)
      lease := match c.leaseRec with
        | some n => { k.lease with want := k.lease.want ++ [idx * 16 + n] }
        | none => k.lease }
    State.relock { s with core := { c with
        savedMx := [], leaseRec := none, savedWays := [], dirty := [], sender := [], senderEn := old.senderEn, dtlb := [], itlb := [], icache := [] } }

/-- A message of the reply reserve taken at the focused, resumed core (R324): a handler reply that waited in the HP queue when its core was parked
(R322) has had its entry, and goes back there. -/
def State.takeReserved (s : State) (m : Msg) : State :=
  if m.sub = 4 then ((s.porchTake m m.key 0).getD s).modNi fun n => { n with hpq := n.hpq ++ [{ m with sub := 0 }] } else s.applyReply m

/-- A parked crew resumed (R324): the cores, then the replies of the reserve, then what the NI serves of the messages that came meanwhile
(R13), before any dispatch. It waits while a page of its image is not available. -/
def State.resumeCrew (s : State) (w : Crew) : State :=
  if !w.touched.isEmpty then s
  else match imagesBack w w.parkedCores s with
  | (s, none) => s
  | (s, some cores) =>
  let s := cores.foldl State.restoreCore s
  let s := s.modCrew w.id fun v => { v with life := .running, since := s.sys.now, asked := none, parkedCores := [], replies := [] }
  let s := w.replies.foldl (fun s m => s.atCore m.dst 0 fun s => s.takeReserved m) s
  w.coords.foldl (fun s c => s.atCore c 0 State.serveCellar) s

/-! ## The owner's commands (R397, R398) -/

/-- Strand k drained (R398): its failures discarded, q1 and q2 cleared, its lease released. -/
def State.drained (s : State) (k : Nat) : State :=
  let s := { s with k := k }
  (s.dropLease).modSt fun t => { t with ops := t.ops.filter fun o => !o.complete, q1 := [], q2 := [], draining := 0 }

/-- RESTART (1) or DISCARD (2) of strand k of the focused core carried out once it is drained (R398); the message's number stays. -/
def State.endDrain (s : State) (k : Nat) : State :=
  let how := (vget s.core.strands k {}).draining % 4
  let s := s.drained k
  if how = 1 then
    match s.st.start with
    | some m =>
      let d := s.st.dispatched
      (((s.setUp k m).startHandler m).modSt fun t => { t with dispatched := d }).checkTarget m
    | none => s
  else s.freeStrand 3

/-- A drain that has waited carried out, its STATUS set, and its GST told, if a GST gave the command (R397). -/
def State.drainOver (s : State) (k : Nat) : State :=
  let d := (vget s.core.strands k {}).draining
  (s.endDrain k).modCore fun c => { c with ctlStatus := 0, applied := if bit d 2 then c.applied ++ [(k, d / 8)] else c.applied }

/-- A command of R398 at the focused core, running or swapped in from an image, by a context. It answers whether it has been applied: a drain may wait,
and every later command with it. A drain that has ended since is what the GST that waits for it (`gst`) is told of. -/
def State.coreCommand (s : State) (w : Crew) (op k skip gid : Nat) (gst : Bool) : State × Option Nat :=
  let t := vget s.core.strands k {}
  let here := s.here
  let wait := t.ops.any fun o => !o.complete
  let drain (how : Nat) : State × Option Nat :=
    let s := { s with k := k }.modSt fun t => { t with draining := how + num gst * 4 + gid * 8 }
    if wait then (s, none) else (s.endDrain k, some 0)
  if gst && (op = 4 || op = 5) && s.core.applied.contains (k, gid) then
    (s.modCore fun c => { c with applied := c.applied.filter (· != (k, gid)) }, some 0)
  else if s.core.draining then (s, none)
  else match op with
  | 1 => (s.modNi fun n => { n with infrz := false }, some 0)
  | 2 => (s.modNi fun n => { n with infrz := true }, some 0)
  | 3 => if t.life = .halted then
           (({ s with k := k }.leaveTrap (skip = 1)).modSt fun t => { t with life := .run, waiting := .none }, some 0) else (s, some 1)
  | 4 => if t.life = .halted then drain 1 else (s, some 1)
  | 5 => if t.life = .halted then drain 2 else (s, some 1)
  | 6 => let r := s.requestPreempt w.id
         (r.1.focus here 0, some (if r.2 then 0 else 2))
  | 7 => ((s.killJob w.job 1 0x14 1).focus here 0, some 0)
  | _ => (s, some 1)

/-- The crew that a command at a core is for (R397, R408): the core's crew, or the one parked from there, whose job shall be the one named. -/
def State.crewFor (s : State) (job : Nat) : Option (Crew × Bool) :=
  let here : Option (Crew × Bool) := match s.crew with
    | some w => some (w, false)
    | none => (s.sys.crews.find? fun w : Crew => w.parkedCores.any fun c => c.coord == s.here).map fun w => (w, true)
  here.filter fun w => (s.jobOf w.1.job).any fun j : Job => j.num == job

/-- A command given at a core by a context (R397): the state, and whether it has been applied. STATUS is 0 done, 1 ignored, 2 refused. -/
def State.command (s : State) (c op k skip job gid : Nat) (cadm gst : Bool) : State × Bool :=
  let set (s : State) (st : Nat) : State := s.atCore c 0 fun s => s.modCore fun x => { x with ctlStatus := st }
  match (s.focus c 0).crewFor job with
  | none => (set s 1, true)
  | some (w, parked) =>
    let owner := s.crewGid w == gid
    if !owner && !((op = 6 || op = 7) && cadm) then (set s 2, true)
    else if parked && op != 6 && op != 7 then
      let core := (findKey Core.coord w.parkedCores c).getD (Core.fresh 0 0)
      let st := ({ s.focus c 0 with core := core }.coreCommand w op k skip gid gst).2
      let s' := s.onParked w.id c fun s => (s.coreCommand w op k skip gid gst).1
      match st with
      | some n => (set s' n, true)
      | none => (s', false)
    else
      let r := (s.focus c 0).coreCommand w op k skip gid gst
      let s' := r.1.focus s.here s.k
      match r.2 with
      | some n => (set s' n, true)
      | none => (s', false)

/-- A core command by a context number of the core's die, naming the job of the core's crew. -/
def commandEvent (c op k skip ctx : Nat) (s : State) : Host.Outcome State Fault Refusal :=
  if !s.inMesh c || 16 ≤ k || 256 ≤ ctx then .next s
  else
    let t := s.focus c 0
    let parked := t.sys.crews.find? fun w => w.parkedCores.any fun x => x.coord == c
    let job := (((t.crew.or parked).bind fun w => t.jobOf w.job).map fun j : Job => j.num).getD 0
    let x := (s.die (s.dieKey c)).ctx ctx
    .next (s.command c op k skip job (if ctx = 0 then 0 else x.gidOf) (x.right 11) false).1

/-- THAW (R398). -/
def execThaw (c ctx : Nat) : State → Host.Outcome State Fault Refusal := commandEvent c 1 0 0 ctx
/-- FREEZE (R398). -/
def execFreeze (c ctx : Nat) : State → Host.Outcome State Fault Refusal := commandEvent c 2 0 0 ctx
/-- RESUME (R398). -/
def execResume (c k skip ctx : Nat) : State → Host.Outcome State Fault Refusal := commandEvent c 3 k skip ctx
/-- RESTART (R398). -/
def execRestart (c k ctx : Nat) : State → Host.Outcome State Fault Refusal := commandEvent c 4 k 0 ctx
/-- DISCARD (R398). -/
def execDiscard (c k ctx : Nat) : State → Host.Outcome State Fault Refusal := commandEvent c 5 k 0 ctx
/-- CORE_PREEMPT (R398). -/
def execCorePreempt (c ctx : Nat) : State → Host.Outcome State Fault Refusal := commandEvent c 6 0 0 ctx
/-- KILL (R398). -/
def execKill (c ctx : Nat) : State → Host.Outcome State Fault Refusal := commandEvent c 7 0 0 ctx

end Sys2Proof.Machine
end

