-- ==== Sys2Proof/Machine/Launch.lean ====
section
/-! DEFINITION. The launch unit: taking and checking records (R310, R312, R313), placement (R314 to R316), completion (R19, R317), resumption
(R324), and the watchdog (R320, R321). -/

namespace Sys2Proof.Machine

/-! ## Launch records (R310, R312) -/

/-- A doubleword of a launch record. -/
def rec_ (r : List Word) (i : Nat) : Nat := (r.getD i 0).toNat

/-- Its width, height, number of crews, tape number and job number. -/
def recW (r : List Word) : Nat := bits (rec_ r 0) 11 0
def recH (r : List Word) : Nat := bits (rec_ r 0) 23 12
def recCrews (r : List Word) : Nat := max 1 (bits (rec_ r 3) 63 56)
def recTape (r : List Word) : Nat := bits (rec_ r 2) 63 48
def recJob (r : List Word) : Nat := bits (rec_ r 1) 63 48

/-- PORCHCFG of a record (R214, R310). -/
def recPorch (r : List Word) : Nat :=
  let d := rec_ r 0
  if bits d 42 34 = 0 then 992 + 32 * 1024 else bits d 52 43 + bits d 42 34 * 1024

/-- The bytes of a cellar by its code (R308). -/
def cellarBytes (code : Nat) : Nat := if code = 0 then 65536 else 2 ^ (13 + code)

/-- Whether a record's fields are legal (R312, first row). -/
def State.recordOk (s : State) (r : List Word) : Bool :=
  let d := rec_ r 0
  let psize := bits d 42 34
  let mapped := bit d 25
  !(bit d 63 || bits (rec_ r 4) 63 48 != 0 || bits (rec_ r 5) 63 48 != 0
    || recW r = 0 || 4080 < recW r || 48 * s.sys.mx < recW r || recH r = 0 || 4080 < recH r || 48 * s.sys.my < recH r
    || 2 ^ 18 < bits (recPorch r) 9 0 * 256 + bits (recPorch r) 20 10 * 256 || (1 ≤ psize && psize ≤ 7) || 256 < psize
    || 128 < bits (rec_ r 3) 55 48 || (mapped && (bits (rec_ r 3) 47 0 != 0 || bits (rec_ r 3) 55 48 != 0))
    || 6 ≤ bits d 62 53 % 8 || bits (rec_ r 1) 47 0 % 4 != 0)

/-- What a record's images give: the code, the routing entries, the patch doublewords; a failing status, or a wait for a page. -/
inductive Images where
  | ok (code : List Byte) (routing : List Byte) (patch : List Word)
  | bad (t : Trap)
  | wait

/-- The images of a record read in the owner's context (R312). -/
def State.readImages (s : State) (gid cl : Nat) (r : List Word) : State × Images :=
  let get (s : State) (va n : Nat) : State × Res := readRange gid cl 3 s va n
  match get s (bits (rec_ r 3) 47 0) (256 * bits (rec_ r 3) 55 48) with
  | (s, .fail t) => (s, .bad t)
  | (s, .wait _) => (s, .wait)
  | (s, .ok code) =>
    let routes := bits (rec_ r 2) 47 0
    match get s routes 8 with
    | (s, .fail t) => (s, .bad t)
    | (s, .wait _) => (s, .wait)
    | (s, .ok h) =>
      match get s routes (8 + 16 * (wordOfBytes h % 1024)) with
      | (s, .fail t) => (s, .bad t)
      | (s, .wait _) => (s, .wait)
      | (s, .ok routing) =>
        match get s (bits (rec_ r 5) 47 0) (if recTape r != 0 && !bit (rec_ r 0) 26 then 512 else 0) with
        | (s, .fail t) => (s, .bad t)
        | (s, .wait _) => (s, .wait)
        | (s, .ok p) => (s, .ok code routing (toWords (p.length / 8) (wordOfBytes p)))

/-! ## Which record next (R313, R316) -/

/-- The priority of a queue of a die. -/
def State.prioOf (s : State) (dk q : Nat) : Nat := ((s.die dk).queue q).prio

/-- Whether a waiting record is no more to be taken (R262, R384): its queue is destroyed or frozen, its ticket is claimed by another, or its
context is halted. A record of which a crew is placed is its job's. -/
def State.stale (s : State) (w : Waiter) : Bool :=
  let q := (s.die w.die).queue w.queue
  w.job.isNone && (!q.valid || q.frozen || q.head == q.pub || q.head != w.ticket || ((s.die w.die).ctx q.owner).halted)

/-- Whether a waiting record keeps the launch unit of a module from placing anything of a priority (R316). -/
def State.blocked (s : State) (module prio : Nat) (but : Option Nat) : Bool :=
  s.sys.waiters.zipIdx.any fun w => w.1.die / 4 == module && !w.1.aged && some w.2 != but && !s.stale w.1 && prio ≤ s.prioOf w.1.die w.1.queue

/-- Whether a rectangle holds a core of a crew or a fenced core, or lies on the target of another aged record (R314, R316). -/
def State.rectFree (s : State) (x0 y0 x1 y1 : Nat) (but : Option Nat) : Bool :=
  let meets (a0 b0 a1 b1 : Nat) : Bool := a0 ≤ x1 && x0 ≤ a1 && b0 ≤ y1 && y0 ≤ b1
  !(s.sys.crews.any fun w => w.life != .parked && meets w.x0 w.y0 w.x1 w.y1)
  && !(s.cores.any fun c => c.fenced && x0 ≤ c.x && c.x ≤ x1 && y0 ≤ c.y && c.y ≤ y1)
  && !(s.sys.waiters.zipIdx.any fun w => some w.2 != but && !s.stale w.1 && (match w.1.target with
      | some t => meets t.1 t.2 (t.1 + w.1.w - 1) (t.2 + w.1.h - 1)
      | none => false))

/-- Whether a parked crew may resume on its rectangle (R324, R409). -/
def State.mayResume (s : State) (w : Crew) : Bool :=
  w.life == .parked && !w.hold && w.valid && s.rectFree w.x0 w.y0 w.x1 w.y1 none

/-- The places of a rectangle in a context's REGION, by y0 and then x0 (R314). -/
def State.places (s : State) (c : Ctx) (w h : Nat) : List (Nat × Nat) :=
  let r := c.dw 4
  let x1 := min (bits r 35 24) (48 * s.sys.mx - 1)
  let y1 := min (bits r 47 36) (48 * s.sys.my - 1)
  (List.range (y1 + 2 - h - bits r 23 12)).flatMap fun j => (List.range (x1 + 2 - w - bits r 11 0)).map fun i =>
    (bits r 11 0 + i, bits r 23 12 + j)

/-- The free rectangle with the lowest y0, then the lowest x0 (R314). -/
def State.freePlace (s : State) (c : Ctx) (w h : Nat) (but : Option Nat) : Option (Nat × Nat) :=
  (s.places c w h).find? fun p => s.rectFree p.1 p.2 (p.1 + w - 1) (p.2 + h - 1) but

/-- The launch queues of a module that have a record to take (R313): die key, queue. -/
def State.launchQueues (s : State) (module : Nat) : List (Nat × Nat) :=
  (s.dies.filter fun d => d.key / 4 == module).flatMap fun d => (d.queues.filter fun q =>
    q.valid && q.launch && !q.frozen && q.head != q.pub && !(d.ctx q.owner).halted && !(s.sys.waiters.any fun w => w.die == d.key && w.queue == q.idx)).map
      fun q => (d.key, q.idx)

/-- Whether a parked crew of a module may resume that goes before the records of a priority (R313). -/
def State.resumes (s : State) (module prio : Nat) : Bool :=
  s.sys.crews.any fun w => s.mayResume w && s.crewDie w / 4 == module
    && (match s.jobOf w.job with
      | some j => prio ≤ s.prioOf j.die (handleIdx j.queue)
      | none => false)

/-- The record the launch unit of a module takes next (R313): the highest priority, then the queues in turn. -/
def State.nextRecord (s : State) (module : Nat) : Option (Nat × Nat) :=
  let qs := (s.launchQueues module).mergeSort fun a b => a.1 * 2 ^ 14 + a.2 ≤ b.1 * 2 ^ 14 + b.2
  let top := (qs.map fun q => s.prioOf q.1 q.2).foldl max 0
  if s.blocked module top none || s.resumes module top then none
  else
    let l := qs.filter fun q => s.prioOf q.1 q.2 = top
    let last := ((s.mod module).turn.find? fun t => t.1 == top).map (·.2)
    match last with
    | some n => (l.find? fun q => n < q.1 * 2 ^ 14 + q.2).or l.head?
    | none => l.head?

/-- The record at the head of a queue. -/
def State.headRecord (s : State) (dk i : Nat) : State × Res :=
  let q := (s.die dk).queue i
  s.readPage (s.ownerGid dk q.owner) (q.slot q.head) 64 (engineWalker dk)

/-- The handle of a queue for its owner (R258). -/
def State.handleOf (s : State) (dk i : Nat) : Nat := i + dk % 4 * 2 ^ 14 + ((s.die dk).queue i).gen * 2 ^ 16

/-- A record that fails its checks: it is claimed, and its job ends with the status (R312). -/
def State.failRecord (s : State) (dk i : Nat) (r : List Word) (status sub : Nat) : State :=
  let q := (s.die dk).queue i
  let gid := s.ownerGid dk q.owner
  let h := s.handleOf dk i
  let j : Job := { id := s.sys.nextId, num := recJob r, gid := gid, die := dk, ctx := q.owner, queue := h, ticket := q.head, record := r }
  let s := ((s.qTake dk i).1.queueChanged dk).modSys fun y => { y with nextId := y.nextId + 1, jobs := y.jobs ++ [j] }
  (s.endJob j.id status sub).tidyJobs

/-- Whether a job number is that of a live job of a context (R312). -/
def State.liveJob (s : State) (gid num : Nat) : Bool := s.sys.jobs.any fun j => !j.ended && j.gid == gid && j.num == num

/-- A launch unit takes its next record: a failing record ends its job, any other waits for a rectangle (R312, R313). -/
def State.claimNext (s : State) (module dk i : Nat) : State :=
  match s.headRecord dk i with
  | (s, .wait _) => s
  | (s, .fail _) => (s.qTake dk i).1.queueChanged dk
  | (s, .ok bs) =>
    let q := (s.die dk).queue i
    let gid := s.ownerGid dk q.owner
    let r := toWords 8 (wordOfBytes bs)
    let s := s.modMod module fun m => { m with turn := putKey (·.1) (q.prio, dk * 2 ^ 14 + i) m.turn }
    if !s.recordOk r then s.failRecord dk i r 1 1
    else if s.liveJob gid (recJob r) then s.failRecord dk i r 1 2
    else match s.readImages gid (engineWalker dk) r with
      | (s, .bad t) => s.failRecord dk i r t.code t.sub
      | (s, .wait) => s
      | (s, .ok _ _ _) => s.modSys fun y => { y with waiters := y.waiters ++
          [{ die := dk, queue := i, ticket := q.head, since := y.now, w := recW r, h := recH r }] }

/-- LAUNCH_CLAIM (R313): the launch unit of each package takes the next record of its queues; none waits for another. -/
def execLaunchClaim (s : State) : Host.Outcome State Fault Refusal :=
  .next ((List.range (s.sys.mx * s.sys.my)).foldl (fun s m => match s.nextRecord m with
    | some (dk, i) => s.claimNext m dk i
    | none => s) s)

/-! ## Placement (R314, R315) -/

/-- The gateways of a routing image (R314): core, side, reachable rectangle; none when the check fails. -/
def routesOf (routing : List Byte) (region x0 y0 x1 y1 : Nat) : Option (List (Nat × Nat × Nat)) :=
  let h := wordOfBytes (routing.take 8)
  let n := h % 1024
  let es := (List.range n).map fun i =>
    (wordOfBytes ((routing.drop (8 + 16 * i)).take 8), wordOfBytes ((routing.drop (16 + 16 * i)).take 8))
  let ok (e : Nat × Nat) : Bool :=
    let (x, y, side) := (unpackX e.1, unpackY e.1, bits e.1 25 24)
    let (a0, b0, a1, b1) := (bits e.2 11 0, bits e.2 23 12, bits e.2 35 24, bits e.2 47 36)
    e.1 / 2 ^ 26 = 0 && e.2 / 2 ^ 48 = 0 && x0 ≤ x && x ≤ x1 && y0 ≤ y && y ≤ y1
    && (if side = 0 then x = x0 else if side = 1 then x = x1 else if side = 2 then y = y0 else y = y1)
    && a0 ≤ a1 && b0 ≤ b1 && inScopeRect region (pack a0 b0) && inScopeRect region (pack a1 b1)
    && !(a0 ≤ x1 && x0 ≤ a1 && b0 ≤ y1 && y0 ≤ b1)
  if h / 1024 != 0 || !es.all ok then none else some (es.map fun e => (e.1 % 2 ^ 24, bits e.1 25 24, e.2))

/-- The cellars of n cores in a pool, and room for an image area (R314, R437). -/
def cellarsIn (base size len : Nat) : Nat → List (Nat × Nat) → Option (List (Nat × Nat))
  | 0, _ => some []
  | n + 1, used =>
    match placeIn base size len len used with
    | some a => (cellarsIn base size len n ((a, len) :: used)).map fun l => (a, len) :: l
    | none => none

/-- The messages that write the code to a core's instruction store (R23, R202): 224 bytes each, on channel 0. -/
def codeMessages (dst job gid now : Nat) (code : List Byte) : List Msg :=
  (List.range ((code.length + 223) / 224)).map fun i =>
    let bs := (code.drop (224 * i)).take 224
    { h0 := header0 1 0 0 8 false false (2 ^ 47 + 224 * i), h1 := header1 dst dst job, h2 := word (now % 2 ^ 32)
      pay := padTo 29 (word bs.length :: toWords 28 (wordOfBytes bs)), gid := gid, mark := .launch }

/-- The code and the start message of every core of a crew sent (R23, steps 4 to 6); the job's first is the one that DONE reports (R317). -/
def State.startCrew (s : State) (w : Crew) (r : List Word) (code : List Byte) : State :=
  let gid := s.crewGid w
  let s := s.modJob w.job fun j => { j with started := j.started.or (some s.sys.now) }
  let pay := [r.getD 6 0, r.getD 7 0, word (rectWord w.x0 w.y0 w.x1 w.y1)]
  w.coords.foldl (fun s c => s.modSys fun y => { y with flight := y.flight ++ codeMessages c (recJob r) gid y.now code ++
    [{ h0 := header0 7 0 0 2 false false (bits (rec_ r 1) 47 0), h1 := header1 c c (recJob r), h2 := word (w.idx * 2 ^ 32 + y.now % 2 ^ 32)
       pay := padTo 5 pay, gid := gid, mark := .launch }] }) s

/-- A core taken over by a crew (R314): its registers as the launch sets them (R214, R308), nothing in its tiles (R153), its detector
attribute copied from the SCRATCH page that maps it (R226). DESIGN CHOICE (log entry 83): four SCRATCH pages map a scratchpad and the rule speaks
of one, so the attribute is set where any of the four has it. -/
def State.takeCore (s : State) (w : Crew) (r : List Word) (c cellar : Nat) (items : List Item) : State :=
  s.atCore c 0 fun s => s.modCore fun k => { k.emptied with
    crew := some w.id, sender := [], ni := { unstarted := true }
    lpqdepth := word (4 * (bits (rec_ r 0) 30 28 + 1)), porchcfg := word (recPorch r)
    cellarcfg := word (bits (rec_ r 0) 33 31 + cellar)
    racy := items.any fun i => match i with
      | .page e => e.type == 4 && e.scratchCore == c && e.race
      | .table _ _ => false }

/-- Whether the wrap routes of a rectangle work (R314): no core of its edge rows and edge columns is fenced or in a failed module. -/
def State.wrapWorks (s : State) (x0 y0 x1 y1 : Nat) : Bool :=
  !(s.cores.any fun c => x0 ≤ c.x && c.x ≤ x1 && y0 ≤ c.y && c.y ≤ y1 && (c.x == x0 || c.x == x1 || c.y == y0 || c.y == y1)
    && (c.fenced || (s.mod (s.moduleOf c.coord)).failed))

/-- The number of cores of crews in a rectangle. -/
def State.occupied (s : State) (x0 y0 x1 y1 : Nat) : Nat :=
  ((s.sys.crews.filter fun w => w.life != .parked).map fun w =>
    (min x1 w.x1 + 1 - max x0 w.x0) * (min y1 w.y1 + 1 - max y0 w.y0)).foldl (· + ·) 0

/-- LAUNCH_AGED (R316, R437): after 50 µs a record that has not been placed, for want of a rectangle, of room in its context's pool or of a page
of its images, holds the candidate rectangle with the fewest occupied cores. One that has found no candidate, or whose target holds a core fenced since, looks again. -/
def execLaunchAged (n : Nat) (s : State) : Host.Outcome State Fault Refusal :=
  match s.sys.waiters[n]? with
  | none => .next s
  | some v =>
    let q := (s.die v.die).queue v.queue
    let owner := (s.die v.die).ctx q.owner
    let fencedIn (p : Nat × Nat) : Bool := s.cores.any fun c => c.fenced && p.1 ≤ c.x && c.x < p.1 + v.w && p.2 ≤ c.y && c.y < p.2 + v.h
    let holds := v.aged && (v.target.map fun t => !fencedIn t).getD false
    if holds || s.sys.now < v.since + 50000 then .next s
    else
      let cost (p : Nat × Nat) : Nat := s.occupied p.1 p.2 (p.1 + v.w - 1) (p.2 + v.h - 1)
      let ok (p : Nat × Nat) : Bool :=
        !fencedIn p && !(s.sys.waiters.zipIdx.any fun u => u.2 != n && match u.1.target with
            | some t => p.1 < t.1 + u.1.w && t.1 < p.1 + v.w && p.2 < t.2 + u.1.h && t.2 < p.2 + v.h
            | none => false)
      let best := ((s.places owner v.w v.h).filter ok).foldl (fun b p => match b with
        | none => some p
        | some o => if cost p < cost o then some p else some o) none
      .next (s.modSys fun y => { y with waiters := y.waiters.set n { v with aged := true, target := best } })

/-! ## Completion (R19) -/

/-- The entries waiting in a queue: from HEAD to PUB. -/
def QDesc.waitingTickets (q : QDesc) : List Nat := (List.range (ticketDiff q.pub q.head)).map fun i => (q.head + i) % 2 ^ 32

/-- Whether the entry of a ticket is a continuation of a job by number (R19), as its header says; while that is on a page that is absent it may
be one. -/
def State.continues (s : State) (dk : Nat) (q : QDesc) (t num_ : Nat) : Bool :=
  match (s.readPage (s.ownerGid dk q.owner) (q.slot t) 16 (engineWalker dk)).2 with
  | .ok bs => let m : Msg := { h0 := word (wordOfBytes (bs.take 8)), h1 := word (wordOfBytes (bs.drop 8)) }
              m.kind == 5 && m.job == num_
  | .wait _ => true
  | .fail _ => false

/-- The entries of the run queues of some cores looked at: what they wait for is asked for (R346, R364). -/
def State.lookAhead (s : State) (cs : List Core) : State :=
  (cs.flatMap fun c => ([c.runq0.toNat, c.runq1.toNat].filter fun v => bit v 32).map fun v => (handleDie (s.moduleOf c.coord) v, handleIdx v)).foldl
    (fun s p =>
      let q := (s.die p.1).queue p.2
      q.waitingTickets.foldl (fun s t => match s.readPage (s.ownerGid p.1 q.owner) (q.slot t) 16 (engineWalker p.1) with
        | (s', .wait _) => s'
        | _ => s) s) s

/-- Whether a continuation of a job waits in a run queue that no core outside a crew polls (R19). -/
def State.ownContinuation (s : State) (w : Crew) (mine : List Core) : Bool :=
  let num_ := ((s.jobOf w.job).map fun j : Job => j.num).getD 0
  let regs (c : Core) : List Nat := [c.runq0.toNat, c.runq1.toNat].filter fun v => bit v 32
  mine.any fun c => (regs c).any fun v =>
    let dk := handleDie (s.moduleOf c.coord) v
    let q := (s.die dk).queue (handleIdx v)
    let others := s.cores.any fun o => o.crew != some w.id && o.crew.isSome && (regs o).any fun u =>
      handleDie (s.moduleOf o.coord) u == dk && handleIdx u == handleIdx v
    q.valid && q.gen == bits v 31 16 && !others && q.waitingTickets.any fun t => s.continues dk q t num_

/-- Whether a continuation of a job waits in a run queue that a crew of its context polls: it keeps the job open (R19). -/
def State.jobContinues (s : State) (j : Job) : Bool :=
  (s.cores ++ s.sys.crews.flatMap fun w => w.parkedCores).any fun c =>
    ((c.crew.bind s.crewOf).map fun w => s.crewGid w) == some j.gid
    && ([c.runq0.toNat, c.runq1.toNat].filter fun v => bit v 32).any fun v =>
      let dk := handleDie (s.moduleOf c.coord) v
      let q := (s.die dk).queue (handleIdx v)
      q.valid && q.gen == bits v 31 16 && q.waitingTickets.any fun t => s.continues dk q t j.num

/-- Whether a subscription of a crew's core waits for pages of an open pass: an engine operation of the crew that is outstanding (R19; log entry 17). -/
def State.passPending (s : State) (w : Crew) : Bool :=
  s.dies.any fun d => d.passes.any fun p => p.isOpen && p.subs.any fun b =>
    b.live && inRect b.core w.x0 w.y0 w.x1 w.y1 && b.refs.any fun i => !b.got.contains i

/-- Whether a running crew is complete (R19); a task of its job that has not committed is work of the crew. -/
def State.crewDone (s : State) (w : Crew) : Bool :=
  let mine := s.cores.filter fun c => c.crew == some w.id
  let j := s.jobOf w.job
  let num_ := (j.map fun j : Job => j.num).getD 0
  let gid := (j.map fun j : Job => j.gid).getD 0
  w.life == .running && !w.hold && (mine.all fun c => c.ni.held == 0 && c.strands.all fun t => t.life == .free && t.ops.isEmpty)
  && !(s.sys.flight.any fun m => m.job == num_ && m.gid == gid && (inRect m.dst w.x0 w.y0 w.x1 w.y1 || inRect m.src w.x0 w.y0 w.x1 w.y1))
  && (s.tasksOf (jobKey gid num_)).isEmpty && !s.ownContinuation w mine && !s.passPending w

/-- A job whose crews are all complete, none of whose continuations is still in a queue, ends (R19); what it has to post is posted (R317). -/
def State.closeJob (s : State) (id : Nat) : State :=
  match s.jobOf id with
  | none => s
  | some j => (if !j.ended && j.dying.isNone && recCrews j.record ≤ j.completed && !s.jobContinues j then s.endJob id 0 0 else s.settleJob id).tidyJobs

/-- CREW_COMPLETE (R19): the rectangle is released, a recording ends, and the completion is posted; with the last crew the job ends (R317). A
killed crew is released once its transfers have ended (R399). By a job's identity it goes on with that job's end, which a continuation in a
queue or a page of DONE has kept open; a page that such a queue waits for is asked for. -/
def execCrewComplete (n : Nat) (s : State) : Host.Outcome State Fault Refusal :=
  match s.crewOf n with
  | none => .next ((s.lookAhead (match s.jobOf n with
      | some j => if j.ended then [] else s.cores ++ s.sys.crews.flatMap fun w => w.parkedCores
      | none => [])).closeJob n)
  | some w =>
    if w.life == .killed then .next (s.buryCrew w)
    else if !s.crewDone w then .next (s.lookAhead (s.cores.filter fun c => c.crew == some w.id))
    else match s.jobOf w.job with
      | none => .next (s.releaseCrew w)
      | some j =>
        let s := w.coords.foldl (fun s c => s.atCore c 0 State.endRecording) s
        let p := s.sys.prints.find? fun p => p.crew == n && p.launch
        let failed := p.bind fun p => p.failed
        let s := (s.sys.prints.filter fun p => p.crew == n).foldl State.closePrint s
        let s := (s.modJob j.id fun j => { j with completed := j.completed + 1, owed := j.owed + 1 }).releaseCrew w
        match failed with
        | some t => .next (s.endJob j.id t.code t.sub).tidyJobs
        | none => .next (s.closeJob j.id)

/-- CREW_RESUME (R324): a parked crew whose rectangle is free, unless a launch queue of higher priority holds a record (R313, R316). -/
def execCrewResume (n : Nat) (s : State) : Host.Outcome State Fault Refusal :=
  match s.crewOf n with
  | none => .next s
  | some w =>
    let prio := match s.jobOf w.job with
      | some j => s.prioOf j.die (handleIdx j.queue)
      | none => 0
    let higher := (s.launchQueues (s.crewDie w / 4)).any fun q => prio < s.prioOf q.1 q.2
    if !s.mayResume w || higher || s.blocked (s.crewDie w / 4) (prio + 1) none then .next s else .next (s.resumeCrew w)

/-! ## The watchdog (R320, R321) -/

/-- The limits of a job in ns: T1, T2, T3 (R320). A field of 0 acts as 1,000. -/
def State.limits (s : State) (j : Job) : Nat × Nat × Nat :=
  let v := (((s.die j.die).watchdog.find? fun e => e.1 == handleIdx j.queue).map fun e => e.2.toNat).getD 0
  let f (n : Nat) : Nat := if n = 0 then 1000 else n
  (f (bits v 19 0) * 100000, f (bits v 39 20) * 10000, f (bits v 59 40) * 1000)

/-- Something about a crew and its job's limits. -/
def crewEvent (n : Nat) (f : Crew → Nat × Nat × Nat → State → State) (s : State) : Host.Outcome State Fault Refusal :=
  match s.crewOf n with
  | none => .next s
  | some w => match s.jobOf w.job with
    | some j => .next (f w (s.limits j) s)
    | none => .next s

/-- WATCHDOG_PREEMPT_REQUEST (R321, step 1). Without room for an image the crew goes on running, and the next step applies (R401). -/
def execWatchdogPreemptRequest (n : Nat) : State → Host.Outcome State Fault Refusal :=
  crewEvent n fun w t s =>
    if w.life == .running && w.asked.isNone && w.since + t.1 ≤ s.sys.now then
      let r := s.requestPreempt n
      r.1.modCrew n fun w => { w with asked := some s.sys.now }
    else s

/-- WATCHDOG_KILL (R321, step 2): a core of the crew has not parked in time. -/
def execWatchdogKill (n : Nat) : State → Host.Outcome State Fault Refusal :=
  crewEvent n fun w t s => match w.asked with
    | some a => if (w.life == .running || w.life == .preempting) && a + t.2.1 ≤ s.sys.now then s.killJob w.job 0 0x14 0 else s
    | none => s

/-- WATCHDOG_FENCE (R321, step 3): every core that has not stopped is fenced, and the crew is released. -/
def execWatchdogFence (n : Nat) : State → Host.Outcome State Fault Refusal :=
  crewEvent n fun w t s =>
    if w.life == .killed && w.killed + t.2.2 ≤ s.sys.now then
      ((s.cores.filter fun c => c.crew == some n && c.stopping).foldl (fun s c => s.fenceCore c.coord 0x14 3) s).buryCrew w
    else s

end Sys2Proof.Machine
end

