-- ==== Sys2Proof/Machine/Time.lean ====
section
/-! DEFINITION. Frequency steps (R340 to R344), the power limit (R427), and the reference time as the host sets it (R427). -/

namespace Sys2Proof.Machine

/-- The present frequency of a die, in 0.1 GHz (R427, FNOW). -/
def Die.fnow (d : Die) : Nat := (d.steps.getLast?.map (·.fnew)).getD 18

/-- A step of a die to a frequency begun (R341): the core domain stops. A step requested during a relock is taken after it. -/
def State.stepTo (s : State) (dk f : Nat) : State :=
  let d := s.die dk
  if d.relock.isSome then s.modDie dk fun d => { d with queued := d.queued ++ [f] }
  else if d.fnow = f then s
  else s.setDie { d with relock := some { tstop := s.sys.now, cstep := d.cycles s.sys.now, fold := d.fnow, fnew := f } }

/-- RELOCK_END (R341): the core domain restarts, at most 2,000 ns after it stopped, the log entry is written, and the steps requested meanwhile
are taken, each after the relock of the one before. -/
def execRelockEnd (d : Nat) (s : State) : Host.Outcome State Fault Refusal :=
  match (s.die d).relock with
  | none => .next s
  | some r =>
    let q := (s.die d).queued
    let s := s.modDie d fun d => { d with steps := d.steps ++ [{ r with tstart := min s.sys.now (r.tstop + 2000) }], relock := none, queued := [] }
    .next (q.foldl (fun s f => s.stepTo d f) s)

/-- The target frequency written (R427): 8 to 20, a change starts a step. -/
def State.setTarget (s : State) (dk v : Nat) : State :=
  if v < 8 || 20 < v || (s.die dk).ftarget = v then s
  else (s.modDie dk fun d => { d with ftarget := v }).stepTo dk v

/-- FTARGET (R427). -/
def execFtarget (d val : Nat) (s : State) : Host.Outcome State Fault Refusal :=
  .next (if 4 * s.sys.mx * s.sys.my ≤ d then s else s.setTarget d (val % 32))

/-- A relock that has lasted 2,000 ns ends (R341). -/
def State.endRelocks (s : State) : State :=
  s.dies.foldl (fun s d => match d.relock with
    | some r => if r.tstop + 2000 ≤ s.sys.now then (match execRelockEnd d.key s with | .next t => t | _ => s) else s
    | none => s) s

/-- A die whose reference time is set (R427): CYCLES goes on, so its latest log entry moves with the origin, or begins anew where that would put
it before time 0 (log entry 9). -/
def Die.retime (d : Die) (was now : Nat) : Die :=
  let back (t : Nat) : Nat := now - (was - t)
  let last (e : Step) : Step :=
    if was - e.tstop ≤ now then { e with tstop := back e.tstop, tstart := back e.tstart }
    else { e with tstop := now, tstart := now, cstep := d.cycles was }
  { d with
    relock := d.relock.map fun r => { r with tstop := back r.tstop }
    steps := d.steps.zipIdx.map fun e => if e.2 + 1 = d.steps.length then last e.1 else e.1 }

/-- The reference time set by a module's first TIMESET after reset (R427). The first of the system sets it; as every die keeps the same time and it
never decreases (R339), that of another module can only move it forward (log entry 9). -/
def State.setTime (s : State) (module v : Nat) : State :=
  if (s.mod module).timeset then s
  else
    let was := s.sys.now
    let now := if s.modules.any (·.timeset) then max was v else v
    let s := s.modMod module fun m => { m with timeset := true }
    if now = was then s
    else
      let s := (List.range (4 * s.sys.mx * s.sys.my)).foldl (fun s dk => s.modDie dk fun d => d.retime was now) s
      let s := (List.range (s.sys.mx * s.sys.my)).foldl (fun s k => s.modMod k fun m => { m with powerAt := now + (m.powerAt - was) }) s
      s.modSys fun y => { y with now := now, gvtAt := (now / 2000 + 1) * 2000, keepAt := now + 100000, flitAt := now + 100000 }

/-- TIMESET (R427), at module 0, whose host link it comes by. -/
def execTimeset (val : Nat) (s : State) : Host.Outcome State Fault Refusal := .next (s.setTime 0 (val % 2 ^ 64))

/-- The frequency that a die has when the steps it has begun and those requested are over. -/
def Die.coming (d : Die) : Nat := d.queued.getLast?.getD ((d.relock.map (·.fnew)).getD d.fnow)

/-- POWER_LIMIT_STEP (R427): above PLIMIT the hottest die d goes one step down, then its array clock; below, up again in the reverse order,
never above FTARGET. A module takes one such step per 1 ms. -/
def execPowerLimitStep (d watts : Nat) (s : State) : Host.Outcome State Fault Refusal :=
  if 4 * s.sys.mx * s.sys.my ≤ d || s.sys.now < (s.mod (d / 4)).powerAt then .next s
  else
    let x := s.die d
    let f := x.coming
    let s := s.modMod (d / 4) fun m => { m with powerAt := s.sys.now + 1000000 }
    .next (if x.plimit < watts then
        if 8 < f then s.stepTo d (f - 1) else s.modDie d fun x => { x with throttled := min 10 (x.throttled + 1) }
      else if x.throttled != 0 then s.modDie d fun x => { x with throttled := x.throttled - 1 }
      else if f < x.ftarget then s.stepTo d (f + 1) else s)

end Sys2Proof.Machine
end

