-- ==== Sys2Proof/Machine/Mmio.lean ====
section
/-! DEFINITION. Device registers (R426 to R429, R438): queue blocks (R264), sessions and monitors (R414, R419, R420), fault routes (R396), tape
memory (R330), task-unit blocks (R266), core-control blocks (R397), sender tables (R412), time and power (R427), and the rights they need
(R374). A narrow access reads or writes within the doubleword. Where a region's layout is not stated it is the model's (log entry 20). -/

namespace Sys2Proof.Machine

/-- Who reaches a register: the GID of its context, the die of its core, whose entry of the context gives its rights, and whether it is the host over
CXL.io. -/
structure Who where
  gid : Nat
  dk : Nat := 0
  host : Bool := false

/-- How a register access ends. -/
inductive Reg where
  | ok (s : State) (v : Nat)
  | fail (sub : Nat)
  | wait (s : State)

/-- The rights of the context that reaches a register (R374), by its entry on the writer's die: the host drives the administration context. -/
def State.mayWrite (s : State) (u : Who) (right : Nat) : Bool :=
  u.host || match (s.die u.dk).ctxOfGid u.gid with
    | some n => ((s.die u.dk).ctx n).right right
    | none => false

/-- The number of the writer's context on a die. -/
def State.numberOn (s : State) (dk : Nat) (u : Who) : Option Nat := (s.die dk).ctxOfGid u.gid

/-! ## Queue blocks (R264) -/

/-- Whether the writer holds the right for a queue of an owner (R264). -/
def State.queueRight (s : State) (dk owner : Nat) (u : Who) : Bool :=
  u.host || (s.mayWrite u 9 && s.numberOn dk u == some owner) || (s.mayWrite u 11 && !((s.die dk).ctx owner).dark)

/-- An open session closed: it forms no more records, and its EN is 0 once those formed have been written (R414, R417). -/
def State.closeSession (s : State) (dk n : Nat) : State :=
  let s := s.modDie dk fun d => { d with sessions := vset d.sessions n { vget d.sessions n {} with closing := true } }
  drainRecords dk n ((vget (s.die dk).sessions n {}).pending.length + 1) s

/-- A session of the die truncated where a destroyed queue is the one it names (R417): its TRUNCATED record is the last. -/
def State.truncate (s : State) (dk i gen : Nat) : State :=
  let h := i + dk % 4 * 2 ^ 14 + gen * 2 ^ 16
  s.dies.foldl (fun s d => if d.key / 4 != dk / 4 then s else (List.range 16).foldl (fun s n =>
    let ss := vget (s.die d.key).sessions n {}
    if ss.en && ss.queue = h then (s.writeRecord d.key n 7 0 0 0 ss.job 0 (word h)).closeSession d.key n else s) s) s

/-- A queue destroyed (R264, R417): a record of it that waits for a rectangle goes with it. -/
def State.destroyQueue (s : State) (dk i : Nat) : State :=
  let q := (s.die dk).queue i
  ((s.setQueue dk q.destroy).truncate dk i q.gen).modSys fun y => { y with
    waiters := y.waiters.filter fun w => w.die != dk || w.queue != i || w.job.isSome }

/-- A write to doubleword j of a queue's block. -/
def State.writeQueue (s : State) (dk i j v : Nat) (u : Who) : Reg :=
  let q := (s.die dk).queue i
  let ok (s : State) : Reg := .ok (s.queueChanged dk) 0
  if j = 0 then
    let own := if q.valid then q.owner else bits v 15 8
    if !s.queueRight dk own u then .fail 2
    else if q.valid then (if bit v 0 then .fail 2 else ok (s.destroyQueue dk i))
    else
      let q := q.take0 v
      ok (s.setQueue dk (if bit v 0 then q.create else q))
  else if j = 1 then
    if !s.queueRight dk q.owner u || q.valid then .fail 2 else ok (s.setQueue dk { q with ring := v % 2 ^ 48 })
  else if j = 7 then ok (s.setQueue dk (q.doorbell (v % 2 ^ 32)))
  else .fail 2

/-! ## Fault routes (R396) -/

/-- A fault-route entry written: by its own context, or by one with CADM; the queue named shall be of that context. -/
def State.writeRoute (s : State) (dk n v : Nat) (u : Who) : Reg :=
  let qd := handleDie (dk / 4) v
  let q := (s.die qd).queue (handleIdx v)
  let other := if qd = dk then q.owner != n else s.ownerGid qd q.owner != ((s.die dk).ctx n).gidOf
  let own := s.numberOn dk u == some n || u.host || s.mayWrite u 11
  if !own || (other && (bit v 32 || (q.valid && q.gen = bits v 31 16))) then .fail 2
  else .ok ((s.modDie dk fun d => { d with routes := putKey (·.1) (n, v % 2 ^ 33) d.routes }).queueChanged dk) 0

/-! ## Sessions and monitors (R414, R419, R420) -/

/-- The words of a session block. -/
def Session.dw (x : Session) (j : Nat) : Nat :=
  match j with
  | 0 => num x.en + x.state * 2 + x.ctx * 2 ^ 8 + x.job * 2 ^ 16 + x.queue * 2 ^ 32
  | 1 => x.ring
  | 2 => x.rlog
  | 3 => x.tfilt + num x.tasken * 2 ^ 32 + x.tmask * 2 ^ 40
  | 4 => x.seq
  | _ => 0

/-- The owner of a queue named by a handle, for a die. -/
def State.handleOwner (s : State) (dk h : Nat) : Nat := ((s.die (handleDie (dk / 4) h)).queue (handleIdx h)).owner

/-- Whether a context may write a session that names a queue (R414). -/
def State.sessionRight (s : State) (dk h : Nat) (u : Who) : Bool :=
  u.host || s.mayWrite u 11 || s.numberOn (handleDie (dk / 4) h) u == some (s.handleOwner dk h)

/-- Whether a handle names a queue there is. -/
def State.handleLive (s : State) (dk h : Nat) : Bool :=
  let q := (s.die (handleDie (dk / 4) h)).queue (handleIdx h)
  q.valid && q.gen == bits h 31 16

/-- A write to doubleword j of a session block (R414): a write to doubleword 0 is judged by the queue it carries, and by the queue that the block
names, where the session is open or that queue there is (log entry 49). -/
def State.writeSession (s : State) (dk n j v : Nat) (u : Who) : Reg :=
  let x := vget (s.die dk).sessions n {}
  let put (x : Session) : Reg := .ok (s.modDie dk fun d => { d with sessions := vset d.sessions n x }) 0
  if !s.sessionRight dk (if j = 0 then bits v 63 32 else x.queue) u
      || ((x.en || s.handleLive dk x.queue) && !s.sessionRight dk x.queue u) then .fail 2
  else match j with
    | 0 =>
      let x := { x with state := if bits v 2 1 = 3 then x.state else bits v 2 1, queue := bits v 63 32
                        job := if x.en then x.job else bits v 31 16 }
      if !bit v 0 && x.en then
        .ok ((s.modDie dk fun d => { d with sessions := vset d.sessions n x }).closeSession dk n) 0
      else if !bit v 0 || x.en then put x
      else
        let other := s.dies.any fun d => d.sessions.any fun y => y.en && y.job == x.job
        if other || x.rlog < 12 || 40 < x.rlog then .fail 2
        else put { x with en := true, seq := 0, ctx := (s.numberOn dk u).getD 0, gid := u.gid }
    | 1 => put (if x.en then x else { x with ring := v % 2 ^ 48 })
    | 2 => put (if x.en then x else { x with rlog := v % 64 })
    | 3 => put { x with tfilt := v % 2 ^ 32, tasken := bit v 32, tmask := bits v 45 40 }
    | _ => .ok s 0

/-- The words of a monitor block. -/
def Monitor.dw (m : Monitor) (j : Nat) : Nat :=
  match j with
  | 0 => num m.en + m.rel * 2 + m.act * 2 ^ 4 + m.sess * 2 ^ 7 + m.qa * 2 ^ 11 + m.qb * 2 ^ 14
  | 1 => m.opa.toNat
  | 2 => m.opb.toNat
  | _ => m.fired % 2 ^ 32 + min m.last (2 ^ 32 - 1) * 2 ^ 32

/-- The pool slots of a pass in use: subscriptions' slots and reserved ones (R292). -/
def Pass.occupied (p : Pass) : Nat := ((p.subs.filter (·.live)).map fun b => 1 + b.reserved.length).foldl (· + ·) 0

/-- Whether a context's monitor may see what belongs to a context: its own, or one that is no darkroom context (R380). -/
def State.shows (s : State) (gid other : Nat) : Bool := gid == other || !(s.ctxByGid other).any Ctx.dark

/-- The GID of a core's crew. -/
def State.gidAt (s : State) (c : Nat) : Nat := (s.focus c 0).gid

/-- A quantity of R420, for a session's context; none where the operand names nothing, lies outside its REGION, belongs to another darkroom context
(R380) or cannot be translated. The free slots of a router's buffer, whose size is not stated, are a free value (log entry 1). -/
def State.quantity (s : State) (dk gid code opnd : Nat) : Option Nat :=
  let inside (c : Nat) : Bool := s.inMesh c && (gid = 0 || match s.ctxByGid gid with
    | some x => inScopeRect (x.dw 4) c
    | none => false)
  let c := opnd % 2 ^ 24
  match code with
  | 0 => let q := (s.die (handleDie (dk / 4) opnd)).queue (handleIdx opnd)
         if q.valid && q.gen = bits opnd 31 16 then some q.depth else none
  | 1 => if inside c && s.shows gid (s.gidAt c) then some (s.coreAt c).ni.cellar.length else none
  | 2 => if inside c && s.shows gid (s.gidAt c) then some (s.coreAt c).ni.lpq.length else none
  | 3 => if inside c && bits opnd 26 24 ≤ 4 then some (Config.freeWord s.draw).toNat else none
  | 4 => match (s.translate gid (opnd % 2 ^ 48) (engineWalker dk)).2 with
    | .hit e =>
      let key := memKey 0 (e.home s) (e.pa (opnd % 2 ^ 48) / 128 * 128)
      let s := s.mapSync e (opnd % 2 ^ 48)
      if e.type = 5 && s.cellType key = 2 then some (s.physN (key + 20) 4) else none
    | _ => none
  | 5 => match (s.die (dk / 4 * 4 + bits opnd 15 14)).passes.find? fun p => p.slot == bits opnd 5 0 && p.isOpen && p.gen == bits opnd 31 16 with
    | some p => if s.shows gid p.gid then some p.occupied else none
    | none => none
  | 6 =>
    let h := (s.cluster (s.clusterKey c)).lease.holder.getD 31
    if inside c && (15 < h || s.shows gid (s.gidAt (s.clusterCore (s.clusterKey c) h))) then some h else none
  | _ => none

/-- Quantity B of a monitor: 7 means the constant (R419). -/
def State.quantityB (s : State) (dk gid : Nat) (m : Monitor) : Option Nat :=
  if m.qb = 7 then some m.opb.toNat else s.quantity dk gid m.qb m.opb.toNat

/-- A write to doubleword j of a monitor block, with the rights of its session, of the one it is bound to while its EN is 1 too (R419); setting EN
checks the operands (R420). -/
def State.writeMonitor (s : State) (dk n j v : Nat) (u : Who) : Reg :=
  let m := vget (s.die dk).monitors n {}
  let sess (k : Nat) : Session := vget (s.die dk).sessions k {}
  let put (m : Monitor) : Reg := .ok (s.modDie dk fun d => { d with monitors := vset d.monitors n m }) 0
  if !s.sessionRight dk (sess (if j = 0 then bits v 10 7 else m.sess)).queue u || (m.en && !s.sessionRight dk (sess m.sess).queue u) then .fail 2
  else match j with
    | 0 =>
      let x := { m with rel := bits v 3 1, act := bits v 6 4, sess := bits v 10 7, qa := bits v 13 11, qb := bits v 16 14 }
      if bit v 0 && !m.en then
        let gid := (sess x.sess).gid
        if 5 < x.rel || 4 < x.act || (s.quantity dk gid x.qa x.opa.toNat).isNone || (s.quantityB dk gid x).isNone then .fail 2
        else put { x with en := true, prev := none }
      else put { x with en := bit v 0 }
    | 1 => put { m with opa := word v }
    | 2 => put { m with opb := word v }
    | _ => .ok s 0

/-! ## Tape memory (R330) -/

/-- A write to doubleword j of directory entry i by a context number; `covers` says whether it reaches STATE. -/
def State.writeDir (s : State) (dk i j v ctx : Nat) (covers : Bool) : Reg :=
  let d := s.die dk
  let st := d.dirState i
  let busy := st = 1 || d.dirActive i != 0
  if busy || (st != 0 && d.dirCtx i != ctx) then .fail 2
  else if j = 1 then .ok (s.setDie (d.setDir i (d.dirNumber i) ctx st (d.dirReason i) 0 (v % 2 ^ 22 / 64 * 64) (bits v 43 22))) 0
  else
    let want := bits v 25 24
    let crosses := (List.range 256).any fun k => k != i && d.dirState k != 0 && overlap (d.dirOff k) (d.dirLen k) (d.dirOff i) (d.dirLen i)
    if !covers || want = 0 || (want = 2 && st = 0 && !crosses) then
      .ok (s.setDie (d.setDir i (v % 2 ^ 16) ctx want (if want = 3 then d.dirReason i else 0) 0 (d.dirOff i) (d.dirLen i))) 0
    else .fail 2

/-- An access of n bytes of tape memory by a context number: a darkroom negative is readable from its own context alone (R330). -/
def State.readTape (s : State) (dk off n ctx : Nat) : Reg :=
  let d := s.die dk
  let dark := (List.range 256).any fun i => d.dirState i != 0 && d.dirCtx i != ctx && (d.ctx (d.dirCtx i)).dark
    && overlap off n (d.dirOff i) (d.dirLen i)
  if dark then .fail 2 else .ok s (d.tapeMem.rdN off n)

/-- A write of n bytes of tape memory by a context number. -/
def State.writeTape (s : State) (dk off n v ctx : Nat) : Reg :=
  let d := s.die dk
  if off < 4096 then
    let i := off / 16
    let j := off / 8 % 2
    let old := if j = 0 then d.dir0 i else d.dir1 i
    let sh := 8 * (off % 8)
    s.writeDir dk i j (old - bits old (sh + 8 * n - 1) sh * 2 ^ sh + v % 2 ^ (8 * n) * 2 ^ sh) ctx (overlap (off % 8) n 3 1)
  else
    let held := (List.range 256).any fun i => overlap off n (d.dirOff i) (d.dirLen i) && d.dirState i != 0
      && (d.dirCtx i != ctx || d.dirState i = 1 || d.dirActive i != 0)
    if held then .fail 2 else .ok (s.setDie { d with tapeMem := d.tapeMem.put off (bytesOfWord n v) }) 0

/-! ## Per-cluster registers (R438) -/

/-- A core's sender-table block (R412): doubleword j. -/
def Core.senderDw (c : Core) (j : Nat) : Nat :=
  if j = 0 then num c.senderEn
  else if j < 8 then 0
  else
    let keyed := c.sender.filter (·.valid)
    let i := (j - 8) / 4
    let e := if i < 64 then keyed[i]? else if i = 64 then c.sender.find? fun e => !e.valid else none
    match e with
    | none => 0
    | some e => match (j - 8) % 4 with
      | 0 => (if e.valid then e.src else 0) + num e.valid * 2 ^ 24 + e.count * 2 ^ 32
      | 1 => e.transit + e.cellarn * 2 ^ 48
      | 2 => e.wait
      | _ => e.run

/-- A core-control block (R397): doubleword j. A core whose crew is parked answers for that crew. -/
def State.controlDw (s : State) (c j : Nat) : Nat :=
  let k := s.coreAt c
  let parked := s.sys.crews.find? fun w => w.parkedCores.any fun x => x.coord == c
  let view : Core := if k.crew.isSome then k else match parked with
    | some w => (findKey Core.coord w.parkedCores c).getD k
    | none => k
  let job := (((k.crew.bind s.crewOf).or parked).bind fun w => (s.jobOf w.job).map fun j : Job => j.num).getD 0
  match j with
  | 0 => num view.ni.infrz + num (k.crew.isNone && parked.isSome) * 2 + job * 2 ^ 16
         + maskOf 16 (fun i => (vget view.strands i {}).life == .halted) * 2 ^ 32
  | 2 => k.ctlStatus
  | 3 => view.ni.inseq
  | _ => 0

/-- A task unit's block (R266): doubleword j. -/
def TaskUnit.dw (u : TaskUnit) (j : Nat) : Nat :=
  match j with
  | 0 => num u.en + u.job * 2 ^ 16
  | 1 => u.spill.toNat
  | 2 => u.splog
  | 3 => u.fbase + u.fsize * 2 ^ 18
  | 4 => u.cts
  | 5 => u.cid
  | 6 => u.held + u.specn * 2 ^ 16
  | _ => 0

/-- A write to a task unit's block (R266). -/
def State.writeTaskUnit (s : State) (cl j v : Nat) (u : Who) : Reg :=
  let t := (s.cluster cl).task
  let put (t : TaskUnit) : Reg := .ok (s.modCluster cl fun c => { c with task := t }) 0
  match j with
  | 0 => if v % 2 ^ 16 / 2 != 0 || v / 2 ^ 32 != 0 then .fail 2 else 
      let last := s.lastCommitted (jobKey u.gid (bits v 31 16))
      put { t with en := bit v 0, job := bits v 31 16, gid := u.gid, cts := if bit v 0 then last.1 else t.cts, cid := if bit v 0 then last.2 else t.cid }
  | 1 => if t.en || v / 2 ^ 48 != 0 then .fail 2 else put { t with spill := word v }
  | 2 => if t.en || v / 2 ^ 5 != 0 then .fail 2 else put { t with splog := v }
  | 3 => if t.en || v / 2 ^ 23 != 0 then .fail 2 else put { t with fbase := bits v 17 0 / 256 * 256, fsize := bits v 22 18 }
  | _ => .fail 2

/-- A darkroom core's profile block answers its own context only (R380, R413). -/
def State.profileOpen (s : State) (c : Nat) (u : Who) : Bool :=
  match ((s.coreAt c).crew.bind s.crewOf).map s.crewGid with
  | some g => g = u.gid || !((s.ctxByGid g).any Ctx.dark)
  | none => true

/-- The table of a core cleared (R412, CLEAR). -/
def State.clearSenders (s : State) (c : Nat) : State := s.atCore c 0 fun s => s.modCore fun k => { k with sender := [] }

/-- A read of a doubleword of the per-cluster space. -/
def State.readCluster (s : State) (dk off : Nat) (u : Who) : Reg :=
  let cl := dk * 36 + off / 2 ^ 20
  let o := off % 2 ^ 20
  let page := o / 2 ^ 16
  let b := o % 2 ^ 16
  if 36 ≤ off / 2 ^ 20 then .fail 2
  else if page = 12 && b < 1024 then .ok s (s.controlDw (s.clusterCore cl (b / 64)) (b % 64 / 8))
  else if page = 13 && b < 64 then .ok s ((s.cluster cl).task.dw (b / 8))
  else if page = 14 then
    let c := s.clusterCore cl (b / 4096)
    if s.profileOpen c u then .ok s ((s.coreAt c).senderDw (b % 4096 / 8)) else .fail 2
  else .fail 2

/-- A write of a doubleword of the per-cluster space. -/
def State.writeCluster (s : State) (dk off v : Nat) (u : Who) : Reg :=
  let cl := dk * 36 + off / 2 ^ 20
  let o := off % 2 ^ 20
  let page := o / 2 ^ 16
  let b := o % 2 ^ 16
  if 36 ≤ off / 2 ^ 20 then .fail 2
  else if page = 12 && b < 1024 then
    if b % 64 / 8 = 1 then
      let (s, done_) := s.command (s.clusterCore cl (b / 64)) (bits v 3 0) (bits v 7 4) (bits v 8 8) (bits v 31 16) u.gid (s.mayWrite u 11) true
      if done_ then .ok s 0 else .wait s
    else .ok s 0
  else if page = 13 && b < 64 then s.writeTaskUnit cl (b / 8) v u
  else if page = 14 then
    let c := s.clusterCore cl (b / 4096)
    if !s.profileOpen c u then .fail 2
    else if b % 4096 / 8 = 0 then
      let s := s.atCore c 0 fun s => s.modCore fun k => { k with senderEn := bit v 0 }
      .ok (if bit v 1 then s.clearSenders c else s) 0
    else .ok s 0
  else .fail 2

/-! ## The housekeeping block (R426 to R429) -/

/-- A word of the step log (R343). -/
def Die.stepDw (d : Die) (j : Nat) : Nat :=
  let last := d.steps.length - 1
  if j = 0 then last
  else if j < 4 then 0
  else
    let slot := (j - 4) / 4
    let seq := if slot ≤ last % 16 then last / 16 * 16 + slot else last / 16 * 16 + slot - 16
    if 16 ≤ slot || last < slot then 0
    else match d.steps[seq]? with
      | none => 0
      | some e => match (j - 4) % 4 with
        | 0 => e.tstop
        | 1 => e.tstart
        | 2 => e.cstep
        | _ => e.fold + e.fnew * 2 ^ 8 + seq % 2 ^ 32 * 2 ^ 32

/-- Doubleword j of the identity region (R426): part number, die and module, then the firmware version; from doubleword 256 on the fenced units
(R429). Their places are the model's (log entry 20). -/
def State.identity (s : State) (dk j : Nat) : Nat :=
  if j = 0 then 0x9640 + dk % 4 * 2 ^ 16 + dk / 4 % s.sys.mx * 2 ^ 24 + dk / 4 / s.sys.mx * 2 ^ 32
  else if j = 1 then (s.die (dk / 4 * 4)).firmware.toNat
  else if 256 ≤ j then ((s.die dk).fencedUnits.getD (j - 256) 0).toNat
  else 0

/-- A read of a doubleword of the housekeeping block below the tape window. -/
def State.readHouse (s : State) (dk off : Nat) : Nat :=
  let d := s.die dk
  let j := off % 4096 / 8
  if off < 0x1000 then s.identity dk j
  else if off < 0x2000 then
    match j with
    | 1 => d.ftarget + d.fnow * 2 ^ 8
    | 2 => d.plimit
    | 3 => d.ptpoff.toNat
    | _ => 0
  else if off < 0x3000 then d.stepDw j
  else if 0x10000 ≤ off && off < 0x30000 then
    ((d.watchdog.find? fun e => e.1 == (off - 0x10000) / 8).map fun e => e.2.toNat).getD (1000 + 1000 * 2 ^ 20 + 1000 * 2 ^ 40)
  else if 0x30000 ≤ off && off < 0x30800 then ((d.routes.find? fun r => r.1 == (off - 0x30000) / 8).map (·.2)).getD 0
  else if 0x31000 ≤ off && off < 0x31400 then (vget d.sessions ((off - 0x31000) / 64) {}).dw (off % 64 / 8)
  else if 0x31400 ≤ off && off < 0x31800 then (vget d.monitors ((off - 0x31400) / 32) {}).dw (off % 32 / 8)
  else if 0x32000 ≤ off && off < 0x33000 then
    if j = 0 then d.alarm else if 256 ≤ j then (d.alarmLog.getD (j - 256) 0).toNat
    else ((d.alarmRegs.find? fun e => e.1 == j).map fun e => e.2.toNat).getD 0
  else if 0x33000 ≤ off && off < 0x33018 then (d.ageing.getD j 0).toNat
  else if 0x34000 ≤ off && off < 0x34100 then (((d.tier.find? fun e => e.1 == j / 8).map (·.2)).getD []).getD (j % 8) 0 |>.toNat
  else if 0x35000 ≤ off && off < 0x35018 then (if j = 0 then d.qtbase else if j = 1 then d.hdmbase else d.hostCtx).toNat
  else if 0x36000 ≤ off && off < 0x37000 then
    match d.summary.find? fun e => e.1 == (off - 0x36000) / 16 with
    | some (_, n, code, t) => if off % 16 < 8 then n % 2 ^ 32 + code * 2 ^ 32 else t
    | none => 0
  else if 0x38000 ≤ off && off < 0x38018 && dk % 4 = 0 then
    let m := s.mod (dk / 4)
    if j = 1 then m.mbarg.toNat else if j = 2 then m.mbstat else 0
  else 0

/-- A write of a doubleword of the housekeeping block below the tape window, with the rights of R426: FTARGET and PLIMIT take HKP or PWR
(DEDUCED, log entry 30). -/
def State.writeHouse (s : State) (dk off v : Nat) (u : Who) : Reg :=
  let d := s.die dk
  let j := off % 4096 / 8
  let hkp := s.mayWrite u 12
  let put (d : Die) : Reg := .ok (s.setDie d) 0
  if 0x1000 ≤ off && off < 0x1020 then
    match j with
    | 0 => if hkp then .ok (s.setTime (dk / 4) v) 0 else .fail 2
    | 1 => if hkp || s.mayWrite u 10 then .ok (s.setTarget dk (v % 32)) 0 else .fail 2
    | 2 => if hkp || s.mayWrite u 10 then
             let p := v % 2 ^ 16
             if 400 ≤ p && p ≤ 2400 then .ok ((List.range 4).foldl (fun s i => s.modDie (dk / 4 * 4 + i) fun x => { x with plimit := p }) s) 0
             else .ok s 0
           else .fail 2
    | _ => if hkp then put { d with ptpoff := word v } else .fail 2
  else if 0x10000 ≤ off && off < 0x30000 then
    let q := (off - 0x10000) / 8
    if s.queueRight dk (d.queue q).owner u then put { d with watchdog := putKey (·.1) (q, word (v % 2 ^ 60)) d.watchdog } else .fail 2
  else if 0x30000 ≤ off && off < 0x30800 then s.writeRoute dk ((off - 0x30000) / 8) v u
  else if 0x31000 ≤ off && off < 0x31400 then s.writeSession dk ((off - 0x31000) / 64) (off % 64 / 8) v u
  else if 0x31400 ≤ off && off < 0x31800 then s.writeMonitor dk ((off - 0x31400) / 32) (off % 32 / 8) v u
  else if 0x32000 ≤ off && off < 0x33000 then
    if hkp then put (if j = 0 || 256 ≤ j then d else { d with alarmRegs := putKey (·.1) (j, word v) d.alarmRegs }) else .fail 2
  else if 0x34000 ≤ off && off < 0x34100 then
    if hkp then
      let old := padTo 8 (((d.tier.find? fun e => e.1 == j / 8).map (·.2)).getD [])
      put { d with tier := putKey (·.1) (j / 8, old.set (j % 8) (word v)) d.tier }
    else .fail 2
  else if 0x35000 ≤ off && off < 0x35018 then
    if u.host then put (if j = 0 then { d with qtbase := word v } else if j = 1 then { d with hdmbase := word v } else { d with hostCtx := word v })
    else .fail 2
  else if 0x38000 ≤ off && off < 0x38018 && dk % 4 = 0 then
    if !u.host then .fail 2
    else if j = 1 then .ok (s.modMod (dk / 4) fun m => { m with mbarg := word v }) 0
    else .ok s 0
  else .fail 2

/-! ## Any register -/

/-- A doubleword with n bytes at an offset replaced. -/
def mergeBytes (old off n v : Nat) : Nat :=
  let sh := 8 * (off % 8)
  old - bits old (sh + 8 * n - 1) sh * 2 ^ sh + v % 2 ^ (8 * n) * 2 ^ sh

/-- A read of n bytes at a device register offset of a die (R424, R426, R438), outside the tile window. -/
def State.readReg (s : State) (dk off n : Nat) (u : Who) : Reg :=
  let part (v : Nat) : Nat := v / 2 ^ (8 * (off % 8)) % 2 ^ (8 * n)
  if off < 0x400000 then .ok s (part (s.readHouse dk (off / 8 * 8)))
  else if off < 0x800000 then s.readTape dk (off - 0x400000) n ((s.numberOn dk u).getD 0)
  else if off < 0x1000000 then .ok s 0
  else if 0x100000000 ≤ off then
    match s.readCluster dk ((off - 0x100000000) / 8 * 8) u with
    | .ok s v => .ok s (part v)
    | r => r
  else .fail 2

/-- A write of n bytes at a device register offset of a die, outside the tile window. -/
def State.writeReg (s : State) (dk off n v : Nat) (u : Who) : Reg :=
  if off < 0x400000 then s.writeHouse dk (off / 8 * 8) (mergeBytes (s.readHouse dk (off / 8 * 8)) off n v) u
  else if off < 0x800000 then s.writeTape dk (off - 0x400000) n v ((s.numberOn dk u).getD 0)
  else if 0x100000000 ≤ off then
    let o := (off - 0x100000000) / 8 * 8
    let old := match s.readCluster dk o u with
      | .ok _ v => v
      | _ => 0
    s.writeCluster dk o (mergeBytes old off n v) u
  else .fail 2

/-- A read of n bytes of a queue block by its page and offset (R264): of an aligned doubleword. The RING of a darkroom context's queue reads as zero
to every other context (R380; log entry 20). -/
def State.readQueuePage (s : State) (dk page off n : Nat) (u : Who) : Reg :=
  let q := (s.die dk).queue (1024 * page + off / 64)
  let hidden := off % 64 / 8 = 1 && ((s.die dk).ctx q.owner).dark && (u.host || s.numberOn dk u != some q.owner)
  if n != 8 then .fail 2 else .ok s (if hidden then 0 else q.dw (off % 64 / 8))

/-- A write to a queue block by its page and offset (R264). -/
def State.writeQueuePage (s : State) (dk page off n v : Nat) (u : Who) : Reg :=
  let i := 1024 * page + off / 64
  let j := off % 64 / 8
  s.writeQueue dk i j (if j = 7 then v % 2 ^ (8 * n) else mergeBytes (((s.die dk).queue i).dw j) off n v) u

/-! ## Register events -/

/-- The state a register write leaves: unchanged where it fails. -/
def regEvent (s : State) (r : Reg) : Host.Outcome State Fault Refusal :=
  match r with
  | .ok t _ => .next t
  | .wait t => .next t
  | .fail _ => .next s

/-- Whether a die key names a die of the system. -/
def State.isDie (s : State) (d : Nat) : Bool := d < 4 * s.sys.mx * s.sys.my

/-- The host as a writer of registers. -/
def hostWho : Who := { gid := 0, host := true }

/-- A host access or mailbox command kept until it can be performed. -/
def State.hold (s : State) (r : HostReq) : State := s.modSys fun y => { y with held := y.held ++ [r] }

/-- Whether a CXL.mem write is kept, of those that came before place n. -/
def State.writesHeld (s : State) (n : Nat) : Bool := (s.sys.held.take n).any fun r => match r with
  | .write _ _ => true
  | _ => false

/-- DOORBELL (R264): performed after every CXL.mem write that reached the link before it (R425). -/
def execDoorbell (d q ticket : Nat) (s : State) : Host.Outcome State Fault Refusal :=
  if !s.isDie d || 2 ^ 14 ≤ q then .next s
  else if s.writesHeld s.sys.held.length then .next (s.hold (.doorbell d q ticket))
  else regEvent s (s.writeQueue d q 7 ticket hostWho)

/-- QUEUE_CREATE (R264): the host writes an invalid queue: doubleword 1 with one less than bits 127:64, where these are not zero, then doubleword 0
with bits 63:0, which creates the queue when VALID is 1 in them. -/
def execQueueCreate (d q val : Nat) (s : State) : Host.Outcome State Fault Refusal :=
  if !s.isDie d || 2 ^ 14 ≤ q || (!bit val 0 && ((s.die d).queue q).valid) then .next s
  else match if val / 2 ^ 64 = 0 then .ok s 0 else s.writeQueue d q 1 (val / 2 ^ 64 - 1) hostWho with
    | .ok s _ => regEvent s (s.writeQueue d q 0 (val % 2 ^ 64) hostWho)
    | _ => .next s

/-- QUEUE_DESTROY (R264): doubleword 0 written with VALID 0. -/
def execQueueDestroy (d q : Nat) (s : State) : Host.Outcome State Fault Refusal :=
  if !s.isDie d || 2 ^ 14 ≤ q || !((s.die d).queue q).valid then .next s else regEvent s (s.writeQueue d q 0 0 hostWho)

/-- SENDER_TABLE_CLEAR (R412). -/
def execSenderTableClear (c : Nat) (s : State) : Host.Outcome State Fault Refusal :=
  .next (if s.inMesh c then s.clearSenders c else s)

/-- TRACE_SESSION_OPEN (R414): doubleword 0 written with EN 1. -/
def execTraceSessionOpen (d n val : Nat) (s : State) : Host.Outcome State Fault Refusal :=
  if !s.isDie d || 16 ≤ n || !bit val 0 then .next s else regEvent s (s.writeSession d n 0 (val % 2 ^ 64) hostWho)

/-- TRACE_SESSION_CLOSE (R414). -/
def execTraceSessionClose (d n : Nat) (s : State) : Host.Outcome State Fault Refusal :=
  if !s.isDie d || 16 ≤ n then .next s
  else let x := vget (s.die d).sessions n {}
       regEvent s (s.writeSession d n 0 ({ x with en := false }.dw 0) hostWho)

/-- MONITOR_ENABLE (R420): doubleword 0 written with EN 1. -/
def execMonitorEnable (d n val : Nat) (s : State) : Host.Outcome State Fault Refusal :=
  if !s.isDie d || 32 ≤ n || !bit val 0 then .next s else regEvent s (s.writeMonitor d n 0 (val % 2 ^ 64) hostWho)

/-- TAPE_DIRECTORY_WRITE (R330): by the entry's own context, the administration context for a free one. -/
def execTapeDirectoryWrite (d n dw val : Nat) (s : State) : Host.Outcome State Fault Refusal :=
  if !s.isDie d || 256 ≤ n || 2 ≤ dw then .next s else regEvent s (s.writeDir d n dw (val % 2 ^ 64) 0 true)

/-- FAULT_ROUTE_WRITE (R396): by the context of the entry. -/
def execFaultRouteWrite (d n val : Nat) (s : State) : Host.Outcome State Fault Refusal :=
  if !s.isDie d || 256 ≤ n then .next s else regEvent s (s.writeRoute d n (val % 2 ^ 64) hostWho)

/-- FAULT_BUFFER_RETRY (R396): buffered records are published while their routes can take them. -/
def execFaultBufferRetry (d : Nat) (s : State) : Host.Outcome State Fault Refusal :=
  .next (if s.isDie d then s.queueChanged d else s)

end Sys2Proof.Machine
end

