-- ==== Sys2Proof/Machine/Place.lean ====
section
/-! DEFINITION. The guards checked before a print's first entry (R333 to R336), and the placement of crews, by launch or with a negative
(R314, R315, R335). -/

namespace Sys2Proof.Machine

/-! ## Guards (R334 to R336) -/

/-- A doubleword read as a GLD of the focused core in a context (R334): the read, its failure, or a wait. -/
def State.readAsGld (s : State) (gid va cl : Nat) : State × Res :=
  match s.translate gid va cl with
  | (s, .hit e) =>
    if e.type < 5 then s.readPage gid va 8 cl
    else if s.pathHeld (walkerDie cl) (e.hdie s) then (s, .wait false)
    else if !e.r then (s, .fail (copyErr 2 va))
    else if e.type = 5 then
      let s := s.mapSync e va
      let key := memKey 0 (e.home s) (e.pa va / 128 * 128)
      if inScope (s.physN (key + 8) 8) s.here then (s, .ok (s.phys (key + e.pa va % 128) 8)) else (s, .fail (copyErr 2 va))
    else
      let dk := e.hdie s
      match if e.type = 6 then s.readQueuePage dk (bits e.dw0 19 16) (va - e.base) 8 { gid := gid, dk := s.dk } else s.readReg dk (e.pa va) 8 { gid := gid, dk := s.dk } with
      | .ok s v => (s, .ok (bytesOfWord 8 v))
      | .fail sub => (s, .fail (copyErr sub va))
      | .wait s => (s, .wait false)
  | (s, .fail sub) => (s, .fail (copyErr sub va))
  | (s, .absent) | (s, .promote _) => (s, .wait true)

/-- How the check of the guards ends: the directory entry, the first failure with the entry it invalidates, or a wait for a page. -/
inductive Guards where
  | ok (e : Nat)
  | bad (f : GuardFail) (e : Option Nat)
  | wait

/-- Value guards read in order (R334): a read that fails counts as a mismatch. What the reads leave (R361, R364) stands. -/
def State.valueGuards (s : State) (gid cl e : Nat) : List (List Nat × Nat) → State × Guards
  | [] => (s, .ok e)
  | (g, i) :: rest =>
    let a := g.getD 1 0
    match s.readAsGld gid a cl with
    | (s, .wait _) => (s, .wait)
    | (s, .ok bs) => if wordOfBytes bs = g.getD 2 0 then s.valueGuards gid cl e rest
        else (s, .bad { kind := 3, index := i, addr := a, value := wordOfBytes bs, reason := 3 } (some e))
    | (s, .fail _) => (s, .bad { kind := 3, index := i, addr := a, reason := 3 } (some e))

/-- The guards checked before the first entry, in the order 4, 5, 1, 2, early 3 (R335). -/
def State.checkGuards (s : State) (w : Crew) (gid num_ : Nat) (patch : List Word) : State × Guards :=
  let first := pack w.x0 w.y0
  let dk := s.dieKey first
  let d := s.die dk
  let ctx := s.ctxOn dk gid
  match (d.dirFind num_ ctx [2]).or ((d.dirFind num_ ctx [3]).filter fun i => d.dirReason i == 1) with
  | none => (s, .bad { kind := 4 } none)
  | some e =>
    if w.x1 - w.x0 + 1 != d.negW e || w.y1 - w.y0 + 1 != d.negH e then (s, .bad { kind := 5 } none)
    else if d.dirState e = 3 then
      let g := ((findKey (·.1) d.guardHit e).map (·.2)).getD 0
      (s, .bad { kind := 1, index := g, addr := ((d.negGuards e).getD g []).getD 1 0, reason := 1 } (some e))
    else
      let geom := (d.negDecls e).any fun x => bits x.1 15 12 != 2 && (patch.getD (bits x.1 29 24) 0).toNat / 2 ^ 48 != x.2 / 2 ^ 48
      if geom then (s, .bad { kind := 2, reason := 2 } (some e))
      else
        let r := (s.focus first 0).valueGuards gid (engineWalker dk) e ((d.negGuards e).zipIdx.filter fun g =>
        let d3 := g.1.getD 3 0
        g.1.getD 0 0 % 16 == 3 && match d.negStream e (d.negUv e (d3 % 2 ^ 12)) with
          | some st => bit (d.negEntry e st.1 (d3 / 2 ^ 32)).word 0
          | none => false)
        (r.1.focus s.here s.k, r.2)

/-! ## Placement (R314, R315, R335) -/

/-- A launch with a tape (R335, R336): a print where the guards have passed; else the crew's code, or the job's failure. -/
def State.startTape (s : State) (w : Crew) (r : List Word) (code : List Byte) (patch : List Word) (g : Guards) : State :=
  match g with
  | .wait => s
  | .bad f e =>
    let s := (s.focus (pack w.x0 w.y0) 0).guardFailed w (recTape r) (f, e)
    if bit (rec_ r 0) 27 then
      let s := s.releaseCrew w
      (s.endJob w.job 0x13 f.kind).tidyJobs
    else s.startCrew w r code
  | .ok e =>
    let s := w.coords.foldl (fun s c => s.atCore c 0 fun s => s.modNi fun n => { n with unstarted := false }) s
    let (s, id) := s.openPrint w (recTape r) e patch true
    let d := s.die (s.crewDie w)
    w.coords.foldl (fun s c => s.atCore c 0 fun s =>
      if (d.negStream e (pack (unpackX c - w.x0) (unpackY c - w.y0))).isNone then s
      else (s.modSt fun t => { t with csr := { t.csr with fpctl := word w.fpctl, jobno := word (recJob r), taskid := word w.idx } }).drive id 0) s

/-- A crew placed at (x0, y0) (R314, R315), with what its tape's guards gave. -/
def State.placeCrew (s : State) (n : Nat) (v : Waiter) (job : Job) (x0 y0 : Nat) (cellars : List (Nat × Nat))
    (gates : List (Nat × Nat × Nat)) (code : List Byte) (patch : List Word) (g : Guards) : State :=
  let r := job.record
  let d0 := rec_ r 0
  let w : Crew := { id := s.sys.nextId, job := job.id, idx := v.crew, x0 := x0, y0 := y0, x1 := x0 + recW r - 1, y1 := y0 + recH r - 1
                    gates := gates, fpctl := bits d0 62 53, mapped := bit d0 25, cellars := cellars, since := s.sys.now }
  let more := v.crew + 1 < recCrews r
  let s := s.modSys fun y => { y with
    nextId := y.nextId + 1, crews := y.crews ++ [w]
    waiters := if more then y.waiters.set n { v with crew := v.crew + 1, job := some job.id, since := y.now, aged := false, target := none }
               else y.waiters.eraseIdx n }
  let s := s.modJob job.id fun j => { j with placed := j.placed + 1 }
  let items := s.items job.gid
  let back := (s.here, s.k)
  let s := w.coords.zipIdx.foldl (fun s c => s.takeCore w r c.1 ((cellars.getD c.2 (0, 0)).1) items) s
  let s := if bit d0 26 then w.coords.foldl (fun s c => s.atCore c 0 fun s =>
      match s.mayRecord (recTape r) with
      | some w => s.beginRecording w (recTape r)
      | none => s) s else s
  let s := if recTape r != 0 && !bit d0 26 then s.startTape w r code patch g else s.startCrew w r code
  s.focus back.1 back.2

/-- The record that a waiter stands for (R313): its job's, or the head of its queue. -/
def State.waiterRecord (s : State) (v : Waiter) : State × Res :=
  match v.job.bind s.jobOf with
  | some j => (s, .ok (j.record.flatMap fun x => bytesOfWord 8 x.toNat))
  | none => s.headRecord v.die v.queue

/-- A waiting record that fails after its claim by the launch unit (R312): its job ends with the status, and no further core starts. -/
def State.failWaiter (s : State) (n : Nat) (v : Waiter) (r : List Word) (status sub : Nat) : State :=
  let s := s.modSys fun y => { y with waiters := y.waiters.eraseIdx n }
  match v.job with
  | some id => (s.endJob id status sub).tidyJobs
  | none => s.failRecord v.die v.queue r status sub

/-- Whether a launch queue of a module holds a record of a higher priority (R313). -/
def State.outranked (s : State) (module prio : Nat) : Bool := (s.launchQueues module).any fun q => prio < s.prioOf q.1 q.2

/-- LAUNCH_PLACE (R313, R314): waiting record n placed on a free rectangle; its record is claimed with its first crew. An image that can be read
no more ends the job with COPY_ERR (R312), a failed routing check with ROUTE_CHECK (R23). -/
def execLaunchPlace (n : Nat) (s : State) : Host.Outcome State Fault Refusal :=
  match s.sys.waiters[n]? with
  | none => .next s
  | some v =>
    let dk := v.die
    let q := (s.die dk).queue v.queue
    let owner := (s.die dk).ctx q.owner
    let gid := s.ownerGid dk q.owner
    if s.stale v then .next (s.modSys fun y => { y with waiters := y.waiters.eraseIdx n })
    else match (if v.aged then v.target.filter fun t => s.rectFree t.1 t.2 (t.1 + v.w - 1) (t.2 + v.h - 1) (some n)
      else s.freePlace owner v.w v.h (some n)), s.waiterRecord v with
    | some (x0, y0), (s, .ok bs) =>
      let r := toWords 8 (wordOfBytes bs)
      let x1 := x0 + v.w - 1
      let y1 := y0 + v.h - 1
      if (!v.aged && (s.blocked (dk / 4) q.prio (some n) || s.resumes (dk / 4) q.prio)) || s.outranked (dk / 4) q.prio then .next s
      else if v.job.isNone && s.liveJob gid (recJob r) then .next (s.failWaiter n v r 1 2)
      else match s.readImages gid (engineWalker dk) r with
        | (s, .wait) => .next s
        | (s, .bad t) => .next (s.failWaiter n v r t.code t.sub)
        | (s, .ok code routing patch) =>
          let used := s.poolUsed gid
          match (cellarsIn owner.pool.1 owner.pool.2 (cellarBytes (bits (rec_ r 0) 33 31)) (v.w * v.h) used).filter fun cs =>
              (placeIn owner.pool.1 owner.pool.2 (2 ^ 21) (2 ^ 21 * (1 + v.w * v.h)) (cs ++ used)).isSome with
          | none => .next s
          | some cs => match (routesOf routing (owner.dw 4) x0 y0 x1 y1).filter fun _ => !bit (rec_ r 0) 24 || s.wrapWorks x0 y0 x1 y1 with
            | none => .next (s.failWaiter n v r 0x1A 0)
            | some gates =>
              let rect : Crew := { id := 0, job := 0, idx := v.crew, x0 := x0, y0 := y0, x1 := x1, y1 := y1 }
              match if recTape r != 0 && !bit (rec_ r 0) 26 then s.checkGuards rect gid (recTape r) patch else (s, .ok 0) with
              | (s, .wait) => .next s
              | (s, g) =>
                let (s, job) := match v.job.bind s.jobOf with
                  | some j => (s, j)
                  | none =>
                    let j : Job := { id := s.sys.nextId, num := recJob r, gid := gid, die := dk, ctx := q.owner, queue := s.handleOf dk v.queue
                                     ticket := q.head, record := r }
                    (((s.qTake dk v.queue).1.queueChanged dk).modSys fun y => { y with nextId := y.nextId + 1, jobs := y.jobs ++ [j] }, j)
                .next (s.placeCrew n v job x0 y0 cs gates code patch g)
    | _, (s, .fail _) => .next (((s.qTake dk v.queue).1.queueChanged dk).modSys fun y => { y with waiters := y.waiters.eraseIdx n })
    | _, (s, _) => .next s

end Sys2Proof.Machine
end

