-- ==== Sys2Proof/Machine/Access.lean ====
section
/-! DEFINITION. Accesses of pages by translated address (R70, R71, R76, R219, R229, R364): the accessor, one access of a leaf, GLD, GST and
PREF, their completion by target type, accesses of tasks against versions (R272), walks that finish or wait (R363, R364), the tile window
(R157) and the checks on busy tiles (R172). -/

namespace Sys2Proof.Machine

/-! ## Accessors -/

/-- Who makes an access (R239): the context, the cluster whose walkers translate, the job whose rectangle bounds it, the strand's identity
with its detector state at issue, whether the detector
leaves it out (a task's accesses, R226), whether a handler started by a kind-3 message forbids it another core's scratchpad (R209), the issuing pc
and the class, and the core whose data TLB it was issued through (R355). -/
structure Party where
  gid : Nat
  cl : Nat
  job : Nat
  me : Nat
  rc : Nat := 0
  stamp : Option (Nat × Nat) := none
  acq : List (Nat × Nat) := []
  ovf : Bool := false
  quiet : Bool := false
  hp : Bool := false
  pc : Nat := 0
  cls : Nat := 0
  tlb : Option Nat := none

/-- The accessor of an operation of the focused strand. Of those that reach another core's scratchpad, R209 bars GLD, GST and CPY. -/
def State.party (s : State) (o : Op) : Party :=
  { gid := s.gid, cl := s.cl, job := (s.job.map (·.num)).getD 0, me := s.me, rc := o.rc, stamp := o.rstamp, acq := o.racq, ovf := o.rovf
    hp := o.hp && (o.kind == .gld || o.kind == .gst || o.kind == .copy || o.kind == .armed), pc := o.pc, cls := o.cls.no, tlb := some s.here }

/-- Whether a core lies in a rectangle of the accessor's job (R82, UNREACHABLE). -/
def State.inJob (s : State) (p : Party) (c : Nat) : Bool :=
  s.sys.crews.any fun w => inRect c w.x0 w.y0 w.x1 w.y1 && match s.jobOf w.job with
    | some j => j.num == p.job && j.gid == p.gid
    | none => false

/-- The doublewords that n bytes at an address touch, with the address that stands for each. -/
def dwords (a n : Nat) : List Nat := (List.range ((a + n + 7) / 8 - a / 8)).map fun i => a / 8 + i

/-- The race an access meets (R229): the first doubleword whose tag races, as a trap with the address given for it. -/
def Party.race (p : Party) (tags : List (Nat × RaceTag)) (key n : Nat) (addr : Nat → Nat) (wr : Bool) : Option Trap :=
  (dwords key n).findSome? fun d => (tags.find? fun t => t.1 == d).bind fun t =>
    if races t.2 p.me p.stamp p.acq p.ovf then some (raceTrap t.2 p.pc p.cls (addr (d * 8)) wr) else none

/-- The tags an access's writes leave (R228). -/
def Party.tag (p : Party) (tags : List (Nat × RaceTag)) (key n : Nat) : List (Nat × RaceTag) :=
  (dwords key n).foldl (fun ts d => putKey (·.1) (d, { writer := p.me, rc := p.rc, stamp := p.stamp }) ts) tags

/-- The tags of the lines that an access touches, those dropped whose line has left the cluster cache since: when a line leaves is free
(R227; log entry 45). -/
def State.evict (s : State) (key n : Nat) : State :=
  let ls := ((dwords key n).filter fun d => s.sys.tags.any fun t => t.1 == d).map fun d => d / 8
  if ls.isEmpty then s
  else
    let gone := ls.eraseDups.zipIdx.filter fun l => Config.freeBit (s.draw + l.2)
    { s.modSys fun y => { y with tags := y.tags.filter fun t => !gone.any fun l => l.1 == t.1 / 8 } with draw := s.draw + ls.length }

/-- One access within a leaf, of plain memory or a scratchpad, by an engine or a strand (R76, R229, R239, R346): rights, the read-duplicate
rule, the target core, another core's porch and an HP-started handler (R202, R209), a die in a relock on its way (R342), the failure of the module that
serves it (R368, R409), an erased key (R384), races, sleeping banks; then it is performed, unless it is only tried. -/
def State.accessLeaf (s : State) (p : Party) (e : TlbEntry) (va n : Nat) (w : Option (List Byte)) (dry : Bool) : State × Res :=
  let wr := w.isSome
  let module := if wr then e.home s else e.readHome s (walkerModule p.cl)
  if s.pathHeld (walkerDie p.cl) (e.dieIn s module va) then (s, .wait false)
  else if wr && e.dup then (s, .fail (copyErr 3 va))
  else if (if wr then !e.w else !e.r) || 5 ≤ e.type then (s, .fail (copyErr 2 va))
  else if e.type = 4 then
    let c := e.scratchCore
    let off := e.scratchOff va
    let at_ := s.coreAt c
    if !s.inMesh c || at_.fenced || !s.inJob p c then (s, .fail (copyErr 9 va))
    else if c != p.me % 2 ^ 24 && (p.hp || (s.focus c 0).inPorch off n) then (s, .fail (copyErr 2 va))
    else match (if at_.racy && !p.quiet then p.race at_.tags off n (fun o => va + o - off) wr else none) with
      | some t => (s, .fail t)
      | none =>
        let banks := (s.focus c 0).sleeping ((dwords off n).map fun d => (d * 8, 8))
        if !banks.isEmpty then (s.atCore c 0 fun s => s.wake banks, .wait false)
        else match at_.softAt off n wr, w with
          | some a, _ => (s, .fail (softErr (va + (a - off))))
          | none, none => (s, .ok (at_.scratch.get off n))
          | none, some bs =>
            if dry then (s, .ok [])
            else (s.atCore c 0 fun s => s.modCore fun k =>
              { k.store off bs with tags := if k.racy && !p.quiet then p.tag k.tags off n else k.tags }, .ok [])
  else if (s.mod module).failed then (s, .fail (copyErr 9 va))
  else if e.type < 2 && s.keyless e.gid then (s, .fail (softErr va))
  else if !dry && e.onHost && Config.hostError s.draw then (s.drawn, .fail (copyErr 0x0A va))
  else
    let s := if !dry && e.onHost then s.drawn else s
    let key := memKey e.type (e.home s) (e.pa va)
    let s := if e.race && !p.quiet then s.evict key n else s
    match (if e.race && !p.quiet then p.race s.sys.tags key n (fun k => va + k - key) wr else none) with
    | some t => (s, .fail t)
    | none => match w with
      | none => match s.readFrame e module va n with
        | some bs => (s, .ok bs)
        | none => (s, .fail (softErr (s.badByte e module va n)))
      | some bs =>
        if dry then (s, .ok [])
        else ((s.writeFrame e va bs).modSys fun y => { y with tags := if e.race && !p.quiet then p.tag y.tags key n else y.tags }, .ok [])

/-- The translation of an engine's address (R355): the data TLB of the core that issued its command, else its cluster's. -/
def State.translateFor (s : State) (p : Party) (va : Nat) : State × Xlat :=
  match p.tlb.bind fun c => (s.coreAt c).dtlb.find? fun e => e.covers p.gid va with
  | some e => s.useLeaf e
  | none => s.translate p.gid va p.cl

/-- An access within one 64 KiB page by a device engine, translated. -/
def State.accessPage (s : State) (p : Party) (va n : Nat) (w : Option (List Byte)) (dry : Bool) : State × Res :=
  match s.translateFor p va with
  | (s, .fail sub) => (s, .fail (copyErr sub va))
  | (s, .absent) | (s, .promote _) => (s, .wait true)
  | (s, .hit e) => s.accessLeaf p e va n w dry

/-- A read of n bytes across pages by an engine: all of it, the first failure, or a wait. -/
def spanRead (p : Party) : Nat → State → Nat → Nat → State × Res
  | 0, s, _, _ => (s, .ok [])
  | fuel + 1, s, va, n =>
    if n = 0 then (s, .ok [])
    else
      let m := min n (65536 - va % 65536)
      match s.accessPage p va m none false with
      | (s, .ok bs) => match spanRead p fuel s (va + m) (n - m) with
        | (s, .ok rest) => (s, .ok (bs ++ rest))
        | r => r
      | r => r

/-- A write of bytes across pages by an engine, or only a trial of it: a page that fails is left as it is, the others are written, and the first
failure is the answer (R76). -/
def spanWrite (p : Party) (dry : Bool) : Nat → State → Nat → List Byte → State × Res
  | 0, s, _, _ => (s, .ok [])
  | fuel + 1, s, va, bs =>
    if bs.isEmpty then (s, .ok [])
    else
      let m := min bs.length (65536 - va % 65536)
      match s.accessPage p va m (some (bs.take m)) dry with
      | (s, .ok _) => spanWrite p dry fuel s (va + m) (bs.drop m)
      | (s, .fail t) => match spanWrite p dry fuel s (va + m) (bs.drop m) with
        | (s, .wait b) => (s, .wait b)
        | (s, _) => (s, .fail t)
      | r => r

/-- How many pages n bytes can touch. -/
def pagesOf (n : Nat) : Nat := n / 65536 + 2

/-- A read and a write of an engine on any number of bytes. -/
def State.engineRead (s : State) (p : Party) (va n : Nat) : State × Res := spanRead p (pagesOf n) s va n
def State.engineWrite (s : State) (p : Party) (va : Nat) (bs : List Byte) : State × Res := spanWrite p false (pagesOf bs.length) s va bs
def State.engineTry (s : State) (p : Party) (va : Nat) (bs : List Byte) : State × Res := spanWrite p true (pagesOf bs.length) s va bs

/-! ## Tiles (R153, R157, R160, R172) -/

/-- Whether an older operation of the core still touches a tile that this one touches, one of them writing (R160). -/
def Core.tileBlocked (c : Core) (o : Op) : Bool :=
  c.allOps.any fun p => p.id < o.id && !p.complete && p.tiles.any fun t => o.tiles.any fun u => t.1 == u.1 && (t.2 || u.2)

/-- The oldest of some operations. -/
def oldestOp (l : List Op) : Option Op := l.foldl (fun m o => match m with
  | some x => if o.id < x.id then some o else m
  | none => some o) none

/-- The trap TILE_BUSY of an access to a tile (R172): its case, and the pc of the oldest command that causes it. DESIGN CHOICE (log entry 77): where
cases 2 and 3 both hold, case 2 is reported. -/
def Core.tileBusy (c : Core) (t : Nat) (wr : Bool) : Option Trap :=
  let live := c.allOps.filter fun o => !o.complete
  let hit (case : Nat) (l : List Op) : Option Trap :=
    (oldestOp l).map fun o => { code := 8, info := word (t + case * 2 ^ 4 + o.pc % 2 ^ 48 * 2 ^ 16) }
  if 8 ≤ t then hit 1 (live.filter fun o => o.kind == .mxstep && o.tiles.contains (t, true))
  else if !wr then none
  else match hit 2 (live.filter fun o => o.kind == .mxstep && o.tiles.contains (t, false)) with
    | some x => some x
    | none => hit 3 (live.filter fun o => o.kind == .armed && o.tiles.contains (t, true))

/-- The offset in the focused cluster's tile window that a leaf maps an address to, when it maps it there (R157, R438). -/
def State.windowOff (s : State) (e : TlbEntry) (va : Nat) : Option (Nat × Nat) :=
  let off := e.pa va
  if e.type = 7 && 0x100000000 ≤ off && off < 0x100000000 + 36 * 0x100000 && off % 0x100000 < 0xC0000
  then some (e.hdie s * 36 + (off - 0x100000000) / 0x100000, off % 0x100000) else none

/-- The tile of the focused core that a leaf maps an address to (R157): the tile and the byte in the core's tile file. -/
def State.ownTile (s : State) (e : TlbEntry) (va : Nat) : Option (Nat × Nat) :=
  match s.windowOff e va with
  | some (cl, off) => if cl = s.cl && off / 0xC000 = coreInCluster s.here then some (off % 0xC000 / 4096, off % 0xC000) else none
  | none => none

/-! ## GLD, GST, PREF (R70 to R72) -/

/-- The leaf that a strand's pointer reaches now. -/
def State.leafNow (s : State) (p : Word) : Option TlbEntry := s.leafFor (p.toNat % 2 ^ 48)

/-- The doubleword of memory or of a device that a pending GLD or GST of the focused strand reaches, as a key; none in a scratchpad. -/
def State.wordOf (s : State) (o : Op) : Option Nat :=
  if o.kind == .gld || o.kind == .gst then (s.leafNow o.a).bind fun e =>
    if e.type = 4 then none
    else if e.type < 4 then some (memKey e.type (e.home s) (e.pa (o.a.toNat % 2 ^ 48)) / 8 * 8)
    else some (2 ^ 91 + e.hdie s * 2 ^ 64 + e.pa (o.a.toNat % 2 ^ 48) / 8 * 8)
  else none

/-- Whether two accesses of the focused strand are to one doubleword: by their address, or by what their pages map now. -/
def State.sameWord (s : State) (o p : Op) : Bool :=
  (p.kind == .gld || p.kind == .gst) && (o.a.toNat % 2 ^ 48 / 8 == p.a.toNat % 2 ^ 48 / 8
    || (match s.wordOf o with
      | some k => s.wordOf p == some k
      | none => false))

/-- Whether an earlier access of the strand to the same doubleword is not performed (R220), or the tile is still in use (R160). -/
def State.accessBlocked (s : State) (o : Op) (before : Nat) : Bool :=
  s.core.tileBlocked o
  || (s.st.ops.any fun p => p.id < before && !p.complete && s.sameWord o p)
  || (match s.leafNow o.a with
    | some e => e.type == 4 && s.behind before e.scratchCore none [(e.scratchOff (o.a.toNat % 2 ^ 48), o.n)]
    | none => false)

/-- A GLD or GST to another core's scratchpad becomes a remote access on channel 0 (R71): it enters the outbound buffer behind every earlier
access of its core that forms a message (R199), when the reply table and the buffer have room; while the table has none, its strand stalls in WAIT
(R201). It bears the strand's detector state at its issue (R228). A handler started by a kind-3 message may not form one (R209): PROT. The range locks of its own cluster are checked here, those of the
target's cluster at the target (R236). -/
def State.sendAccess (s : State) (o : Op) (e : TlbEntry) : State :=
  let va := o.a.toNat % 2 ^ 48
  let c := e.scratchCore
  let off := e.scratchOff va
  let wr := o.kind == .gst
  if (if wr then !e.w else !e.r) || o.hp then s.completeOp o (some (copyErr 2 va)) 0 none
  else if !s.inMesh c || !s.reaches c then s.completeOp o (some (copyErr 9 va)) 0 none
  else match s.lockedBy s.cl s.me (scratchSide c) [(off, o.n)] wr with
  | some l => s.completeOp o (some (lockTrap l o.pc o.cls.no va wr)) 0 none
  | none =>
    let mark (f : Op → Op) (s : State) : State := s.modSt fun t => { t with ops := t.ops.map fun p => if p.id = o.id then f p else p }
    if !s.hasReply o && !s.replyFree then (mark (fun p => { p with stalled := true }) s).park
    else if s.outFull || s.unsent o.id then s
    else
      let s := mark (fun p => { p with started := true, stalled := false, target := c }) s
      let s := s.modNi fun n => { n with reply := (n.reply.filter fun e => !(e.strand == s.k && e.op == o.id))
        ++ [{ group := if wr then 0 else 1, ch := 0, server := c, target := off, strand := s.k, op := o.id }] }
      s.enterAs { rc := o.rc, stamp := o.rstamp, acq := o.racq, ovf := o.rovf } (if wr then 1 else 2) 0 0 2 off c
        (if wr then [word o.n, o.b] else [word (Nat.log2 o.n)]) none none .none

/-- A GLD or GST issued (R71, R201): one that reaches another core's scratchpad takes its entry of the reply table, stalling while there is none,
and forms its message at once where its translation is at hand, stalling while the outbound buffer is full; one that has to wait for an earlier
access (R199, R220) does so as an outstanding access, and so does one of a task (R272). Where its translation is not at hand, a walk begins (R355). -/
def accessIssue (o : Op) (s : State) : Act :=
  let va := o.a.toNat % 2 ^ 48
  let here := s.cached va
  let o := { o with walking := here.isNone && bits o.a.toNat 53 48 == 0 && s.walkRoom s.gid va s.cl }
  match (s.leafNow o.a).filter fun e => e.type == 4 && e.scratchCore != s.here && bits o.a.toNat 53 48 == 0 && s.st.task.isNone with
  | none => issueOp o s id
  | some e =>
    let now := here.isSome && !s.unsent s.sys.nextId && !s.accessBlocked o s.sys.nextId
    if !s.hpStarted && (!s.replyFree || (now && s.outFull)) then .hold
    else issueOp o s fun s => match s.st.ops.getLast? with
      | some o => if now then s.sendAccess o e else if o.hp then s else s.takeReply (if o.kind = .gst then 0 else 1) 0 e.scratchCore (e.scratchOff va)
      | none => s

/-- GLD and GST issued (R70): ADDR_OVF, ALIGN, the busy checks of a scalar tile access (R172), the engine's rules on a SYNC page (R222,
R246), then the operation. -/
def globalIssue (o : Op) (p : Word) (off : Int) (wr : Bool) (s : State) : Act :=
  match vaPlus p off with
  | none => .code 4
  | some va =>
    if va % o.n != 0 then .code 3
    else
      let o := { o with a := word (va + bits p.toNat 63 48 * 2 ^ 48) }
      let leaf := s.leafNow o.a
      let tile := leaf.bind fun e => s.ownTile e va
      match tile.bind fun t => s.core.tileBusy t.1 wr with
      | some t => .trap t id
      | none =>
        let o := { o with tiles := match tile with | some t => [(t.1, wr)] | none => [] }
        let s := if wr then s.sideEffect else s
        if (leaf.map fun e => e.type == 5).getD false then
          let eng := s.engineOf o.a
          if s.st.ops.any fun p => !p.complete && s.syncOp p && p.target != eng then .hold
          else issueOp { o with target := eng } (if wr then s.release else s) id
        else accessIssue o s

/-- gld (R70): into g0 the value is discarded. -/
def execGld (d a off sz z g : Nat) : State → Host.Outcome State Fault Refusal :=
  let n := bytesOfSize sz
  issue g [d, a] fun s => src a s fun x s =>
    globalIssue { kind := .gld, cls := .l, n := n, d := destOf d, sgn := z == 0 } x (sext 9 off * n) false s

/-- gst (R70): captures the low n bytes. -/
def execGst (d a off sz g : Nat) : State → Host.Outcome State Fault Refusal :=
  let n := bytesOfSize sz
  issue g [a, d] fun s => src a s fun x s => src d s fun v s =>
    globalIssue { kind := .gst, cls := .s, n := n, b := word (v.toNat % 2 ^ (8 * n)) } x (sext 9 off * n) true s

/-- pref (R70): no visible state changes. -/
def execPref (a _off g : Nat) : State → Host.Outcome State Fault Refusal := issue g [a] fun s => src a s fun _ s => .next s

/-- pref.tier (R70). -/
def execPrefTier (a _off g : Nat) : State → Host.Outcome State Fault Refusal := issue g [a] fun s => src a s fun _ s => .next s

/-! ## Performing a global access (R71, R219, R220) -/

/-- The reply-table entry of an operation freed, where it has come to need none (R201). -/
def State.freeEntry (s : State) (o : Op) : State :=
  if (s.st.opById o.id).any fun p => !p.complete then s
  else s.modNi fun n => { n with reply := n.reply.filter fun e => !(e.strand == s.k && e.op == o.id) }

/-- The value of a GLD and the completion of a GST. -/
def State.loaded (s : State) (o : Op) (bs : List Byte) : State :=
  s.completeOp o none 0 (if o.kind = .gld then some (extend (8 * o.n) o.sgn (wordOfBytes bs)) else none)

/-- The bytes a GST writes. -/
def Op.bytes (o : Op) : Option (List Byte) := if o.kind = .gst then some (bytesOfWord o.n o.b.toNat) else none

/-- An access of plain memory or the own scratchpad performed for a strand: the locks of other issuers (R236), then the leaf. A task is not
checked by the detector (R272), and its stores to the scratchpad stay in its frame (R266). -/
def State.moveLeaf (s : State) (o : Op) (e : TlbEntry) : State :=
  let va := o.a.toNat % 2 ^ 48
  let wr := o.kind == .gst
  let spec := s.st.task.isSome
  let (side, at_) := if e.type = 4 then (scratchSide s.here, e.scratchOff va) else (s.gid, va)
  let refused := if wr then e.dup || !e.w else !e.r
  if !refused && e.type = 4 && spec && wr && !inFrame s.taskFrame at_ o.n then s.completeOp o (some (plainTrap 0x12)) 0 none
  else match (if refused then none else s.lockedBy s.cl s.me side [(at_, o.n)] wr) with
    | some l => s.completeOp o (some (lockTrap l o.pc o.cls.no va wr)) 0 none
    | none =>
      match s.accessLeaf { s.party o with quiet := spec } e va o.n o.bytes false with
      | (s, .ok bs) => s.loaded o bs
      | (s, .fail t) => s.completeOp o (some t) 0 none
      | (s, .wait _) => s

/-- A scalar tile access or an access of a device register (R157, R219, R426). -/
def State.moveMmio (s : State) (o : Op) (e : TlbEntry) : State :=
  let va := o.a.toNat % 2 ^ 48
  let prot : State := s.completeOp o (some (copyErr 2 va)) 0 none
  if s.pathHeld s.dk (e.hdie s) then s
  else if (if o.kind = .gst then !e.w else !e.r) then prot
  else match s.windowOff e va with
    | some _ => match s.ownTile e va with
      | some (_, off) =>
        if o.kind = .gld then s.loaded o (s.core.tiles.get off o.n)
        else (s.modCore fun c => { c with tiles := c.tiles.wrN off o.n o.b.toNat, dirty := dirtied c.dirty 1024 off o.n }).completeOp o none 0 none
      | none => prot
    | none =>
      let who : Who := { gid := s.gid, dk := s.dk }
      let dk := e.hdie s
      let r := match e.type, o.kind with
        | 6, .gld => s.readQueuePage dk (bits e.dw0 19 16) (va - e.base) o.n who
        | 6, _ => s.writeQueuePage dk (bits e.dw0 19 16) (va - e.base) o.n o.b.toNat who
        | _, .gld => s.readReg dk (e.pa va) o.n who
        | _, _ => s.writeReg dk (e.pa va) o.n o.b.toNat who
      match r with
      | .ok s v => s.completeOp o none 0 (if o.kind = .gld then some (extend (8 * o.n) o.sgn v) else none)
      | .fail sub => s.completeOp o (some (copyErr sub va)) 0 none
      | .wait s => s

/-- GLOBAL_ACCESS_COMPLETE (R70, R71): a GLD or GST whose translation is at hand is performed at its home. -/
def execGlobalAccessComplete (c k id : Nat) : State → Host.Outcome State Fault Refusal :=
  opEvent c k id (fun o => (o.kind == .gld || o.kind == .gst) && !o.started) fun o s =>
    let va := o.a.toNat % 2 ^ 48
    if bits o.a.toNat 53 48 != 0 then s.completeOp o (some (copyErr 4 va)) 0 none
    else match s.cached va with
      | none => s
      | some e =>
        if s.accessBlocked o o.id || e.promotes then s
        else if s.st.task.isSome && !(e.type = 4 && e.scratchCore = s.here) then
          if e.type < 2 then s else s.completeOp o (some (plainTrap 0x12)) 0 none
        else if e.type = 5 then s
        else if e.type < 4 || (e.type = 4 && e.scratchCore = s.here) then (s.moveLeaf o e).freeEntry o
        else if e.type = 4 then (s.sendAccess o e).freeEntry o
        else (s.moveMmio o e).freeEntry o

/-! ## Tasks (R272) -/

/-- The version of a doubleword in a job. -/
def State.versionAt (s : State) (jk key : Nat) : Option Version := s.sys.versions.find? fun v => v.job == jk && v.addr == key

/-- The committed bytes with a version's bytes over them. -/
def Version.over (v : Version) (old : Nat) : Nat :=
  ofLanes 8 ((List.range 8).map fun i => if bit v.mask i then v.value.toNat / 2 ^ (8 * i) % 256 else old / 2 ^ (8 * i) % 256)

/-- Task u becomes a dependence of task t (R272). -/
def State.depend (s : State) (t : TaskRef) (u : Nat) : State :=
  s.modTasks t.cluster fun l => l.map fun x => if x.id = t.id && !x.deps.contains u then { x with deps := u :: x.deps } else x

/-- The ways of a cluster's cache slice that are gated or fenced (R345, R410). -/
def Cluster.gated (c : Cluster) : List Nat := (c.ways.map (·.1) ++ c.badWays).eraseDups

/-- The version entries of a home bank: at least one (R272, R346; log entry 34). -/
def State.versionRoom (s : State) (bank : Nat) : Nat := max 1 (Config.versionRoom (16 - (s.cluster bank).gated.length))

/-- A free version entry at a bank for a task's write: with none free the bank aborts its latest task there that is after the writer; none
while the write waits (R272). -/
def State.versionEntry (s : State) (jk bank : Nat) (me : Nat × Nat) : Option State :=
  let there := s.sys.versions.filter fun v => v.bank == bank
  if there.length < s.versionRoom bank then some s
  else (lastKey Version.task (there.filter fun v => v.job == jk && keyBefore me v.task)).map fun v => s.abortTasks jk [v.task.2]

/-- Whether the focused strand still runs a task: it has not been aborted (R273). -/
def State.stillRuns (s : State) (r : TaskRef) : Bool := s.st.task.any fun t => t.ts == r.ts && t.id == r.id && t.cluster == r.cluster

/-- VERSIONED_ACCESS (R272): a task's GLD or GST to a DEVMEM or TIER doubleword performed against the versions at its home. -/
def execVersionedAccess (c k id : Nat) : State → Host.Outcome State Fault Refusal :=
  opEvent c k id (fun o => (o.kind == .gld || o.kind == .gst) && !o.started) fun o s =>
    let va := o.a.toNat % 2 ^ 48
    match s.st.task, s.cached va with
    | some r, some e =>
      if 2 ≤ e.type || s.pathHeld s.dk (e.leafDie s va) || s.accessBlocked o o.id || e.promotes || bits o.a.toNat 53 48 != 0 then s
      else
        let wr := o.kind == .gst
        let jk := s.myJob
        let me := (r.ts, r.id)
        let key := memKey e.type (e.home s) (e.pa va) / 8
        if wr && e.dup then s.completeOp o (some (copyErr 3 va)) 0 none
        else if (if wr then !e.w else !e.r) then s.completeOp o (some (copyErr 2 va)) 0 none
        else match s.lockedBy s.cl s.me s.gid [(va, o.n)] wr with
          | some l => s.completeOp o (some (lockTrap l o.pc o.cls.no va wr)) 0 none
          | none =>
            let v := s.versionAt jk key
            let other := v.filter fun v => v.task != me
            let before := (other.map fun v => keyBefore v.task me).getD false
            if wr && before then s
            else
              let s := match other with
                | some u => if before then s.depend r u.task.2 else s.abortTasks jk [u.task.2]
                | none => s
              if !s.stillRuns r then s
              else if wr then
                match if (v.map fun v => v.task == me).getD false then some s else s.versionEntry jk (e.homeCluster s va) me with
                | none => s
                | some s =>
                let late := (s.sys.readers.filter fun x => x.job == jk && x.addr == key / 8 && keyBefore me x.task).map (·.task.2)
                let s := if late.isEmpty then s else s.abortTasks jk late
                if !s.stillRuns r then s else
                let old := (v.filter fun v => v.task == me).getD
                  { addr := key, task := me, job := jk, mask := 0, gid := s.gid, va := va / 8 * 8, bank := e.homeCluster s va, leaf := some e }
                let new := { old with value := word (mergeBytes old.value.toNat va o.n o.b.toNat), mask := old.mask ||| ((2 ^ o.n - 1) * 2 ^ (va % 8)) }
                let s := s.modSys fun y => { y with versions := new :: y.versions.filter fun v => !(v.job == jk && v.addr == key) }
                s.completeOp o none 0 none
              else
                let reader : Version := { addr := key / 8, task := me, job := jk }
                let module := e.readHome s (s.cl / 144)
                match s.readFrame e module (va / 8 * 8) 8 with
                | none => s.completeOp o (some (softErr va)) 0 none
                | some bs =>
                  let old := wordOfBytes bs
                  let full := match s.versionAt jk key with
                    | some v => v.over old
                    | none => old
                  let s := s.modSys fun y => if y.readers.contains reader then y else { y with readers := reader :: y.readers }
                  s.completeOp o none 0 (some (extend (8 * o.n) o.sgn (full / 2 ^ (8 * (va % 8)))))
    | _, _ => s

/-! ## Walks (R355, R363, R364) -/

/-- The address of an operation that waits for a walk. -/
def Op.walks (o : Op) : Bool := (o.kind == .gld || o.kind == .gst) && !o.started && bits o.a.toNat 53 48 == 0

/-- Whether a walk of an operation of the focused strand is in flight. -/
def State.setWalking (s : State) (o : Op) (b : Bool) : State :=
  s.modSt fun t => { t with ops := t.ops.map fun p => if p.id = o.id then { p with walking := b } else p }

/-- A leaf that a walk has found, in the caches of the focused core and its cluster; the promotion that it asks for (R355, R364). -/
def State.cacheLeaf (s : State) (e : TlbEntry) : State :=
  let s := (s.modCluster s.cl fun c => { c with tlb2 := (e :: c.tlb2).take 2048 }).modCore fun c => { c with dtlb := (e :: c.dtlb).take 64 }
  if e.promotes then s.wants e else s

/-- A walk for an operation of the focused strand ends: the caches filled, the failure of an unmapped address, or a wait for an ABSENT entry, which
gives up the walk's place (R355, R364; log entry 11). -/
def State.walkFor (s : State) (o : Op) : State :=
  let va := o.a.toNat % 2 ^ 48
  match (s.setWalking o false).walkIn s.gid va s.cl with
  | (s, .leaf e) => s.cacheLeaf e
  | (s, .unmapped) => (s.completeOp o (some (copyErr 1 va)) 0 none).freeEntry o
  | (s, .absent) => s.absent o

/-- PAGE_WALK_COMPLETE (R355, R363): a walk of a strand's address ends; one that waits for a free place takes it once there is one. -/
def execPageWalkComplete (c k id : Nat) : State → Host.Outcome State Fault Refusal :=
  opEvent c k id (fun o => o.walks && o.absentAt == 0) fun o s =>
    let va := o.a.toNat % 2 ^ 48
    if (s.cached va).isSome then s.setWalking o false
    else if o.walking || s.walkRoom s.gid va s.cl then s.walkFor o else s

/-- ABSENT_WALK_RETRY (R364): a walk that met an ABSENT entry reads it again after 10 µs, or once the page's move or a TLBINV has ended. -/
def execAbsentWalkRetry (c k id : Nat) : State → Host.Outcome State Fault Refusal :=
  opEvent c k id (fun o => o.walks && o.absentAt != 0) fun o s =>
    if s.sys.now < o.absentAt then s
    else
      let o' := { o with absentAt := 0 }
      (s.modSt fun t => { t with ops := t.ops.map fun p => if p.id = o.id then o' else p }).walkFor o'

end Sys2Proof.Machine
end

