-- ==== Sys2Proof/Machine/Tile.lean ====
section
/-! DEFINITION. Tiles: their geometry and layout (R153 to R156), the checks at issue (R159, R172), escapes and element values (R95 to R98,
R168, R169), TLD, TST, TZERO and TWAITC (R158 to R162), and the range locks every engine operation takes (R235). -/

namespace Sys2Proof.Machine

/-! ## Geometry (R154 to R156) -/

/-- Fields of an operand tile's geometry (R154). -/
def geomRows (g : Nat) : Nat := bits g 5 0
def geomK (g : Nat) : Nat := bits g 15 6
def geomFmt (g : Nat) : Nat := bits g 21 16
def geomBlen (g : Nat) : Nat := bits g 25 22

/-- Fields of an accumulator's geometry (R155). -/
def accCols (g : Nat) : Nat := bits g 11 6
def accInt (g : Nat) : Bool := bit g 12

/-- Kinds of formats (R43, R156). -/
def fmtDense (f : Nat) : Bool := 9 ≤ f && f ≤ 14
def fmtBlock (f : Nat) : Bool := 0x10 ≤ f && f ≤ 0x1F
def fmtPair (f : Nat) : Bool := f == 0x21 || f == 0x22

/-- The bits of an element of a dense or block format. -/
def fmtBits (f : Nat) : Nat :=
  if f = 9 || f = 10 then 16
  else if f = 12 then 4
  else if f = 14 then 2
  else if fmtBlock f then (if bits f 3 2 = 1 then 4 else if bits f 3 2 = 3 then 2 else 8)
  else 8

/-- The escapes a block format allows in a block (R43, R95). -/
def fmtEscapes (f : Nat) : Nat := [0, 1, 2, 4].getD (f % 4) 0

/-- The bytes of a row, and its pitch, of a dense format (R156). -/
def rowBytes (g : Nat) : Nat := (geomK g * fmtBits (geomFmt g) + 7) / 8
def rowPitch (g : Nat) : Nat := if rowBytes g ≤ 128 then 128 else rowBytes g

/-- The bytes of a block unit, and where the units of an image end (R96). -/
def unitBytes (g : Nat) : Nat := 16 + 2 * 2 ^ geomBlen g * fmtBits (geomFmt g)
def unitCount (g : Nat) : Nat := ((geomRows g * geomK g + 2 ^ geomBlen g - 1) / 2 ^ geomBlen g + 15) / 16

/-- Whether an operand geometry meets R154 and R156. DESIGN CHOICE (log entry 76): one whose FMT is a code that R156 gives no layout (0x00 to 0x04,
0x08 and the reserved ones) does not, so a tile command on it traps TILE_FMT. -/
def geomOk (g : Nat) : Bool :=
  let f := geomFmt g
  1 ≤ geomRows g && geomRows g ≤ 32 && 1 ≤ geomK g && geomK g ≤ 512 &&
  if fmtDense f then geomBlen g == 0 && (f != 12 || geomK g % 2 == 0) && (geomRows g - 1) * rowPitch g + rowBytes g ≤ 4096
  else if fmtBlock f then 4 ≤ geomBlen g && geomBlen g ≤ 7 && unitCount g * unitBytes g ≤ 3840
  else fmtPair f && geomBlen g == 0 && geomK g % 4 == 0 && geomK g ≤ 64

/-- Whether an accumulator geometry meets R155. -/
def accOk (g : Nat) : Bool := 1 ≤ geomRows g && geomRows g ≤ 32 && 1 ≤ accCols g && accCols g ≤ 32

/-- The trap TILE_FMT (R159, R167). -/
def tileFmt (t : Nat) : Trap := { code := 0x19, info := word (t % 16) }

/-- The geometry register of a tile of the focused core. -/
def Core.geomOf (c : Core) (t : Nat) : Nat := if t < 8 then (vget c.tgeom t 0).toNat else (vget c.ageom (t - 8) 0).toNat

/-- Whether a tile's geometry meets its limits. -/
def Core.tileOk (c : Core) (t : Nat) : Bool := if t < 8 then geomOk (c.geomOf t) else accOk (c.geomOf t)

/-- Fields of a fat pointer (R42), and the errors of R45 in a pointer whose format is decoded. -/
def ptrFmt (p : Word) : Nat := bits p.toNat 63 58
def ptrBlen (p : Word) : Nat := bits p.toNat 57 54
def fmtKnown (f : Nat) : Bool := f ≤ 4 || (8 ≤ f && f ≤ 14) || (0x10 ≤ f && f ≤ 0x22)
def ptrBad (p : Word) : Bool :=
  !fmtKnown (ptrFmt p) || bits p.toNat 53 48 != 0
  || (if fmtBlock (ptrFmt p) then ptrBlen p < 4 || 7 < ptrBlen p else ptrBlen p != 0)

/-- Whether a pointer's format disagrees with a tile's geometry (R159). -/
def ptrDisagrees (t g : Nat) (p : Word) : Bool :=
  if t < 8 then ptrFmt p != geomFmt g || ptrBlen p != geomBlen g else ptrFmt p != (if accInt g then 3 else 8)

/-- The bytes of a tile. -/
def Core.tileBytes (c : Core) (t : Nat) : List Byte := c.tiles.get (4096 * t) 4096

/-- Some bytes of a tile written; its POISON mark is then cleared, or the error's status is marked (R159, R162). -/
def Core.tilePut (c : Core) (t off : Nat) (bs : List Byte) : Core :=
  { c with tiles := c.tiles.put (4096 * t + off) bs, dirty := dirtied c.dirty 1024 (4096 * t + off) bs.length }
def Core.unpoison (c : Core) (t : Nat) : Core := { c with poison := dropKey (·.1) t c.poison }
def Core.poisoned (c : Core) (t : Nat) (x : Trap) : Core := { c with poison := putKey (·.1) (t, x) c.poison }

/-! ## Escapes and values (R95 to R98, R168, R169) -/

/-- The scale and the codes of a block image. -/
def blockParts (g : Nat) (img : List Byte) : List Nat × List Nat :=
  let w := fmtBits (geomFmt g)
  let us := (List.range (unitCount g)).map fun u => (img.drop (u * unitBytes g)).take (unitBytes g)
  (us.flatMap fun u => (u.take 16).map (·.toNat),
   (us.flatMap fun u => lanes w (16 * 2 ^ geomBlen g) (wordOfBytes (u.drop 16))).take (geomRows g * geomK g))

/-- The 64 entries of an outlier list (R97). -/
def outliers (img : List Byte) : List Nat := lanes 32 64 (wordOfBytes (img.drop 3840))

/-- The escape code of a block format (R95). -/
def escapeCode (f : Nat) : Nat := 2 ^ (fmtBits f - 1)

/-- The element numbers of the escapes of a block image, in ascending order. -/
def escapesOf (g : Nat) (codes : List Nat) : List Nat :=
  (codes.zipIdx.filter fun c => c.1 == escapeCode (geomFmt g)).map (·.2)

/-- The lowest list index at which a check of R98 fails. -/
def escapeFail (g : Nat) (img : List Byte) : Option Nat :=
  let f := geomFmt g
  let b := 2 ^ geomBlen g
  let es := escapesOf g (blockParts g img).2
  let list := outliers img
  let used (i : Nat) : Bool := list.getD i 0xFFFFFFFF / 2 ^ 16 != 0xFFFF
  let pos (i : Nat) : Nat := list.getD i 0 / 2 ^ 16
  let bad (i : Nat) : Bool :=
    (match es[i]? with
      | some e => 64 ≤ i || !used i || pos i != e || fmtEscapes f ≤ ((es.take i).filter fun x => x / b == e / b).length
      | none => i < 64 && used i)
    || (i < 64 && used i && (1 ≤ i && (!used (i - 1) || pos i ≤ pos (i - 1))))
    || (i < 64 && bits f 3 2 == 3 && (bits (list.getD i 0) 15 8 != 0 || list.getD i 0 % 2 ^ 16 == 0x80))
  (List.range (max 64 es.length)).find? bad

/-- The lowest number of a 2:4 group whose indices do not ascend (R169). -/
def pairFail (g : Nat) (img : List Byte) : Option Nat :=
  let half := geomK g / 2
  (List.range (geomRows g)).findSome? fun i =>
    let m := lanes 2 half (wordOfBytes ((img.drop (2048 + 8 * i)).take 8))
    (List.range (half / 2)).findSome? fun j => if m.getD (2 * j + 1) 0 ≤ m.getD (2 * j) 0 then some (i * half + 2 * j) else none

/-- What a check of a loaded or read tile reports (R98, R169): SPARSE_FMT, the index in the sub-reason and whole in the second party. -/
def sparseFmt (i : Nat) : Trap := { code := 0x0B, sub := i % 256, party := word i }

/-- The check of a block tile (R98). -/
def blockCheck (g : Nat) (img : List Byte) : Option Trap := if fmtBlock (geomFmt g) then (escapeFail g img).map sparseFmt else none

/-- The checks of a tile that a step reads (R98, R169). -/
def tileCheck (g : Nat) (img : List Byte) : Option Trap :=
  if fmtPair (geomFmt g) then (pairFail g img).map sparseFmt else blockCheck g img

/-- A finite value multiplied by 2^k. -/
def FVal.scaled (x : FVal) (k : Int) : FVal := match x with
  | .fin n m e => .fin n m (e + k)
  | v => v

/-- The value of a code of an element type of R95 (0 qf8, 1 qf4, 2 i8, 3 t2), and NV for a code that reads as 0 (R92, R93). -/
def codeVal (ty c : Nat) : FVal × Nat :=
  match ty with
  | 0 => (qf8.value false c, 0)
  | 1 => (qf4.value false c, 0)
  | 2 => if c = 0x80 then (intVal 0, flagNV) else (intVal (sext 8 c), 0)
  | _ => if c = 2 then (intVal 0, flagNV) else (intVal (sext 2 c), 0)

/-- The element type of a format. -/
def fmtType (f : Nat) : Nat := if fmtBlock f then bits f 3 2 else f - 11

/-- The value of a list entry of an i8 block in MXMT (R168): divided by the scale, rounded once, saturated to 16 bits. -/
def listInt (fiz : Bool) (v scale : Nat) : FVal × Nat :=
  match bf16.value fiz v with
  | .nan _ => (intVal 0, flagNV)
  | .inf n => (intVal (if n then -32768 else 32767), flagNV)
  | .fin n m e =>
    let r := roundAt 0 n m (e - ((if scale = 255 then 128 else (scale : Int) - 127))) 0
    let x : Int := if n then -(r.1 : Int) else r.1
    if x < -32768 then (intVal (-32768), flagNV)
    else if 32767 < x then (intVal 32767, flagNV)
    else (intVal x, if r.2 then flagNX else 0)

/-- The value of element e of a block image by its code, scale and list entry (R95, R98, R168). -/
def blockVal (f : Nat) (fiz ints : Bool) (code scale : Nat) (entry : Option Nat) : FVal × Nat :=
  let ty := fmtType f
  let k : Int := (scale : Int) - 127
  match entry with
  | some v =>
    if ty = 3 then
      if ints then (intVal (sext 8 v), 0)
      else if scale = 255 then (.nan false, flagNV)
      else ((intVal (sext 8 v)).scaled k, 0)
    else if ints then listInt fiz v scale
    else (bf16.value fiz v, 0)
  | none =>
    if ints then codeVal ty code
    else if scale = 255 then (.nan false, flagNV)
    else let r := codeVal ty code; (r.1.scaled k, r.2)

/-- The values of an operand tile, row by row, each with the flags that reading it sets (R168). -/
def tileVals (g : Nat) (fiz ints : Bool) (img : List Byte) : List (List (FVal × Nat)) :=
  let f := geomFmt g
  let k := geomK g
  if fmtDense f then
    (List.range (geomRows g)).map fun i =>
      (lanes (fmtBits f) k (wordOfBytes ((img.drop (i * rowPitch g)).take (rowBytes g)))).map fun c =>
        if f = 9 then (f16.value fiz c, 0) else if f = 10 then (bf16.value fiz c, 0) else codeVal (fmtType f) c
  else if fmtPair f then
    (List.range (geomRows g)).map fun i =>
      let vs := lanes 16 (k / 2) (wordOfBytes ((img.drop (64 * i)).take 64))
      let m := lanes 2 (k / 2) (wordOfBytes ((img.drop (2048 + 8 * i)).take 8))
      (List.range k).map fun c =>
        match [0, 1].find? fun j => m.getD (c / 4 * 2 + j) 0 == c % 4 with
        | some j => ((if f = 0x21 then f16 else bf16).value fiz (vs.getD (c / 4 * 2 + j) 0), 0)
        | none => (intVal 0, 0)
  else
    let (scales, codes) := blockParts g img
    let es := escapesOf g codes
    let list := outliers img
    let vals := codes.zipIdx.map fun c =>
      let entry := (es.zipIdx.find? fun x => x.1 == c.2).map fun x => list.getD x.2 0 % 2 ^ 16
      blockVal f fiz ints c.1 (scales.getD (c.2 / 2 ^ geomBlen g) 0) entry
    (List.range (geomRows g)).map fun i => (vals.drop (i * k)).take k

/-! ## Range locks (R235, R81) -/

/-- The sides of a bounding range of virtual addresses: one for each scratchpad it maps, and one for everything else, unless all its pages are
scratchpad pages. -/
def State.sidesOf (s : State) (gid lo hi : Nat) : List (Nat × Nat × Nat) :=
  let ps := (s.items gid).filterMap fun i => match i with
    | .page e => if e.base ≤ hi && lo < e.base + e.size then some e else none
    | _ => none
  let scr := (ps.filter fun e => e.type == 4).map fun e =>
    (scratchSide e.scratchCore, e.scratchOff (max lo e.base), e.scratchOff (min hi (e.base + e.size - 1)))
  let joined := scr.foldl (fun acc x => match findKey (·.1) acc x.1 with
    | some y => putKey (·.1) (x.1, min x.2.1 y.2.1, max x.2.2 y.2.2) acc
    | none => acc ++ [x]) []
  joined ++ (if scr.length < hi / 65536 + 1 - lo / 65536 then [(gid, lo, hi)] else [])

/-- The translations that the cluster holds of some addresses, in the data TLB of the core that issues a command with them (R355). -/
def State.fillData (s : State) (vas : List Nat) : State :=
  vas.foldl (fun s va =>
    if s.core.dtlb.any fun e => e.covers s.gid va then s
    else match (s.cluster s.cl).tlb2.find? fun e => e.covers s.gid va with
      | some e => s.modCore fun c => { c with dtlb := (e :: c.dtlb).take 64 }
      | none => s) s

/-- An engine operation issued (R222, R235): it takes an entry of the cluster's range-lock table, waiting for a free one; a copy's sides in
the own scratchpad also take entries of the range scoreboard (R81). The ranges are bounding ones, read and written, `va` their virtual addresses. -/
def engineSides (o : Op) (rs ws : List (Nat × Nat × Nat)) (va : List (Nat × Nat)) (s : State) (f : State → State) : Act :=
  let mine (l : List (Nat × Nat × Nat)) (w : Bool) : List (Nat × Nat × Bool) :=
    if o.cls = .c then (l.filter fun r => r.1 == scratchSide s.here).map fun r => (r.2.1, r.2.2, w) else []
  let own := mine rs false ++ mine ws true
  if 64 ≤ (s.cluster s.cl).locks.length || (own != [] && 16 < s.core.ranges.length + own.length) then .hold
  else issueOp o s.release fun s =>
    let id := (s.st.ops.getLast?.map (·.id)).getD 0
    let s := s.modCluster s.cl fun c => { c with locks := c.locks ++ [{ issuer := s.me, op := id, rd := rs, wr := ws, va := va.map fun r => (s.gid, r) }] }
    f ((s.fillData (va.map (·.1))).modCore fun c => { c with ranges := c.ranges ++ own.map fun r => { strand := s.k, op := id, lo := r.1, hi := r.2.1, write := r.2.2 } })

/-- An engine operation issued with its ranges as virtual addresses. -/
def engineIssue (o : Op) (rd wr : List (Nat × Nat)) (s : State) (f : State → State) : Act :=
  engineSides o (rd.flatMap fun r => s.sidesOf s.gid r.1 r.2) (wr.flatMap fun r => s.sidesOf s.gid r.1 r.2) (rd ++ wr) s f

/-- The bounding range of n runs of a length at a stride, when every address lies in 0 to 2^48 - 1 (R436). -/
def boundRuns (va : Nat) (stride : Int) (n len : Nat) : Option (Nat × Nat) :=
  let span : Int := stride * ((n : Int) - 1)
  let lo : Int := va + min 0 span
  let hi : Int := va + max 0 span + len - 1
  if lo < 0 ∨ 2 ^ 48 ≤ hi then none else some (lo.toNat, hi.toNat)

/-! ## TILE (R158 to R161) -/

/-- The memory rows of a tile command: how many, their bytes, their stride, their places in the tile (R156, R159). -/
structure TileRows where
  n : Nat
  len : Nat
  stride : Int
  pitch : Nat

/-- The rows a TLD or TST of a tile moves: dense formats and accumulators row by row, the others one image. -/
def tileRows (t g : Nat) (mstride : Word) : TileRows :=
  let st := sext 48 mstride.toNat
  if 8 ≤ t then { n := geomRows g, len := 4 * accCols g, stride := if st = 0 then (4 * accCols g : Nat) else st, pitch := 128 }
  else if fmtDense (geomFmt g) then
    { n := geomRows g, len := rowBytes g, stride := if st = 0 then (rowBytes g : Nat) else st, pitch := rowPitch g }
  else { n := 1, len := 4096, stride := 0, pitch := 4096 }

/-- The checks of a tile command (R159, R172), then its issue in class T; TZERO touches no memory and takes no range lock (R235). -/
def tileIssue (o : Op) (t : Nat) (ptr : Option Word) (wr : Bool) (s : State) : Act :=
  let g := s.core.geomOf t
  if !s.core.tileOk t || (match ptr with | some p => !ptrBad p && ptrDisagrees t g p | none => false) then .trap (tileFmt t) id
  else match s.core.tileBusy t wr with
    | some x => .trap x id
    | none =>
      let ms := vget s.st.shadow.mx 0 0
      let o := { o with cls := .t, n := t, geoms := [word g], regs := [ms], tiles := [(t, wr)] }
      let range := match ptr with
        | some p => let r := tileRows t g ms
                    if ptrBad p then none else boundRuns (p.toNat % 2 ^ 48) r.stride r.n r.len
        | none => none
      let one := match range with | some r => [r] | none => []
      let s := match ptr with
        | some p => s.recordCmd 1 [ms] s.ir s.fpctl 0 p [] (one.map fun r => (r.1, r.2 + 1 - r.1))
        | none => s.recordCmd 1 [ms] s.ir s.fpctl 0 0 [] []
      if ptr.isNone then issueOp o s.release id
      else engineIssue o (if wr then one else []) (if wr then [] else one) s id

/-- Bodies of tld, tst and tzero (R158). -/
def tldBody (t b : Nat) (s : State) : Act := src b s fun p s => tileIssue { kind := .tld, a := p } t (some p) true s
def tstBody (t b : Nat) (s : State) : Act := src b s fun p s => tileIssue { kind := .tst, a := p } t (some p) false s
def tzeroBody (t : Nat) (s : State) : Act := tileIssue { kind := .tzero } t none true s

/-- tld (R158). -/
def execTld (t b g : Nat) : State → Host.Outcome State Fault Refusal := issueNoSpec g [b] (tldBody t b)
/-- tst (R158). -/
def execTst (t b g : Nat) : State → Host.Outcome State Fault Refusal := issueNoSpec g [b] (tstBody t b)
/-- tzero (R158). -/
def execTzero (t g : Nat) : State → Host.Outcome State Fault Refusal := issueNoSpec g [] (tzeroBody t)

/-- Body of twaitc (R161): the steps of the core that read the tile have read it, and the strand's own writes of it have completed; it consumes the
oldest failure among those. -/
def twaitcBody (t : Nat) (s : State) : Act :=
  let reads := s.core.allOps.any fun o => o.kind == .mxstep && !o.complete && o.tiles.contains (t, false)
  let writer (o : Op) : Bool := (o.kind == .tld || o.kind == .qnt || o.kind == .armed) && (if o.kind = .armed then o.target else o.n) == t
  if reads || s.st.ops.any fun o => writer o && !o.complete then .hold
  else match s.st.ops.find? fun o => writer o && o.complete && o.fail.isSome with
    | some o => reportOp o
    | none => .next s.recordSync

/-- twaitc (R161). -/
def execTwaitc (t g : Nat) : State → Host.Outcome State Fault Refusal := issueNoSpec g [] (twaitcBody t)

/-! ## TILE_COMMAND_COMPLETE (R159, R162) -/

/-- Every row of a transfer read, or the first failure. -/
def readRows (p : Party) (va : Nat) (r : TileRows) : Nat → Nat → State → State × Res
  | 0, _, s => (s, .ok [])
  | n + 1, i, s =>
    match s.engineRead p ((va : Int) + i * r.stride).toNat r.len with
    | (s, .ok bs) => match readRows p va r n (i + 1) s with
      | (s, .ok rest) => (s, .ok (bs ++ rest))
      | x => x
    | x => x

/-- Every row of a transfer written, or only tried: pieces that fail write nothing, the others are performed; the first failure is kept. -/
def writeRows (p : Party) (va : Nat) (r : TileRows) : Nat → Nat → List Byte → State → Option Trap → State × Res
  | 0, _, _, s, t => (s, match t with | some t => .fail t | none => .ok [])
  | n + 1, i, bs, s, t =>
    match s.engineWrite p ((va : Int) + i * r.stride).toNat (bs.take r.len) with
    | (s, .ok _) => writeRows p va r n (i + 1) (bs.drop r.len) s t
    | (s, .fail x) => writeRows p va r n (i + 1) (bs.drop r.len) s (t.or (some x))
    | (s, .wait b) => (s, .wait b)

/-- Rows of bytes put into a tile at a pitch. -/
def Core.tileRowsPut (c : Core) (t : Nat) (r : TileRows) (bs : List Byte) : Core :=
  (List.range r.n).foldl (fun c i => c.tilePut t (i * r.pitch) ((bs.drop (i * r.len)).take r.len)) c

/-- The rows' bytes of a tile. -/
def rowsOf (r : TileRows) (img : List Byte) : List Byte := (List.range r.n).flatMap fun i => (img.drop (i * r.pitch)).take r.len

/-- A tile's write completes: its POISON mark follows its status (R162). -/
def State.tileDone (s : State) (o : Op) (t : Nat) (x : Option Trap) (fl : Nat) : State :=
  (match x with
    | some x => s.modCore fun c => c.poisoned t (o.trapOf x)
    | none => s.modCore fun c => c.unpoison t).completeOp o x fl none

/-- TILE_COMMAND_COMPLETE (R159, R162): a TLD, TST or TZERO is carried out once the tile's earlier commands allow it (R160). -/
def execTileCommandComplete (c k id : Nat) : State → Host.Outcome State Fault Refusal :=
  opEvent c k id (fun o => o.kind == .tld || o.kind == .tst || o.kind == .tzero) fun o s =>
    let t := o.n
    let g := (o.geoms.getD 0 0).toNat
    let va := o.a.toNat % 2 ^ 48
    let r := tileRows t g (o.regs.getD 0 0)
    let fail (s : State) (x : Trap) : State := if o.kind = .tld then s.tileDone o t (some x) 0 else s.completeOp o (some x) 0 none
    if s.core.tileBlocked o || s.sys.now < o.absentAt then s
    else if o.kind = .tzero then (s.modCore fun c => c.tilePut t 0 (List.replicate 4096 0)).tileDone o t none 0
    else if ptrBad o.a then fail s (copyErr 4 va)
    else if (boundRuns va r.stride r.n r.len).isNone then fail s (copyErr 8 va)
    else if o.kind = .tld then
      match readRows (s.party o) va r r.n 0 s with
      | (s, .wait page) => s.stallOp o page
      | (s, .fail x) => fail s x
      | (s, .ok bs) =>
        match if t < 8 then blockCheck g bs else none with
        | some x => fail s x
        | none => (s.modCore fun c => c.tileRowsPut t r bs).tileDone o t none 0
    else
      match writeRows (s.party o) va r r.n 0 (rowsOf r (s.core.tileBytes t)) s none with
      | (s, .wait page) => s.stallOp o page
      | (s, .fail x) => s.completeOp o (some x) 0 none
      | (s, _) => s.completeOp o none 0 none

end Sys2Proof.Machine
end

