-- ==== Sys2Proof/Machine/Copy.lean ====
section
/-! DEFINITION. Copies: CPY and its pieces (R74 to R77, R436), armed copies (R173), the copy agent (R83), and the hand-off of engine
commands (R205). A piece boundary that falls between the two elements of a qf4 byte is placed after the pair. -/

namespace Sys2Proof.Machine

/-! ## A copy's geometry (R74, R75) -/

/-- A copy: addresses, run length, runs, planes, strides, formats with their widths when it converts, FPCTL. -/
structure CopyJob where
  dst : Nat
  src : Nat
  len : Nat
  runs : Nat
  planes : Nat
  d1 : Int
  d2 : Int
  s1 : Int
  s2 : Int
  cv : Bool
  df : Option (Nat × Nat)
  sf : Option (Nat × Nat)
  fpctl : Nat

/-- The copy that a pair of pointers, the engine registers, the dimensions and the formats describe. -/
def copyJob (dst src : Word) (regs : List Word) (dims : Nat) (cv : Bool) (dfmt fpctl : Nat) : CopyJob :=
  let r (i : Nat) : Nat := (regs.getD i 0).toNat
  { dst := dst.toNat % 2 ^ 48, src := src.toNat % 2 ^ 48, len := r 0 % 2 ^ 25, runs := if 2 ≤ dims then r 1 else 1
    planes := if dims = 3 then r 2 else 1, d1 := sext 48 (r 3), d2 := sext 48 (r 4), s1 := sext 48 (r 5), s2 := sext 48 (r 6)
    cv := cv, df := cvtOfFmt dfmt, sf := cvtOfFmt (ptrFmt src), fpctl := fpctl }

/-- Element widths in bits: 8 for a copy that does not convert. -/
def CopyJob.sw (j : CopyJob) : Nat := if j.cv then (j.sf.map (·.2)).getD 8 else 8
def CopyJob.dw (j : CopyJob) : Nat := if j.cv then (j.df.map (·.2)).getD 8 else 8

/-- A run's bytes on each side. -/
def CopyJob.srcLen (j : CopyJob) : Nat := j.len * j.sw / 8
def CopyJob.dstLen (j : CopyJob) : Nat := j.len * j.dw / 8

/-- The elements moved together: whole bytes on both sides. -/
def CopyJob.unit (j : CopyJob) : Nat := if j.sw = 4 || j.dw = 4 then 2 else 1
def CopyJob.us (j : CopyJob) : Nat := j.unit * j.sw / 8
def CopyJob.ud (j : CopyJob) : Nat := j.unit * j.dw / 8
def CopyJob.perRun (j : CopyJob) : Nat := j.len / j.unit
def CopyJob.total (j : CopyJob) : Nat := j.perRun * j.runs * j.planes

/-- Whether a copy moves nothing. -/
def CopyJob.isEmpty (j : CopyJob) : Bool := j.len == 0 || j.runs == 0 || j.planes == 0

/-- The bounding range of one side (R235), when every address lies in range (R436). -/
def bound2 (va len runs planes : Nat) (t1 t2 : Int) : Option (Nat × Nat) :=
  let a : Int := t1 * ((runs : Int) - 1)
  let b : Int := t2 * ((planes : Int) - 1)
  let lo : Int := va + min 0 a + min 0 b
  let hi : Int := va + max 0 a + max 0 b + len - 1
  if lo < 0 ∨ 2 ^ 48 ≤ hi then none else some (lo.toNat, hi.toNat)

def CopyJob.srcRange (j : CopyJob) : Option (Nat × Nat) := bound2 j.src j.srcLen j.runs j.planes j.s1 j.s2
def CopyJob.dstRange (j : CopyJob) : Option (Nat × Nat) := bound2 j.dst j.dstLen j.runs j.planes j.d1 j.d2

/-- Whether the runs of an armed copy fit the tile's captured geometry (R173). -/
def CopyJob.fits (j : CopyJob) (g : Nat) : Bool :=
  if fmtDense (geomFmt g) then j.runs * j.planes == geomRows g && j.dstLen == rowBytes g
  else j.runs * j.planes * j.dstLen == 4096

/-- The first run of a side, in linear order, that starts off an element boundary: its address and its number. -/
def misRun (va w runs planes : Nat) (t1 t2 : Int) : Option (Nat × Nat) :=
  let n : Nat := max 1 (w / 8)
  if va % n != 0 then some (va, 0)
  else if !(runs ≤ 1 || t1 % n == 0) then some (((va : Int) + t1).toNat, 1)
  else if !(planes ≤ 1 || t2 % n == 0) then some (((va : Int) + t2).toNat, runs)
  else none

/-- The first run that starts off an element boundary on a side that is checked: its address, and its linear offset (R80). -/
def CopyJob.misaligned (j : CopyJob) (arm : Bool) : Option (Nat × Nat) :=
  let s := misRun j.src j.sw j.runs j.planes j.s1 j.s2
  let d := if arm then none else misRun j.dst j.dw j.runs j.planes j.d1 j.d2
  let off (x : Nat × Nat) : Nat × Nat := (x.1, x.2 * j.srcLen)
  match s, d with
  | some a, some b => some (off (if b.2 < a.2 then b else a))
  | some a, none => some (off a)
  | none, some b => some (off b)
  | none, none => none

/-- The checks of R75 in their order: the status the copy completes with at once, none for one that moves its bytes; an armed copy has
its tile's geometry. DESIGN CHOICE (log entry 75): GEOM, CVT_FMT and OVERLAP, which have no one failing byte, give the address 0. -/
def CopyJob.check (j : CopyJob) (dst src : Word) (arm : Option Nat) : Option (Option Trap) :=
  if j.cv && (ptrBad src || (arm.isNone && ptrBad dst)) then some (some (copyErr 4 (if ptrBad src then j.src else j.dst)))
  else if j.isEmpty then some none
  else if 2 ^ 24 < j.len || 65536 < j.runs || 65536 < j.planes then some (some (copyErr 8 0))
  else if j.cv && (j.df.isNone || j.sf.isNone) then some (some (copyErr 6 0))
  else if j.cv && (j.sw = 4 || j.dw = 4) && j.len % 2 != 0 then some (some (copyErr 8 0))
  else if j.srcRange.isNone || (arm.isNone && j.dstRange.isNone) then some (some (copyErr 8 0))
  else if (match arm with | some g => !j.fits g | none => false) then some (some (copyErr 8 0))
  else match if j.cv then j.misaligned arm.isSome else none with
    | some (a, off) => some (some { copyErr 5 a with party := word off })
    | none => match arm, j.srcRange, j.dstRange with
      | none, some r, some w => if r.1 ≤ w.2 && w.1 ≤ r.2 then some (some (copyErr 7 0)) else none
      | _, _, _ => none

/-! ## Moving (R75, R76) -/

/-- The bytes of some source elements as destination bytes, with the flags (R75). -/
def CopyJob.convert (j : CopyJob) (bs : List Byte) : List Byte × Nat :=
  match j.cv, j.df, j.sf with
  | true, some d, some f =>
    let n := bs.length * 8 / f.2
    let rs := (lanes f.2 n (wordOfBytes bs)).map fun v => convertBetween d.2 d.1 f.2 f.1 j.fpctl v
    (bytesOfWord (n * d.2 / 8) (ofLanes d.2 (rs.map (·.1))), rs.foldl (fun m r => m ||| r.2) 0)
  | _, _, _ => (bs, 0)

/-- Source and destination address of unit i. -/
def CopyJob.at_ (j : CopyJob) (i : Nat) : Nat × Nat :=
  let r := i / j.perRun
  let k := i % j.perRun
  let kk := r / j.runs
  let jj := r % j.runs
  (((j.src : Int) + kk * j.s2 + jj * j.s1).toNat + k * j.us, ((j.dst : Int) + kk * j.d2 + jj * j.d1).toNat + k * j.ud)

/-- The units from i to the end of its run or the next page boundary of either side. -/
def CopyJob.seg (j : CopyJob) (i : Nat) : Nat :=
  let (a, b) := j.at_ i
  min (j.perRun - i % j.perRun)
    (min ((65536 - a % 65536 + j.us - 1) / max j.us 1) ((65536 - b % 65536 + j.ud - 1) / max j.ud 1))

/-- What a page boundary of R76 can change: the size, home, permissions and target type of an address's page; empty while the page is not
available. -/
def State.pageKind (s : State) (p : Party) (va : Nat) : State × List Nat :=
  match s.translateFor p va with
  | (s, .hit e) => (s, [1, e.size, e.type, if e.type = 4 then e.scratchCore else e.home s, bits e.dw0 6 5, bits e.dw0 10 9])
  | (s, .fail sub) => (s, [0, sub])
  | (s, _) => (s, [])

/-- The kinds of the pages of both sides at unit i. -/
def State.kindAt (s : State) (p : Party) (j : CopyJob) (i : Nat) : State × List (List Nat) :=
  let (a, b) := j.at_ i
  let (s, x) := s.pageKind p a
  let (s, y) := s.pageKind p b
  (s, [x, y])

/-- The segments of the piece that begins at unit i (R76): as long as the pages are of one kind. -/
def pieceFrom (j : CopyJob) (p : Party) (kind : List (List Nat)) : Nat → Nat → State → State × List (Nat × Nat)
  | 0, _, s => (s, [])
  | fuel + 1, i, s =>
    if j.total ≤ i then (s, [])
    else
      let (s, k) := s.kindAt p j i
      if k != kind then (s, [])
      else
        let m := j.seg i
        let (s, rest) := pieceFrom j p kind fuel (i + m) s
        (s, (i, m) :: rest)

/-- How the trial of a piece ends: the converted bytes of every segment, the first failure with its linear offset, or a wait, for a page or not. -/
inductive Trial where
  | ok (ws : List (Nat × List Byte)) (fl : Nat)
  | fail (t : Trap) (off : Nat)
  | wait (page : Bool)

/-- The trial of a piece's segments: reads and write checks, nothing written. -/
def tryPiece (j : CopyJob) (p : Party) : List (Nat × Nat) → State → State × Trial
  | [], s => (s, .ok [] 0)
  | (i, m) :: rest, s =>
    let (a, b) := j.at_ i
    let offS (t : Trap) : Nat := i * j.us + (t.addr.toNat - a)
    let offD (t : Trap) : Nat := i * j.us + (t.addr.toNat - b) / max j.ud 1 * j.us
    match s.engineRead p a (m * j.us) with
    | (s, .wait page) => (s, .wait page)
    | (s, .fail t) =>
      match s.engineTry p b (List.replicate (m * j.ud) 0) with
      | (s, .fail u) => if offD u < offS t then (s, .fail u (offD u)) else (s, .fail t (offS t))
      | (s, _) => (s, .fail t (offS t))
    | (s, .ok bs) =>
      let (w, fl) := j.convert bs
      match s.engineTry p b w with
      | (s, .wait page) => (s, .wait page)
      | (s, .fail t) => (s, .fail t (offD t))
      | (s, .ok _) => match tryPiece j p rest s with
        | (s, .ok ws fl') => (s, .ok ((b, w) :: ws) (fl ||| fl'))
        | r => r

/-- A copy's failure with its linear offset in the second party (R80); a race keeps its own (R230). -/
def Trap.atOffset (t : Trap) (off : Nat) : Trap := if t.code = 7 then t else { t with party := word off }

/-- The segments of a piece written: the first failure of the writes themselves (HOST_ERR, R82) with its linear offset. -/
def writePieces (j : CopyJob) (p : Party) : List ((Nat × Nat) × Nat × List Byte) → State → Option (Trap × Nat) → State × Option (Trap × Nat)
  | [], s, t => (s, t)
  | ((i, _), b, w) :: rest, s, t =>
    match s.engineWrite p b w with
    | (s, .fail x) => writePieces j p rest s (t.or (some (x, i * j.us + (x.addr.toNat - b) / max j.ud 1 * j.us)))
    | (s, _) => writePieces j p rest s t

/-- How far a copy has come: the units done, the flags, the first failure with its linear offset. -/
structure CopyDone where
  i : Nat := 0
  fl : Nat := 0
  fail : Option (Trap × Nat) := none

/-- What an operation has noted of its copy. -/
def Op.copied (o : Op) : CopyDone :=
  { i := o.done.getD 0 0, fl := o.done.getD 1 0, fail := o.fail.map fun t => (t, o.done.getD 2 0) }

/-- The progress of a copy noted in its operation, with the linear offset up to which its pieces are done (R406). -/
def Op.withCopied (o : Op) (us : Nat) (d : CopyDone) : Op :=
  { o with started := true, done := [d.i, d.fl, (d.fail.map (·.2)).getD 0, d.i * us], fail := d.fail.map (·.1) }

/-- The status of a finished copy: its first failure with the linear offset. -/
def CopyDone.status (d : CopyDone) : Option Trap := d.fail.map fun f => f.1.atOffset f.2

/-- One piece of a copy: its progress after it; while it waits, whether for a page. -/
def State.copyPiece (s : State) (p : Party) (j : CopyJob) (d : CopyDone) : State × Except Bool CopyDone :=
  let i := d.i
  let (s, kind) := s.kindAt p j i
  if kind.contains [] then (s, .error true)
  else
    let (s, segs) := pieceFrom j p kind (j.total - i) i s
    let end_ := match segs.getLast? with
      | some (a, m) => a + m
      | none => i
    match tryPiece j p segs s with
    | (s, .wait page) => (s, .error page)
    | (s, .fail t off) => (s, .ok { d with i := end_, fail := d.fail.or (some (t, off)) })
    | (s, .ok ws f) =>
      let (s, x) := writePieces j p (segs.zip ws) s none
      (s, .ok { i := end_, fl := d.fl ||| f, fail := d.fail.or x })

/-! ## CPY (R75) -/

/-- The copy of an operation. -/
def Op.copy (o : Op) : CopyJob :=
  let dfmt := if o.kind = .armed then geomFmt (o.geoms.getD 0 0).toNat else ptrFmt o.a
  copyJob o.a o.b o.regs o.op o.sgn dfmt o.fpctl

/-- The geometry an armed copy has captured. -/
def Op.arm (o : Op) : Option Nat := if o.kind = .armed then some (o.geoms.getD 0 0).toNat else none

/-- A copy issued with its captured registers; it takes an entry of the range-lock table, without ranges when it will move no bytes (R81, R235). -/
def copyIssue (o : Op) (s : State) : Act :=
  let regs := s.st.shadow.copy.toList
  let o := { o with cls := .c, regs := regs, record := bit (regs.getD 7 0).toNat 0, fpctl := s.fpctl }
  let j := o.copy
  let live := (j.check o.a o.b o.arm).isNone
  let rd := if live then j.srcRange.toList else []
  let wr := if live && o.kind = .copy then j.dstRange.toList else []
  let s := s.recordCmd 0 regs s.ir s.fpctl (if o.kind = .copy then o.a else 0) o.b [] ((wr ++ rd).map fun r => (r.1, r.2 + 1 - r.1))
  engineIssue o rd wr s id

/-- Body of cpy (R75). -/
def cpyBody (cv n a b : Nat) (s : State) : Act :=
  src a s fun d s => src b s fun p s => copyIssue { kind := .copy, a := d, b := p, op := n, sgn := cv == 1 } s

/-- cpy (R75). -/
def execCpy (cv n a b g : Nat) : State → Host.Outcome State Fault Refusal := issueNoSpec g [a, b] (cpyBody cv n a b)

/-- Body of cpy with .arm (R75, R173): TILE_FMT for the geometry alone; a second arming of the tile waits for the first. -/
def cpyArmBody (cv n b t : Nat) (s : State) : Act :=
  src b s fun p s =>
    if !s.core.tileOk t then .trap (tileFmt t) id
    else if s.core.allOps.any fun o => o.kind == .armed && !o.complete && o.target == t then .hold
    else copyIssue { kind := .armed, b := p, op := n, sgn := cv == 1, target := t, geoms := [word (s.core.geomOf t)], tiles := [(t, true)] } s

/-- cpy with .arm (R75). -/
def execCpyArm (cv n b t g : Nat) : State → Host.Outcome State Fault Refusal := issueNoSpec g [b] (cpyArmBody cv n b t)

/-! ## COPY_PIECE and armed copies (R76, R173) -/

/-- An operation of the focused strand changed. -/
def State.modOp (s : State) (id : Nat) (f : Op → Op) : State :=
  s.modSt fun t => { t with ops := t.ops.map fun p => if p.id = id then f p else p }

/-- The runs of an armed copy read, converted and joined; the first failure at its linear offset. -/
def armedRuns (p : Party) (j : CopyJob) : Nat → Nat → State → State × Trial
  | 0, _, s => (s, .ok [] 0)
  | n + 1, r, s =>
    let (a, _) := j.at_ (r * j.perRun)
    match s.engineRead p a j.srcLen with
    | (s, .wait page) => (s, .wait page)
    | (s, .fail t) => (s, .fail t (r * j.srcLen + (t.addr.toNat - a)))
    | (s, .ok bs) =>
      let (w, fl) := j.convert bs
      match armedRuns p j n (r + 1) s with
      | (s, .ok ws fl') => (s, .ok ((r, w) :: ws) (fl ||| fl'))
      | x => x

/-- An armed copy carried out: the tile is filled whole, or left unchanged and marked (R162, R173). -/
def State.armedMove (s : State) (o : Op) : State :=
  let j := o.copy
  let g := (o.geoms.getD 0 0).toNat
  let t := o.target
  match j.check o.a o.b o.arm with
  | some none => s.tileDone o t none 0
  | some (some x) => s.tileDone o t (some x) 0
  | none =>
    match armedRuns (s.party o) j (j.runs * j.planes) 0 s with
    | (s, .wait page) => s.stallOp o page
    | (s, .fail x off) => s.tileDone o t (some (x.atOffset off)) 0
    | (s, .ok ws fl) =>
      let image := ws.flatMap (·.2)
      match blockCheck g image with
      | some x => s.tileDone o t (some x) fl
      | none =>
        let s := s.modCore fun c =>
          if fmtDense (geomFmt g) then ws.foldl (fun c w => c.tilePut t (w.1 * rowPitch g) w.2) c else c.tilePut t 0 image
        s.tileDone o t none fl

/-- ARMED_COPY_START (R173): every step that read the tile before the arming has read it. -/
def execArmedCopyStart (c k id : Nat) : State → Host.Outcome State Fault Refusal :=
  opEvent c k id (fun o => o.kind == .armed && !o.started) fun o s =>
    if s.core.tileBlocked o then s else s.modOp o.id fun p => { p with started := true }

/-- COPY_PIECE (R76): the next piece of a copy; with the last one the copy completes. -/
def execCopyPiece (c k id : Nat) : State → Host.Outcome State Fault Refusal :=
  opEvent c k id (fun o => o.kind == .copy || (o.kind == .armed && o.started)) fun o s =>
    if s.sys.now < o.absentAt then s
    else if o.kind = .armed then s.armedMove o
    else
      let j := o.copy
      match j.check o.a o.b none with
      | some r => s.completeOp o r 0 none
      | none =>
        match s.copyPiece (s.party o) j o.copied with
        | (s, .error page) => s.stallOp o page
        | (s, .ok d) => if j.total ≤ d.i then s.completeOp o d.status d.fl none else s.modOp o.id fun p => p.withCopied j.us d

/-! ## Engine commands by message (R83, R205) -/

/-- The accessor of a request by message (R83, R179, R239): the requesting strand, in the context of the header's job. -/
def Msg.party (m : Msg) (cl : Nat) : Party :=
  { gid := m.gid, cl := cl, job := m.job, me := m.who, rc := m.det.rc, stamp := m.det.stamp, acq := m.det.acq, ovf := m.det.ovf }

/-- The answer of an agent (R83, R179). -/
def agentReply (m : Msg) (st : Nat) (t : Option Trap) (fl off : Nat) (mark : Mark) : Msg :=
  let w := st + (match t with | some t => t.code * 2 ^ 8 + t.sub % 256 * 2 ^ 16 | none => 0) + fl * 2 ^ 24
  replyTo m 2 [word w, m.word 0, word off] mark

/-- A request handed to the array agent of the cluster it is for (R179): at most 64 are held, one more is answered as busy. -/
def State.toArrayAgent (s : State) (m : Msg) : State :=
  let cl := s.clusterKey m.dst
  if 64 ≤ (s.cluster cl).agent.length then s.launchMsg (agentReply m 1 none 0 0 .arrayAgent)
  else s.modCluster cl fun c => { c with agent := c.agent ++ [{ msg := m }] }

/-- A request handed to the copy agent of the cluster it is for (R83): at most 16 are held, one more is answered as busy. -/
def State.toCopyAgent (s : State) (m : Msg) : State :=
  let cl := s.clusterKey m.dst
  if 16 ≤ (s.cluster cl).copyAgent.length then s.launchMsg (agentReply m 1 none 0 0 .copyAgent)
  else s.modCluster cl fun c => { c with copyAgent := c.copyAgent ++ [{ msg := m }] }

/-- ENGINE_COMMAND_HANDOFF (R205): the NI hands a kind-6 message to the agent its target names, and answers one that names none as illegal. A
request to the queue controller at the router of its die's core (0, 0) is not the NI's. -/
def execEngineCommandHandoff (m : Nat) (s : State) : Host.Outcome State Fault Refusal :=
  arrival m (fun m => m.kind == 6 && !(m.target == 2 && s.dieCorner (s.dieKey m.dst) == m.dst))
    (fun m _ s => some (if m.target = 1 then s.toArrayAgent m else if m.target = 3 then s.toCopyAgent m
      else s.launchMsg (agentReply m 2 (some (plainTrap 1)) 0 0 .ni))) s

/-- The CPY word of a request, when the request is legal (R83). -/
def Msg.copyOk (m : Msg) : Bool :=
  let w := (m.word 0).toNat
  11 ≤ m.cap && w / 2 ^ 25 == 0x52 && bits w 24 21 == 0 && w % 2 ^ 18 == 0 && bits w 19 18 != 0
  && (m.word 10).toNat / 2 ^ 10 == 0 && bits (m.word 10).toNat 2 0 < 6 && m.word 11 == 0 && m.word 12 == 0

/-- The copy a request describes. -/
def Msg.copyOf (m : Msg) : CopyJob :=
  copyJob (m.word 1) (m.word 2) ((m.pay.drop 3).take 7) (bits (m.word 0).toNat 19 18) (bit (m.word 0).toNat 20)
    (ptrFmt (m.word 1)) (m.word 10).toNat

/-- COPY_AGENT_REQUEST (R83). -/
def execCopyAgentRequest (m : Nat) : State → Host.Outcome State Fault Refusal :=
  arrival m (fun m => m.kind == 6 && m.target == 3) fun m _ s => some (s.toCopyAgent m)

/-- The oldest request of the copy agent answered and dropped, its ranges freed. -/
def State.copyAgentEnd (s : State) (cl : Nat) (r : AgentReq) (t : Option Trap) (fl off : Nat) : State :=
  let t := t.or (if fl &&& enables (r.msg.word 10).toNat = 0 then none else some { code := 0x15, sub := 0 })
  let s := s.modCluster cl fun c => { c with copyAgent := c.copyAgent.drop 1, locks := c.locks.filter fun e => e.op != r.op.id }
  s.launchMsg (agentReply r.msg (if t.isSome then 2 else 0) t fl off .copyAgent)

/-- COPY_AGENT_REPLY (R83): the agent's oldest request starts, performs its next piece, and with the last one is answered. -/
def execCopyAgentReply (cl : Nat) (s : State) : Host.Outcome State Fault Refusal :=
  match (s.cluster cl).copyAgent with
  | [] => .next s
  | r :: rest =>
    let m := r.msg
    let j := m.copyOf
    if s.sys.now < r.op.absentAt then .next s
    else if !m.copyOk then .next (s.copyAgentEnd cl r (some (plainTrap 1)) 0 0)
    else match j.check (m.word 1) (m.word 2) none with
      | some t => .next (s.copyAgentEnd cl r t 0 ((t.map fun x => x.party.toNat % 2 ^ 48).getD 0))
      | none =>
        if r.stage = 0 then
          if 64 ≤ (s.cluster cl).locks.length then .next s
          else
            let side (x : Option (Nat × Nat)) : List (Nat × Nat × Nat) := match x with
              | some x => s.sidesOf m.gid x.1 x.2
              | none => []
            let e : LockEntry := { issuer := m.who, op := s.sys.nextId, rd := side j.srcRange, wr := side j.dstRange, va := (j.srcRange.toList ++ j.dstRange.toList).map fun r => (m.gid, r) }
            .next ((s.modSys fun y => { y with nextId := y.nextId + 1 }).modCluster cl fun c =>
              { c with locks := c.locks ++ [e], copyAgent := { r with stage := 1, op := { r.op with id := e.op } } :: rest })
        else
          match s.copyPiece (m.party cl) j r.op.copied with
          | (s, .error page) => .next (if page then
              s.modCluster cl fun c => { c with copyAgent := { r with op := { r.op with absentAt := s.sys.now + 10000 } } :: rest } else s)
          | (s, .ok d) =>
            if j.total ≤ d.i then .next (s.copyAgentEnd cl r d.status d.fl ((d.fail.map fun f => f.2 % 2 ^ 48).getD 0))
            else .next (s.modCluster cl fun c => { c with copyAgent := { r with op := r.op.withCopied j.us d } :: rest })

end Sys2Proof.Machine
end

