-- ==== Sys2Proof/Machine/Matrix.lean ====
section
/-! DEFINITION. The matrix array: MXMA, MXMAS, MXMT and MXWAITB (R164 to R171), their execution and completion (R162, R168 to R170), the array
agent (R178, R179). -/

namespace Sys2Proof.Machine

/-! ## Pairing (R167) -/

/-- The formats an instruction takes on its A side (0 MXMA, 1 MXMAS, 2 MXMT), and on its B side for a format of A. -/
def stepA (kind f : Nat) : Bool :=
  match kind with
  | 0 => (9 ≤ f && f ≤ 0xD) || (0x10 ≤ f && f ≤ 0x1B)
  | 1 => fmtPair f
  | _ => f == 0xD || (0x18 ≤ f && f ≤ 0x1B)
def stepB (kind f : Nat) : Bool :=
  match kind with
  | 0 => stepA 0 f
  | 1 => f == 9 || f == 10
  | _ => f == 0xE || (0x1C ≤ f && f ≤ 0x1F)

/-- Whether a pair of formats stands in one row of R167. -/
def stepPair (kind fa fb : Nat) : Bool :=
  stepA kind fa && stepB kind fb && (kind != 0 || (fa == 9 || fa == 10) == (fb == 9 || fb == 10))

/-- The K limit of a format in an instruction. -/
def stepK (kind f : Nat) : Nat := if kind = 0 then (if f = 9 || f = 10 then 64 else 128) else if kind = 1 then 64 else 512

/-- The first offending tile of a step (R167): 0 the A side, 1 the B side, 2 the accumulator. -/
def stepFail (kind ga gb gc : Nat) : Option Nat :=
  let bad (g : Nat) (f : Nat → Bool) : Bool := !geomOk g || !f (geomFmt g) || stepK kind (geomFmt g) < geomK g
  if bad ga (stepA kind) then some 0
  else if bad gb (stepB kind) then some 1
  else if !stepPair kind (geomFmt ga) (geomFmt gb) || geomK ga != geomK gb then some 1
  else if !accOk gc || accInt gc != (kind == 2) then some 2
  else if geomRows gc != geomRows ga || accCols gc != geomRows gb then some 2
  else none

/-! ## The step (R168) -/

/-- The terms of an output: products, 0 times an infinity a NaN that sets NV. -/
def products (a b : List (FVal × Nat)) : List FVal := List.zipWith (fun x y => (FVal.mul x.1 y.1).getD (.nan true)) a b

/-- One FP32 output (R168): the exact sum rounded once; infinities of both signs set NV even beside a quiet NaN. -/
def outputFp (fpctl : Nat) (terms : List FVal) : Nat × Nat :=
  let r := f32.sum fpctl terms
  (r.1, r.2 ||| if terms.contains (.inf true) && terms.contains (.inf false) then flagNV else 0)

/-- One INT32 output (R168), with 32 for a saturation. -/
def outputInt (terms : List FVal) : Nat × Nat :=
  let t := terms.foldl (fun (a : Int) v => match v with | .fin n m e => a + signedAt n m e 0 | _ => a) 0
  if 2 ^ 31 - 1 < t then (2 ^ 31 - 1, 32) else if t < -(2 ^ 31 : Int) then (2 ^ 31, 32) else (wrap 32 t, 0)

/-- A step on tile images (R168): the rows of the accumulator it writes, with its flags; 32 stands for SAT. -/
def matrixStep (kind fpctl ga gb gc : Nat) (zero : Bool) (a b c : List Byte) : List Byte × Nat :=
  let ints := kind == 2
  let va := tileVals ga (fizOf fpctl) ints a
  let vb := tileVals gb (fizOf fpctl) ints b
  let read := (va ++ vb).foldl (fun m r => r.foldl (fun m x => m ||| x.2) m) 0
  let rows := va.zipIdx.map fun (ra, i) => vb.zipIdx.map fun (rb, j) =>
    let old := wordOfBytes ((c.drop (128 * i + 4 * j)).take 4)
    let prior := if zero then [] else [if ints then intVal (sext 32 old) else f32.value (fizOf fpctl) old]
    let terms := prior ++ products ra rb
    if ints then outputInt terms else outputFp fpctl terms
  (rows.flatMap fun r => (bytesOfWord (4 * accCols gc) (ofLanes 32 (r.map (·.1)))),
   rows.foldl (fun m r => r.foldl (fun m x => m ||| x.2) m) read)

/-- The rows of an accumulator of a geometry. -/
def accRows (gc : Nat) : TileRows := { n := geomRows gc, len := 4 * accCols gc, stride := (4 * accCols gc : Nat), pitch := 128 }

/-! ## Issue (R164, R166) -/

/-- A step issued: NO_LEASE, then the geometry checks, then a place in the array queue; it stalls while the queue is full, and at the end of
a run until the lease is granted back (R165). DESIGN CHOICE (log entry 78): a command that the array is executing still counts among the queue's
16. -/
def stepBody (kind : Nat) (zero : Bool) (a b batch acc : Nat) (s : State) : Act :=
  let l := (s.cluster s.cl).lease
  let me := s.leaseMe
  let geom (t : Nat) : Nat := s.core.geomOf t
  if s.st.csr.gangSize != 0 then .ill s 1
  else if !l.holds me false then .code 9
  else match stepFail kind (geom a) (geom b) (geom (8 + acc)) with
    | some i => .trap (tileFmt ([a, b, 8 + acc].getD i 0)) id
    | none =>
      if l.key != some me || l.over s.sys.now || 16 ≤ (s.cluster s.cl).mxq.length then .hold
      else
        let ms := vget s.st.shadow.mx 0 0
        let o : Op := { kind := .mxstep, cls := .t, op := batch, n := acc, tiles := [(a, false), (b, false), (8 + acc, true)] }
        issueOp o ((s.recordCmd 1 [ms] s.ir s.fpctl 0 0 [] []).release) fun s =>
          let id := (s.st.ops.getLast?.map (·.id)).getD 0
          let cmd : MxCmd := { id := id, core := s.here, strand := s.k, pc := s.st.pc, word := s.ir, acc := acc, ta := a, tb := b, zero := zero
                               kind := kind, fpctl := s.fpctl, reg := ms, tgeomA := word (geom a), tgeomB := word (geom b)
                               ageom := word (geom (8 + acc)) }
          s.modCluster s.cl fun c => { c with mxq := c.mxq ++ [cmd], lease := { c.lease with steps := c.lease.steps + 1 } }

/-- A step instruction. -/
def stepOp (kind : Nat) (zero : Bool) (a b batch acc g : Nat) : State → Host.Outcome State Fault Refusal :=
  issueNoSpec g [] (stepBody kind zero a b batch acc)

/-- mxma (R166). -/
def execMxma (a b batch acc g : Nat) : State → Host.Outcome State Fault Refusal := stepOp 0 false a b batch acc g
/-- mxma.z. -/
def execMxmaZ (a b batch acc g : Nat) : State → Host.Outcome State Fault Refusal := stepOp 0 true a b batch acc g
/-- mxmas. -/
def execMxmas (a b batch acc g : Nat) : State → Host.Outcome State Fault Refusal := stepOp 1 false a b batch acc g
/-- mxmas.z. -/
def execMxmasZ (a b batch acc g : Nat) : State → Host.Outcome State Fault Refusal := stepOp 1 true a b batch acc g
/-- mxmt. -/
def execMxmt (a b batch acc g : Nat) : State → Host.Outcome State Fault Refusal := stepOp 2 false a b batch acc g
/-- mxmt.z. -/
def execMxmtZ (a b batch acc g : Nat) : State → Host.Outcome State Fault Refusal := stepOp 2 true a b batch acc g

/-- Body of mxwaitb (R171): the strand's steps of the batch have completed; it consumes the oldest failed one. -/
def mxwaitbBody (n : Nat) (s : State) : Act :=
  let mine (o : Op) : Bool := o.kind == .mxstep && o.op == n
  if s.st.ops.any fun o => mine o && !o.complete then .hold
  else match s.st.ops.find? fun o => mine o && o.complete && o.fail.isSome with
    | some o => reportOp o
    | none => .next s.recordSync

/-- mxwaitb (R171). -/
def execMxwaitb (n g : Nat) : State → Host.Outcome State Fault Refusal := issueNoSpec g [] (mxwaitbBody n)

/-! ## Execution and completion (R162, R168 to R170) -/

/-- The status a step takes from a POISON tile it reads (R162): an operand, or an accumulator that is a term. -/
def Core.stepPoison (c : Core) (m : MxCmd) : Option Trap :=
  ((if m.zero then [m.ta, m.tb] else [m.ta, m.tb, 8 + m.acc]).findSome? fun t => (c.poison.find? fun p => p.1 == t).map (·.2))

/-- What a step computes from its core's tiles. Where several checks fail, the status is that of a POISON tile, then A's, then B's: DESIGN
CHOICE, log entry 67. -/
def Core.runStep (c : Core) (m : MxCmd) : MxCmd :=
  let (ga, gb, gc) := (m.tgeomA.toNat, m.tgeomB.toNat, m.ageom.toNat)
  let (a, b) := (c.tileBytes m.ta, c.tileBytes m.tb)
  match ((c.stepPoison m).or (tileCheck ga a)).or (tileCheck gb b) with
  | some t => { m with executing := true, status := some t }
  | none =>
    let r := matrixStep m.kind m.fpctl ga gb gc m.zero a b (c.tileBytes (8 + m.acc))
    { m with executing := true, out := r.1, flags := r.2 }

/-- MATRIX_STEP_EXECUTE (R168, R170): the array takes the next command of its queue once its tiles are ready, and reads them. -/
def execMatrixStepExecute (cl : Nat) (s : State) : Host.Outcome State Fault Refusal :=
  match (s.cluster cl).mxq.find? fun m => !m.executing with
  | none => .next s
  | some m =>
    .next (s.atCore m.core m.strand fun s =>
      match s.st.opById m.id with
      | none => s.modCluster cl fun c => { c with mxq := c.mxq.filter fun x => x.id != m.id }
      | some o =>
        if s.core.tileBlocked o then s
        else
          let m' := s.core.runStep m
          let s := s.modOp m.id fun o => { o with tiles := [(8 + m.acc, true)], started := true }
          s.modCluster cl fun c => { c with mxq := c.mxq.map fun x => if x.id = m.id then m' else x })

/-- MATRIX_STEP_COMPLETE (R170): the oldest executing step writes its accumulator and merges its flags. -/
def execMatrixStepComplete (cl : Nat) (s : State) : Host.Outcome State Fault Refusal :=
  match (s.cluster cl).mxq.find? fun m => m.executing with
  | none => .next s
  | some m =>
    let s := s.modCluster cl fun c => { c with mxq := c.mxq.filter fun x => x.id != m.id }
    .next (s.atCore m.core m.strand fun s =>
      match s.st.opById m.id with
      | none => s
      | some o =>
        match m.status with
        | some t => s.completeOp o (some t) 0 none
        | none =>
          let s := s.modCore fun c => c.tileRowsPut (8 + m.acc) (accRows m.ageom.toNat) m.out
          let s := if bit m.flags 5 then s.modCore fun c => { c with ageom := vset c.ageom m.acc (vget c.ageom m.acc 0 ||| 2 ^ 13) } else s
          s.completeOp o none (m.flags % 32) none)

/-! ## The array agent (R178, R179) -/

/-- The instruction of a request's word 0 and whether the request is legal (R178, R179). -/
def Msg.stepKind (m : Msg) : Nat := bits (m.word 0).toNat 31 25 - 0x68
def Msg.loadC (m : Msg) : Bool := bit (m.word 0).toNat 32
def Msg.stepOk (m : Msg) : Bool :=
  let w := (m.word 0).toNat
  9 ≤ m.cap && 0x68 ≤ bits w 31 25 && bits w 31 25 ≤ 0x6A && bits w 24 19 == 0 && w % 2 ^ 18 == 0 && w / 2 ^ 33 == 0
  && (m.word 1).toNat / 2 ^ 26 == 0 && (m.word 2).toNat / 2 ^ 26 == 0 && (m.word 3).toNat / 2 ^ 13 == 0
  && (m.word 8).toNat / 2 ^ 10 == 0 && bits (m.word 8).toNat 2 0 < 6

/-- ARRAY_AGENT_REQUEST (R179). -/
def execArrayAgentRequest (m : Nat) : State → Host.Outcome State Fault Refusal :=
  arrival m (fun m => m.kind == 6 && m.target == 1) fun m _ s => some (s.toArrayAgent m)

/-- The rows of an image a request moves, contiguous in memory. -/
def agentRows (t g : Nat) : TileRows := tileRows t g 0

/-- The first error of a request's pointers and ranges (R45, R159, R436). -/
def Msg.stepPtrs (m : Msg) : Option Trap :=
  let side (t g : Nat) (p : Word) : Option Trap :=
    let r := agentRows t g
    if ptrBad p then some (copyErr 4 (p.toNat % 2 ^ 48))
    else if ptrDisagrees t g p then some (plainTrap 0x19)
    else if (boundRuns (p.toNat % 2 ^ 48) r.stride r.n r.len).isNone then some (copyErr 8 (p.toNat % 2 ^ 48))
    else none
  let gc := (m.word 3).toNat
  (((side 0 (m.word 1).toNat (m.word 4)).or (side 1 (m.word 2).toNat (m.word 5))).or
    (if m.loadC then side 8 gc (m.word 6) else none)).or (side 8 gc (m.word 7))

/-- Rows of bytes laid at a pitch into an empty tile image. -/
def layRows (r : TileRows) (bs : List Byte) : List Byte :=
  Mem.get ((List.range r.n).foldl (fun m i => Mem.put m (i * r.pitch) ((bs.drop (i * r.len)).take r.len)) []) 0 4096

/-- A guest tile loaded. -/
def loadGuest (p : Party) (t g : Nat) (ptr : Word) (s : State) : State × Res :=
  let r := agentRows t g
  match readRows p (ptr.toNat % 2 ^ 48) r r.n 0 s with
  | (s, .ok bs) => (s, .ok (layRows r bs))
  | x => x

/-- The addresses that an image of a request spans, and those that it reads and writes (R179). -/
def agentRange (t g : Nat) (p : Word) : List (Nat × Nat) :=
  let r := agentRows t g
  (boundRuns (p.toNat % 2 ^ 48) r.stride r.n r.len).toList
def Msg.stepReads (m : Msg) : List (Nat × Nat) :=
  agentRange 0 (m.word 1).toNat (m.word 4) ++ agentRange 1 (m.word 2).toNat (m.word 5)
  ++ (if m.loadC then agentRange 8 (m.word 3).toNat (m.word 6) else [])
def Msg.stepWrites (m : Msg) : List (Nat × Nat) := agentRange 8 (m.word 3).toNat (m.word 7)

/-- The range-lock entry of a request (R179, R235). -/
def State.agentLock (s : State) (cl : Nat) (m : Msg) (id : Nat) : State :=
  let sides (l : List (Nat × Nat)) : List (Nat × Nat × Nat) := l.flatMap fun x => s.sidesOf m.gid x.1 x.2
  s.modCluster cl fun c => { c with locks := c.locks ++
    [{ issuer := m.who, op := id, rd := sides m.stepReads, wr := sides m.stepWrites, va := (m.stepReads ++ m.stepWrites).map fun r => (m.gid, r) }] }

/-! A request is held (stage 0), loads its operands (1), waits for the lease (2), stores its result (3) and has ended (4). Its operation keeps
the number `n` of its place among the four worked on, its failure and, in `done`, the flags its step raised. -/

/-- Where the guest tiles and the guest accumulator of place n lie: eight tiles, then four accumulators (R179). -/
def guestTile (n i : Nat) : Nat := 4096 * (2 * n + i)
def guestAcc (n : Nat) : Nat := 32768 + 4096 * n

/-- A request's operands loaded into the guest tiles of place n (R179); the first failure, or a wait. -/
def State.agentLoad (s : State) (cl : Nat) (m : Msg) (n : Nat) : State × Res :=
  let p := m.party cl
  match loadGuest p 0 (m.word 1).toNat (m.word 4) s with
  | (s, .ok a) => match loadGuest p 1 (m.word 2).toNat (m.word 5) s with
    | (s, .ok b) =>
      match if m.loadC then loadGuest p 8 (m.word 3).toNat (m.word 6) s else (s, .ok []) with
      | (s, .ok c) => (s.modCluster cl fun k => { k with
          guest := ((k.guest.put (guestTile n 0) a).put (guestTile n 1) b).put (guestAcc n) c }, .ok [])
      | x => x
    | x => x
  | x => x

/-- What a request fails with before anything of it is done (R178, R179). -/
def Msg.stepFault (m : Msg) : Option Trap :=
  if !m.stepOk then some (plainTrap 1)
  else if (stepFail m.stepKind (m.word 1).toNat (m.word 2).toNat (m.word 3).toNat).isSome then some (plainTrap 0x19)
  else m.stepPtrs

/-- Whether a request is one of those worked on. -/
def AgentReq.works (r : AgentReq) : Bool := 1 ≤ r.stage && r.stage ≤ 3

/-- The free place among the four, if any. -/
def Cluster.agentPlace (c : Cluster) : Option Nat := (List.range 4).find? fun n => !c.agent.any fun r => r.works && r.op.n == n

/-- Whether a request can go on: a held one needs a place and a range-lock entry, a loaded one the lease and the array; one that stores
its result or has ended is to be the oldest (R165, R179, R235, R351). -/
def State.agentCan (s : State) (cl : Nat) (oldest : Bool) (r : AgentReq) : Bool :=
  let c := s.cluster cl
  r.op.absentAt ≤ s.sys.now && match r.stage with
    | 0 => r.msg.stepFault.isSome || (c.agentPlace.isSome && c.locks.length < 64)
    | 2 => c.lease.key == some agentKey && !c.lease.over s.sys.now && !c.mxq.any (·.executing)
    | 3 | 4 => oldest
    | _ => true

/-- A request ended; its guest tiles are zeroed (R179). -/
def State.agentEnd (s : State) (cl : Nat) (r : AgentReq) (t : Option Trap) (fl : Nat) : State × AgentReq :=
  let zero : List Byte := List.replicate 4096 0
  (if r.works then s.modCluster cl fun c => { c with
      guest := ((c.guest.put (guestTile r.op.n 0) zero).put (guestTile r.op.n 1) zero).put (guestAcc r.op.n) zero }
    else s, { r with stage := 4, op := { r.op with fail := t, done := [fl] } })

/-- What a request does next (R179): it is checked and takes its place and its ranges; its operands are loaded; its step is done; its result is
stored. An access that has to wait is tried again. -/
def State.agentMove (s : State) (cl : Nat) (r : AgentReq) : State × AgentReq :=
  let m := r.msg
  let (ga, gb, gc) := ((m.word 1).toNat, (m.word 2).toNat, (m.word 3).toNat)
  let g := (s.cluster cl).guest
  let n := r.op.n
  let later (s : State) (page : Bool) : State × AgentReq := (s, if page then { r with op := { r.op with absentAt := s.sys.now + 10000 } } else r)
  match r.stage with
  | 0 => match m.stepFault with
    | some t => s.agentEnd cl r (some t) 0
    | none =>
      let id := s.sys.nextId
      ((s.modSys fun y => { y with nextId := id + 1 }).agentLock cl m id,
       { r with stage := 1, op := { r.op with id := id, n := (s.cluster cl).agentPlace.getD 0 } })
  | 1 => match s.agentLoad cl m n with
    | (s, .wait page) => later s page
    | (s, .fail t) => s.agentEnd cl r (some t) 0
    | (s, .ok _) =>
      let g := (s.cluster cl).guest
      match (tileCheck ga (g.get (guestTile n 0) 4096)).or (tileCheck gb (g.get (guestTile n 1) 4096)) with
      | some t => s.agentEnd cl r (some t) 0
      | none => (s, { r with stage := 2 })
  | 2 =>
    let x := matrixStep m.stepKind (m.word 8).toNat ga gb gc (!m.loadC) (g.get (guestTile n 0) 4096) (g.get (guestTile n 1) 4096)
      (g.get (guestAcc n) 4096)
    (s.modCluster cl fun c => { c with guest := c.guest.put (guestAcc n) (layRows (agentRows 8 gc) x.1)
                                       lease := { c.lease with steps := c.lease.steps + 1 } },
     { r with stage := 3, op := { r.op with done := [x.2] } })
  | 3 =>
    let rr := agentRows 8 gc
    let fl := r.op.done.headD 0
    match writeRows (m.party cl) ((m.word 7).toNat % 2 ^ 48) rr rr.n 0 (rowsOf rr (g.get (guestAcc n) 4096)) s none with
    | (s, .wait page) => later s page
    | (s, .fail t) => s.agentEnd cl r (some t) fl
    | (s, .ok _) => s.agentEnd cl r none fl
  | _ => (s, r)

/-- The agent asks for the lease while it has a loaded request to issue, and gives it up when it has none (R179). -/
def Cluster.agentLease (c : Cluster) : Cluster :=
  { c with lease :=
      if !c.agent.any (·.stage == 2) then c.lease.release agentKey
      else if c.lease.key == some agentKey || c.lease.want.contains agentKey then c.lease
      else { c.lease with want := c.lease.want ++ [agentKey] } }

/-- An ended request answered (R179): its ranges are freed; an enabled flag makes it fail with FP (R107). -/
def State.agentAnswer (s : State) (cl : Nat) (r : AgentReq) : State :=
  let fl := r.op.done.headD 0
  let t := r.op.fail.or (if fl &&& enables (r.msg.word 8).toNat = 0 then none else some { code := 0x15, sub := 0 })
  (s.modCluster cl fun c => { c with agent := c.agent.drop 1, locks := c.locks.filter fun e => e.op != r.op.id }).launchMsg
    (agentReply r.msg (if t.isSome then 2 else 0) t fl 0 .arrayAgent)

/-- ARRAY_AGENT_REPLY (R179): the oldest request that can go on does so by one stage; requests are answered in the order they came. -/
def execArrayAgentReply (cl : Nat) (s : State) : Host.Outcome State Fault Refusal :=
  match (s.cluster cl).agent.zipIdx.find? fun x => s.agentCan cl (x.2 == 0) x.1 with
  | none => .next s
  | some (r, i) =>
    if r.stage = 4 then .next (s.agentAnswer cl r)
    else
      let (s, r') := s.agentMove cl r
      .next (s.modCluster cl fun c => ({ c with agent := c.agent.set i r' } : Cluster).agentLease)

end Sys2Proof.Machine
end

