-- ==== Sys2Proof/Machine/Send.lean ====
section
/-! DEFINITION. SEND (R206 to R209), with the ranges that a recorded request of an agent touches (R331). -/

namespace Sys2Proof.Machine

/-- The ranges that a kind-6 message has its agent touch (R83, R179, R331), as addresses with their lengths: none of a request that the agent
turns down before it moves anything. -/
def requestRanges (h : Word) (pay : List Word) : List (Nat × Nat) :=
  let m : Msg := { h0 := header0 6 0 0 (pay.length / 4 + 1) false false (h.toNat % 2 ^ 48), pay := pay }
  let len (l : List (Nat × Nat)) : List (Nat × Nat) := l.map fun r => (r.1, r.2 + 1 - r.1)
  if m.target = 1 then
    if m.stepOk && m.stepPtrs.isNone then len (m.stepReads ++ m.stepWrites) else []
  else if m.target = 3 then
    if m.copyOk && (m.copyOf.check (m.word 1) (m.word 2) none).isNone then len (m.copyOf.srcRange.toList ++ m.copyOf.dstRange.toList) else []
  else []

/-- send (R206 to R209): in a speculative task only kinds 0 and 5 without RX (R212). -/
def sendBody (pri ch flits kind : Nat) (h d : Word) (s : State) : Act :=
  let dest := d.toNat % 2 ^ 24
  let rx := expects kind h
  let len := (s.st.q1.getD 0 0).toNat % 256
  if s.st.task.isSome && (!(kind = 0 || kind = 5) || bit h.toNat 63) then .code 0x12
  else sendChecks false pri ch flits kind h s <|
    if rx && s.hpStarted then .ill s 2
    else if !s.reaches dest then unreachable s
    else if (rx && !s.replyFree) || s.outFull || s.unsent s.sys.nextId then .hold
    else if kind = 1 && s.behind s.sys.nextId dest (some ch) [(h.toNat % 2 ^ 18, len)] then .hold
    else
      let pay := s.st.q1
      let rel (s : State) : Option (Nat × Nat) := some s.pair
      let go (s : State) : State :=
        let s := s.release
        let s := s.enter kind pri ch flits (h.toNat % 2 ^ 48) dest pay none (rel s) .none
        (if rx && (kind = 0 || kind = 5) then s.expectReply else s).takeQ1
      if rx then
        issueOp (sendOp kind ch len dest h) (if kind = 6 then s.recordCmd 1 [] s.ir s.fpctl h d pay (requestRanges h pay) else s) fun s =>
          go (s.takeReply (sendGroup kind) ch dest (h.toNat % 2 ^ 48))
      else .next (go s)

/-- send. -/
def execSend (pri ch fl h d kind g : Nat) : State → Host.Outcome State Fault Refusal :=
  issue g [h, d] fun s => sendBody pri ch (fl + 1) kind (s.g h) (s.g d) s

end Sys2Proof.Machine
end

