-- ==== Sys2Proof/Machine/Quant.lean ====
section
/-! DEFINITION. QNT and DQNT (R174 to R177): outliers elected, block scales, codes, the tile image, and the way back. -/

namespace Sys2Proof.Machine

/-- The largest exponent of an element type (R95). -/
def typeEmax (ty : Nat) : Int := [8, 2, 6, 0].getD ty 0

/-- A finite magnitude as a multiple of 2^lo. -/
def FVal.mag (lo : Int) : FVal → Nat
  | .fin _ m e => m * 2 ^ (e - lo).toNat
  | _ => 0

/-- The code of a value of an element type, with the flags of its rounding: RNE, saturating (R100, R101, R175). -/
def codeOf (ty fpctl : Nat) (x : FVal) : Nat × Nat :=
  let rne := fpctl / 8 * 8
  match ty with
  | 0 => qf8.pack rne x
  | 1 => qf4.pack rne x
  | 2 => toInt 8 (-127) 127 rne x
  | _ => toInt 2 (-1) 1 rne x

/-- A quantised block: its scale, its codes, its outliers as place in the block and list value, its flags. -/
structure QBlock where
  scale : Nat
  codes : List Nat
  outs : List (Nat × Nat)
  flags : Nat

/-- The elements of a block in descending magnitude, the lower number first on ties. -/
def byMag (lo : Int) (xs : List FVal) : List (Nat × Nat) :=
  (xs.zipIdx.map fun x => (x.1.mag lo, x.2)).mergeSort fun a b => b.1 < a.1 || (a.1 == b.1 && a.2 ≤ b.2)

/-- One block quantised (R175). Where a block has no (E+1)-th magnitude the rule states none: it is a free value. -/
def quantBlock (size g tau fpctl : Nat) (raw : List Nat) : QBlock :=
  let xs := raw.map ((if size = 4 then f32 else bf16).value (fizOf fpctl))
  let f := geomFmt g
  let ty := fmtType f
  let e := fmtEscapes f
  let special := xs.any fun x => match x with | .fin _ _ _ => false | _ => true
  if special then { scale := 255, codes := xs.map fun _ => 0, outs := [], flags := flagNV }
  else
    let lo := lowExp xs 0
    let order := byMag lo xs
    let m := match order[e]? with | some x => x.1 | none => Config.blockMagnitude size g tau fpctl raw
    let out := ((order.take e).takeWhile fun x => 2 ^ tau * m < x.1).map (·.2)
    let rest := xs.zipIdx.filter fun x => !out.contains x.2
    let top := rest.foldl (fun t x => max t (x.1.mag lo)) 0
    let s : Nat := if top = 0 then 127 else (min 254 (max 0 ((bitLength top : Int) - 1 + lo - typeEmax ty + 127))).toNat
    let down (x : FVal) : FVal := x.scaled (127 - (s : Int))
    let cs := xs.zipIdx.map fun x => if out.contains x.2 then (escapeCode f, 0) else codeOf ty fpctl (down x.1)
    let os := (xs.zipIdx.filter fun x => out.contains x.2).map fun x =>
      let r := if ty = 3 then toInt 8 (-127) 127 (fpctl / 8 * 8) (down x.1) else bf16.pack (fpctl / 8 * 8) x.1
      (x.2, r.1, r.2)
    { scale := s, codes := cs.map (·.1), outs := os.map fun o => (o.1, o.2.1)
      flags := os.foldl (fun a o => a ||| o.2.2) (cs.foldl (fun a c => a ||| c.2) 0) }

/-- A list cut into pieces of n elements. -/
def chunks {α : Type} (n : Nat) : Nat → List α → List (List α)
  | 0, _ => []
  | fuel + 1, l => if l.isEmpty then [] else l.take n :: chunks n fuel (l.drop n)

/-- A tile image from quantised blocks (R96, R97, R176), or the block whose outliers would take the 65th entry. Bytes that no unit covers
keep what the tile held (R156). The code bytes of the absent elements and blocks of a final unit are written 0: DESIGN CHOICE, log entry 37. -/
def quantImage (g : Nat) (blocks : List QBlock) (old : List Byte) : Except Nat (List Byte) :=
  let b := 2 ^ geomBlen g
  let w := fmtBits (geomFmt g)
  let entries := blocks.zipIdx.flatMap fun x => x.1.outs.map fun o => (x.2, (x.2 * b + o.1) * 2 ^ 16 + o.2)
  match entries[64]? with
  | some e => .error e.1
  | none =>
    let units := (chunks 16 (unitCount g) blocks).flatMap fun bs =>
      let codes := bs.flatMap fun x => x.codes ++ List.replicate (b - x.codes.length) 0
      bytesOfWord 16 (ofLanes 8 (bs.map (·.scale))) ++ bytesOfWord (2 * b * w) (ofLanes w codes)
    let list := (entries.map (·.2)) ++ List.replicate (64 - entries.length) 0xFFFF0000
    .ok (units ++ (old.drop units.length).take (3840 - units.length) ++ list.flatMap (bytesOfWord 4))

/-- The memory rows of a QNT or DQNT: elements of 4 or 2 bytes (R174, R175). -/
def quantRows (g : Nat) (size : Nat) (stride : Word) : TileRows :=
  let len := geomK g * size
  let st := sext 48 stride.toNat
  { n := geomRows g, len := len, stride := if st = 0 then (len : Nat) else st, pitch := len }

/-- The size of an element of a pointer's format: f32 or bf16. -/
def quantSize (p : Word) : Nat := if ptrFmt p = 8 then 4 else 2

/-- QNT and DQNT issued (R172, R175). -/
def quantIssue (kind : OpKind) (t b : Nat) (s : State) : Act :=
  src b s fun p s =>
    let gm := s.core.geomOf t
    let wr := kind == .qnt
    if !geomOk gm || !fmtBlock (geomFmt gm) then .trap (tileFmt t) id
    else match (if wr then s.core.tileBusy t true else none) with
      | some x => .trap x id
      | none =>
        let regs := s.st.shadow.qnt.toList
        let r := quantRows gm (quantSize p) (regs.getD 1 0)
        let range := if ptrBad p then none else boundRuns (p.toNat % 2 ^ 48) r.stride r.n r.len
        let o : Op := { kind := kind, cls := .t, n := t, a := p, regs := regs, geoms := [word gm], tiles := [(t, wr)] }
        let s := s.recordCmd 3 regs s.ir s.fpctl 0 p [] (range.toList.map fun r => (r.1, r.2 + 1 - r.1))
        engineIssue o (if wr then range.toList else []) (if wr then [] else range.toList) s id

/-- qnt (R174). -/
def execQnt (t b g : Nat) : State → Host.Outcome State Fault Refusal := issueNoSpec g [b] (quantIssue .qnt t b)

/-- dqnt (R174). -/
def execDqnt (t b g : Nat) : State → Host.Outcome State Fault Refusal := issueNoSpec g [b] (quantIssue .dqnt t b)

/-- A QNT carried out on its bytes (R175, R176). -/
def State.quantise (s : State) (o : Op) (g tau : Nat) (bs : List Byte) : State :=
  let size := quantSize o.a
  let blocks := (chunks (2 ^ geomBlen g) 4096 (lanes (8 * size) (geomRows g * geomK g) (wordOfBytes bs))).map (quantBlock size g tau o.fpctl)
  let fl := blocks.foldl (fun a b => a ||| b.flags) 0
  match quantImage g blocks (s.core.tileBytes o.n) with
  | .error b => s.tileDone o o.n (some { code := 0x0A, info := word (b % 2 ^ 16), addr := word o.pc }) fl
  | .ok img => (s.modCore fun c => c.tilePut o.n 0 img).tileDone o o.n none fl

/-- A DQNT carried out: the tile checked, its values rounded into memory (R177). -/
def State.dequantise (s : State) (o : Op) (g : Nat) (r : TileRows) : State :=
  let img := s.core.tileBytes o.n
  match blockCheck g img with
  | some x => s.completeOp o (some x) 0 none
  | none =>
    let size := quantSize o.a
    let f := if size = 4 then f32 else bf16
    let vals := (tileVals g (fizOf o.fpctl) false img).flatten.map fun v => let p := f.pack o.fpctl v.1; (p.1, p.2 ||| v.2)
    match writeRows (s.party o) (o.a.toNat % 2 ^ 48) r r.n 0 (bytesOfWord (size * vals.length) (ofLanes (8 * size) (vals.map (·.1)))) s none with
    | (s, .wait page) => s.stallOp o page
    | (s, .fail x) => s.completeOp o (some x) 0 none
    | (s, .ok _) => s.completeOp o none (vals.foldl (fun a v => a ||| v.2) 0) none

/-- QUANTISE_COMPLETE (R175 to R177): a QNT or DQNT is carried out once its tile's earlier commands allow it (R160). -/
def execQuantiseComplete (c k id : Nat) : State → Host.Outcome State Fault Refusal :=
  opEvent c k id (fun o => o.kind == .qnt || o.kind == .dqnt) fun o s =>
    let g := (o.geoms.getD 0 0).toNat
    let va := o.a.toNat % 2 ^ 48
    let tau := (o.regs.getD 0 0).toNat % 8
    let r := quantRows g (quantSize o.a) (o.regs.getD 1 0)
    let fail (s : State) (x : Trap) : State := if o.kind = .qnt then s.tileDone o o.n (some x) 0 else s.completeOp o (some x) 0 none
    if s.core.tileBlocked o || s.sys.now < o.absentAt then s
    else if ptrBad o.a then fail s (copyErr 4 va)
    else if ptrFmt o.a != 8 && ptrFmt o.a != 10 then fail s (copyErr 6 va)
    else if o.kind = .qnt && (tau = 0 || 6 < tau) then fail s (copyErr 8 va)
    else if (boundRuns va r.stride r.n r.len).isNone then fail s (copyErr 8 va)
    else if o.kind = .qnt then
      match readRows (s.party o) va r r.n 0 s with
      | (s, .wait page) => s.stallOp o page
      | (s, .fail x) => fail s x
      | (s, .ok bs) => s.quantise o g tau bs
    else s.dequantise o g r

end Sys2Proof.Machine
end

