-- ==== Sys2Proof/Machine/Index.lean ====
section
/-! DEFINITION. Sparsity (R181 to R191): bitmap tiles, ISECT, PART, BMPACK, PRUNE and MSEARCH on the cluster's index engine. Where several
checks of R183 fail, the first in the order of its table is reported, GEOM before OVERLAP. -/

namespace Sys2Proof.Machine

/-! ## Bitmap tiles (R181, R182) -/

/-- A bitmap tile: rows, columns, value format, the kept places as (row, column) in row-major order, and their values. -/
structure Bitmap where
  rows : Nat
  k : Nat
  vfmt : Nat
  bits : List (Nat × Nat)
  vals : List Nat

/-- The 4,096 bytes of a bitmap tile (R181). -/
def Bitmap.image (b : Bitmap) : List Byte :=
  let head := b.rows + b.k * 2 ^ 6 + b.vfmt * 2 ^ 16 + b.bits.length * 2 ^ 22
  let row (i : Nat) : Nat := (b.bits.filter fun x => x.1 == i).foldl (fun m x => m + 2 ^ x.2) 0
  bytesOfWord 64 head ++ (List.range 32).flatMap (fun i => bytesOfWord 8 (row i))
  ++ bytesOfWord 3776 (ofLanes 16 b.vals)

/-- A bitmap tile read and checked (R182): GEOM, or SPARSE_FMT with the counts, at its address. -/
def readBitmap (va : Nat) (img : List Byte) : Except Trap Bitmap :=
  let head := wordOfBytes (img.take 64)
  let rows := bits head 5 0
  let k := bits head 15 6
  let vfmt := bits head 21 16
  let len := bits head 32 22
  if head / 2 ^ 33 != 0 || rows = 0 || 32 < rows || k = 0 || 64 < k || !(vfmt = 9 || vfmt = 10) || 1888 < len then .error (copyErr 8 va)
  else
    let bs := (List.range rows).flatMap fun i =>
      let r := wordOfBytes ((img.drop (64 + 8 * i)).take 8)
      ((List.range k).filter fun c => bit r c).map fun c => (i, c)
    if bs.length != len then .error { code := 0x0B, addr := word va, party := word (bs.length + len * 2 ^ 32) }
    else .ok { rows := rows, k := k, vfmt := vfmt, bits := bs, vals := lanes 16 len (wordOfBytes (img.drop 320)) }

/-- The value of a place of a bitmap tile, if it is kept. -/
def Bitmap.val (b : Bitmap) (i c : Nat) : Option Nat := (b.bits.zip b.vals).findSome? fun x => if x.1 = (i, c) then some x.2 else none

/-! ## What a command touches (R183, R184) -/

/-- What a command reads and writes before it looks at data: pointers with the alignment they need, pointers whose FMT is fixed, the
ranges it reads and writes as (address, stride, runs, length), and whether its geometry is in range. -/
structure IdxPlan where
  ptrs : List (Word × Nat)
  fmts : List (Word × List Nat)
  rd : List (Nat × Int × Nat × Nat)
  wr : List (Nat × Int × Nat × Nat)
  ok : Bool

/-- The commands of R185 by number: 0 ISECT, 1 PART, 2 to 5 BMPACK P, X, C, Ct, 6 to 8 PRUNE 1:4, 2:4, 2:8, 9 MSEARCH. -/
def idxPlan (cmd : Nat) (a b : Word) (regs : List Word) (ends : Nat × Nat) : IdxPlan :=
  let r (i : Nat) : Word := regs.getD i 0
  let n := (r 0).toNat % 2 ^ 25
  let rows := bits (r 8).toNat 5 0
  let k := bits (r 8).toNat 15 6
  let st := sext 48 (r 9).toNat
  let stride : Int := if st = 0 then (2 * k : Nat) else st
  let va (p : Word) : Nat := p.toNat % 2 ^ 48
  let arr (p : Word) (m : Nat) : Nat × Int × Nat × Nat := (va p, 0, 1, 4 * m)
  let dense (p : Word) : Nat × Int × Nat × Nat := (va p, stride, rows, 2 * k)
  let tile (p : Word) : Nat × Int × Nat × Nat := (va p, 0, 1, 4096)
  let geo := 1 ≤ rows && rows ≤ 32 && 1 ≤ k && k ≤ 64
  let even := st % 2 == 0 || rows ≤ 1
  match cmd with
  | 0 => { ptrs := [(a, 4), (b, 4), (r 1, 4), (r 2, 4), (r 3, 4), (r 4, 4)], fmts := []
           rd := [arr (r 1) (n + 1), arr (r 3) (n + 1), arr (r 2) ends.1, arr (r 4) ends.2], wr := [arr a (n + 1), arr b (r 5).toNat]
           ok := n ≤ 2 ^ 24 && (r 5).toNat ≤ 2 ^ 28 }
  | 1 => { ptrs := [(a, 4), (b, 4)], fmts := [], rd := [arr b (n + 1)], wr := [arr a ((r 6).toNat + 1)]
           ok := n ≤ 2 ^ 24 && 1 ≤ (r 6).toNat && (r 6).toNat ≤ 4096 }
  | 2 => { ptrs := [(a, 64), (b, if even then 2 else 0)], fmts := [(a, [0x20]), (b, [9, 10])], rd := [dense b], wr := [tile a], ok := geo }
  | 3 => { ptrs := [(a, 2), (b, 64)], fmts := [(b, [0x20]), (a, [9, 10])], rd := [tile b]
           wr := if ends.1 = 0 then [] else [(va a, if st = 0 then (2 * ends.2 : Nat) else st, ends.1, 2 * ends.2)], ok := true }
  | 4 | 5 => { ptrs := [(a, 1), (b, 64)], fmts := [(b, [0x20]), (a, [0x21, 0x22])], rd := [tile b], wr := [tile a], ok := true }
  | 9 => { ptrs := [(a, 64), (b, if even then 2 else 0), (r 11, 1)], fmts := [(a, [0x20]), (b, [9, 10])], rd := [dense b]
           wr := [tile a, (va (r 11), 0, 1, (rows / 4 * (k / 4) + 7) / 8)], ok := geo && rows % 4 == 0 && k % 4 == 0 }
  | _ => { ptrs := [(a, 64), (b, if even then 2 else 0), (r 10, if even then 2 else 0)], fmts := [(a, [0x20]), (b, [10]), (r 10, [10])]
           rd := [dense b, dense (r 10)], wr := [tile a], ok := geo && k % (if cmd = 8 then 8 else 4) == 0 }

/-- The bounding ranges of a list of transfers, when all lie in range. -/
def rangesOf : List (Nat × Int × Nat × Nat) → Option (List (Nat × Nat))
  | [] => some []
  | (va, st, n, len) :: l => match rangesOf l with
    | none => none
    | some rs => if len = 0 then some rs else (boundRuns va st n len).map fun r => r :: rs

/-- The checks of R183 that need no data. -/
def IdxPlan.check (p : IdxPlan) : Option Trap :=
  let va (w : Word) : Nat := w.toNat % 2 ^ 48
  match p.ptrs.find? fun x => bits x.1.toNat 53 48 != 0 with
  | some x => some (copyErr 4 (va x.1))
  | none => match p.ptrs.find? fun x => x.2 == 0 || va x.1 % x.2 != 0 with
    | some x => some (copyErr 5 (va x.1))
    | none => match p.fmts.find? fun x => !x.2.contains (ptrFmt x.1) with
      | some x => some (copyErr 6 (va x.1))
      | none =>
        if !p.ok then some (copyErr 8 0)
        else match rangesOf p.rd, rangesOf p.wr with
          | some rs, some ws =>
            if rs.any fun r => ws.any fun w => r.1 ≤ w.2 && w.1 ≤ r.2 then some (copyErr 7 0) else none
          | _, _ => some (copyErr 8 0)

/-- An unsigned 32-bit array element read. -/
def State.idxAt (s : State) (p : Party) (base i : Nat) : State × Except Res Nat :=
  match s.engineRead p (base + 4 * i) 4 with
  | (s, .ok bs) => (s, .ok (wordOfBytes bs))
  | (s, r) => (s, .error r)

/-- n elements of an unsigned 32-bit array. -/
def State.idxArr (s : State) (p : Party) (base n : Nat) : State × Except Res (List Nat) :=
  match s.engineRead p base (4 * n) with
  | (s, .ok bs) => (s, .ok (lanes 32 n (wordOfBytes bs)))
  | (s, r) => (s, .error r)

/-- How far the index arrays of an ISECT are read: the greatest row pointers, or what is given for an array where they are not known. -/
def State.isectEnds (s : State) (p : Party) (regs : List Word) (unknown : Word → Nat) (known : Bool) : Nat × Nat :=
  let n := (regs.getD 0 0).toNat % 2 ^ 25
  let top (i : Nat) : Nat := match if known && n ≤ 2 ^ 24 then (s.idxArr p ((regs.getD i 0).toNat % 2 ^ 48) (n + 1)).2 else .error (.wait true) with
    | .ok l => l.foldl max 0
    | .error _ => unknown (regs.getD (i + 1) 0)
  (top 1, top 3)

/-- Whether no older engine operation of the focused strand may still write what a command reads. -/
def State.copiesDone (s : State) : Bool := !s.st.ops.any fun o => o.cls == .c && !o.complete

/-- As many elements as an index array can have: 2^32 - 1, and no more than end with the address space. -/
def mostIndices (w : Word) : Nat := min (2 ^ 32 - 1) ((2 ^ 48 - w.toNat % 2 ^ 48) / 4)

/-- The rows and columns that a bitmap tile's header gives; the greatest there may be while an older engine operation of the strand may
still write it, or where it cannot be read (DEDUCED, log entry 38). -/
def State.bitmapDims (s : State) (p : Party) (w : Word) : Nat × Nat :=
  if !s.copiesDone then (32, 64)
  else match (s.engineRead p (w.toNat % 2 ^ 48) 8).2 with
  | .ok bs => (min 32 (bits (wordOfBytes bs) 5 0), min 64 (bits (wordOfBytes bs) 15 6))
  | _ => (32, 64)

/-- What the bounding ranges of a command need from its data at issue: the greatest row pointers of ISECT, the geometry of BMPACK X; of either, the
greatest there may be where it is not known yet (DEDUCED, log entry 38). -/
def State.idxEnds (s : State) (p : Party) (cmd : Nat) (b : Word) (regs : List Word) : Nat × Nat :=
  if cmd = 0 then s.isectEnds p regs mostIndices s.copiesDone else if cmd = 3 then s.bitmapDims p b else (0, 0)

/-- An index command issued (R183). -/
def idxBody (cmd a b : Nat) (s : State) : Act :=
  let regs := s.st.shadow.idx.toList
  let o : Op := { kind := if cmd = 0 then .isect else if cmd = 1 then .part else if cmd = 9 then .msearch else if cmd < 6 then .bmpack else .prune
                  cls := .c, a := s.g a, b := s.g b, regs := regs, op := cmd, record := bit (regs.getD 7 0).toNat 0 }
  let plan := idxPlan cmd (s.g a) (s.g b) regs (s.idxEnds (s.party o) cmd (s.g b) regs)
  let live := (idxPlan cmd (s.g a) (s.g b) regs (0, 0)).check.isNone
  let rd := if live then (rangesOf plan.rd).getD [] else []
  let wr := if live then (rangesOf plan.wr).getD [] else []
  let s := s.recordCmd 2 regs s.ir s.fpctl (s.g a) (s.g b) [] ((wr ++ rd).map fun r => (r.1, r.2 + 1 - r.1))
  engineIssue o rd wr s id

/-- An index instruction. -/
def idxIssue (cmd a b g : Nat) : State → Host.Outcome State Fault Refusal := issueNoSpec g [a, b] (idxBody cmd a b)

/-- isect (R186). -/
def execIsect (a b g : Nat) : State → Host.Outcome State Fault Refusal := idxIssue 0 a b g
/-- part (R187). -/
def execPart (a b g : Nat) : State → Host.Outcome State Fault Refusal := idxIssue 1 a b g
/-- bmpack.p (R188). -/
def execBmpackP (a b g : Nat) : State → Host.Outcome State Fault Refusal := idxIssue 2 a b g
/-- bmpack.x (R188). -/
def execBmpackX (a b g : Nat) : State → Host.Outcome State Fault Refusal := idxIssue 3 a b g
/-- bmpack.c (R188). -/
def execBmpackC (a b g : Nat) : State → Host.Outcome State Fault Refusal := idxIssue 4 a b g
/-- bmpack.ct (R188). -/
def execBmpackCt (a b g : Nat) : State → Host.Outcome State Fault Refusal := idxIssue 5 a b g
/-- prune (R189): m is 0, 1 and 2 for 1:4, 2:4 and 2:8. -/
def execPrune (a b m g : Nat) : State → Host.Outcome State Fault Refusal := idxIssue (6 + m) a b g
/-- msearch (R190). -/
def execMsearch (a b g : Nat) : State → Host.Outcome State Fault Refusal := idxIssue 9 a b g

/-! ## ISECT and PART (R186, R187) -/

/-- The merge of one row (R186): the entries it adds to those found, and whether the capacity was reached. -/
def isectRow (p : Party) (aidx bidx cap ie je : Nat) : Nat → Nat → Nat → List Nat → State → State × Except Res (List Nat × Bool)
  | 0, _, _, out, s => (s, .ok (out, false))
  | fuel + 1, i, j, out, s =>
    if ie ≤ i || je ≤ j then (s, .ok (out, false))
    else match s.idxAt p aidx i with
      | (s, .error r) => (s, .error r)
      | (s, .ok x) => match s.idxAt p bidx j with
        | (s, .error r) => (s, .error r)
        | (s, .ok y) =>
          if x < y then isectRow p aidx bidx cap ie je fuel (i + 1) j out s
          else if y < x then isectRow p aidx bidx cap ie je fuel i (j + 1) out s
          else if cap ≤ out.length then (s, .ok (out, true))
          else isectRow p aidx bidx cap ie je fuel (i + 1) (j + 1) (out ++ [x]) s

/-- Row after row (R186): the result's row pointers and indices, and the row at which the capacity was reached. -/
def isectRows (p : Party) (aidx bidx cap : Nat) (as bs : List Nat) :
    Nat → Nat → List Nat → List Nat → State → State × Except Res (List Nat × List Nat × Option Nat)
  | 0, _, cs, out, s => (s, .ok (cs, out, none))
  | n + 1, r, cs, out, s =>
    let i := as.getD r 0
    let ie := max (as.getD (r + 1) 0) i
    let j := bs.getD r 0
    let je := max (bs.getD (r + 1) 0) j
    match isectRow p aidx bidx cap ie je ((ie - i) + (je - j)) i j out s with
    | (s, .ok (out, false)) => isectRows p aidx bidx cap as bs n (r + 1) (cs ++ [out.length]) out s
    | (s, .ok (out, true)) => (s, .ok (cs, out, some r))
    | (s, .error e) => (s, .error e)

/-- The boundaries of PART (R187). -/
def partBounds (ptr : List Nat) (n parts : Nat) : List Nat :=
  let w (r : Nat) : Nat := (ptr.getD (r + 1) 0 - ptr.getD r 0) + 1
  let sums := (List.range n).foldl (fun acc r => acc ++ [(acc.getLast?.getD 0) + w r]) [0]
  let total := sums.getLast?.getD 0
  (List.range (parts + 1)).map fun p => (sums.findIdx? fun x => p * total ≤ x * parts).getD n

/-! ## PRUNE and MSEARCH (R189, R190) -/

/-- A magnitude that ranks NaN above infinity above every number: rank and multiple of 2^lo. -/
def rankOf (lo : Int) (x : FVal) : Nat × Nat := match x with
  | .nan _ => (2, 0)
  | .inf _ => (1, 0)
  | v => (0, v.mag lo)

/-- The n places of a list with the greatest ranks, the lower place first on ties, in ascending order. -/
def topPlaces (n : Nat) (xs : List FVal) : List Nat :=
  let lo := lowExp xs 0
  let l := (xs.zipIdx.map fun x => (rankOf lo x.1, x.2)).mergeSort fun a b =>
    b.1.1 < a.1.1 || (a.1.1 == b.1.1 && (b.1.2 < a.1.2 || (a.1.2 == b.1.2 && a.2 ≤ b.2)))
  ((l.take n).map (·.2)).mergeSort

/-- The saliency of an element (R189): the exact product, NaN for 0 times an infinity. -/
def saliency (w g : Nat) : FVal := (FVal.mul (bf16.value false w) (bf16.value false g)).getD (.nan true)

/-- The places PRUNE keeps in a row (R189). -/
def pruneRow (n m : Nat) (ws gs : List Nat) : List Nat :=
  (List.range (ws.length / m)).flatMap fun q =>
    (topPlaces n (List.zipWith saliency ((ws.drop (q * m)).take m) ((gs.drop (q * m)).take m))).map fun c => q * m + c

/-- The loss of an exchange (R190), infinities first; the difference of two infinities is not stated and is the free value. -/
def lossOf (lo free : Int) (x y : FVal) : Int × Int :=
  match x, y with
  | .inf _, .inf _ => (0, free)
  | .inf _, _ => (1, 0)
  | _, .inf _ => (-1, 0)
  | x, y => (0, (x.mag lo : Int) - (y.mag lo : Int))

/-- One pass of step 2 of R190 over a mask of kept places. -/
def exchange (free : Nat → Int) (v : Nat → Nat → FVal) (mask : List (Nat × Nat)) : List (Nat × Nat) :=
  let lo := lowExp ((List.range 16).map fun i => v (i / 4) (i % 4)) 0
  let count (c : Nat) : Nat := (mask.filter fun x => x.2 == c).length
  if (List.range 4).all fun c => count c == 2 then mask
  else
    let worst := (List.range 4).foldl (fun b c => if count b < count c then c else b) 0
    let cands := (List.range 4).flatMap fun r =>
      if mask.contains (r, worst) then
        ((List.range 4).filter fun c => count c < 2 && !mask.contains (r, c)).map fun c => (lossOf lo (free (16 * r + 4 * worst + c)) (v r worst) (v r c), r, c)
      else []
    let best := cands.foldl (fun (b : Option ((Int × Int) × Nat × Nat)) x => match b with
      | none => some x
      | some y => if x.1.1 < y.1.1 || (x.1.1 == y.1.1 && x.1.2 < y.1.2) then some x else b) none
    match best with
    | some (_, r, c) => (r, c) :: mask.filter fun x => x != (r, worst)
    | none => mask

/-- The mask of a 4 × 4 block of 16-bit elements, row by row, and whether it is the fallback mask (R190). -/
def blockMask (fmt fpctl : Nat) (raw : List Nat) : List (Nat × Nat) × Bool :=
  let v (r c : Nat) : FVal := (if fmt = 9 then f16 else bf16).value (fizOf fpctl) (raw.getD (4 * r + c) 0)
  if (List.range 16).any fun i => (v (i / 4) (i % 4)).isNan then
    ((List.range 4).flatMap fun c => (topPlaces 2 ((List.range 4).map fun r => v r c)).map fun r => (r, c), true)
  else
    let start := (List.range 4).flatMap fun r => (topPlaces 2 ((List.range 4).map fun c => v r c)).map fun c => (r, c)
    ((List.range 8).foldl (fun m _ => exchange (Config.maskLoss fmt fpctl raw) v m) start, false)

/-! ## INDEX_COMMAND_COMPLETE (R183) -/

/-- Pieces of a command's result written; the first failure is kept (R76). -/
def writeAll (p : Party) : List (Nat × List Byte) → State → Option Trap → State × Res
  | [], s, t => (s, match t with | some t => .fail t | none => .ok [])
  | (va, bs) :: l, s, t =>
    match s.engineWrite p va bs with
    | (s, .ok _) => writeAll p l s t
    | (s, .fail x) => writeAll p l s (t.or (some x))
    | (s, .wait b) => (s, .wait b)

/-- What a command makes of its data: pieces to write, flags and the status it completes with beside them. -/
structure IdxOut where
  ws : List (Nat × List Byte)
  fl : Nat := 0
  fail : Option Trap := none

/-- The rows of a dense matrix of 16-bit values. -/
def State.denseRows (s : State) (p : Party) (regs : List Word) (w : Word) : State × Except Res (List (List Nat)) :=
  let rows := bits (regs.getD 8 0).toNat 5 0
  let k := bits (regs.getD 8 0).toNat 15 6
  let st := sext 48 (regs.getD 9 0).toNat
  let r : TileRows := { n := rows, len := 2 * k, stride := if st = 0 then (2 * k : Nat) else st, pitch := 2 * k }
  match readRows p (w.toNat % 2 ^ 48) r rows 0 s with
  | (s, .ok bs) => (s, .ok ((List.range rows).map fun i => lanes 16 k (wordOfBytes ((bs.drop (2 * k * i)).take (2 * k)))))
  | (s, e) => (s, .error e)

/-- A bitmap tile at a pointer, read and checked. -/
def State.bitmapAt (s : State) (p : Party) (w : Word) : State × Except Res Bitmap :=
  let va := w.toNat % 2 ^ 48
  match s.engineRead p va 4096 with
  | (s, .ok bs) => (s, match readBitmap va bs with
    | .ok b => .ok b
    | .error t => .error (.fail t))
  | (s, e) => (s, .error e)

/-- BMPACK from a bitmap tile (R188): dense, or a 2:4 image, transposed when asked. -/
def packOut (o : Op) (b : Bitmap) : Except Trap (List (Nat × List Byte)) :=
  let va := o.a.toNat % 2 ^ 48
  if o.op = 3 then
    let st := sext 48 (o.regs.getD 9 0).toNat
    let stride : Int := if st = 0 then (2 * b.k : Nat) else st
    if ptrFmt o.a != b.vfmt then .error (copyErr 6 va)
    else if st % 2 != 0 && 1 < b.rows then .error (copyErr 5 va)
    else match boundRuns va stride b.rows (2 * b.k) with
      | none => .error (copyErr 8 va)
      | some w =>
        let src := o.b.toNat % 2 ^ 48
        if w.1 < src + 4096 && src ≤ w.2 then .error (copyErr 7 va)
        else .ok ((List.range b.rows).map fun (i : Nat) => (((va : Int) + stride * (i : Int)).toNat,
          bytesOfWord (2 * b.k) (ofLanes 16 ((List.range b.k).map fun c => (b.val i c).getD 0))))
  else
    let t := o.op == 5
    let (rows, cols) := if t then (b.k, b.rows) else (b.rows, b.k)
    let at_ (i c : Nat) : Option Nat := if t then b.val c i else b.val i c
    if ptrFmt o.a != b.vfmt + 0x18 then .error (copyErr 6 va)
    else if cols % 4 != 0 || 32 < rows then .error (copyErr 8 va)
    else
      let kept (i q : Nat) : List Nat := (List.range 4).filter fun j => (at_ i (4 * q + j)).isSome
      if (List.range rows).any fun i => (List.range (cols / 4)).any fun q => 2 < (kept i q).length then
        .error { code := 0x0B, addr := o.b &&& word (2 ^ 48 - 1) }
      else
        let idx (i q : Nat) : List Nat := match kept i q with
          | [] => [0, 1]
          | [j] => if j < 3 then [j, j + 1] else [2, 3]
          | l => l
        .ok ((List.range rows).flatMap fun i =>
          let js := (List.range (cols / 4)).map fun q => (q, idx i q)
          [(va + 64 * i, bytesOfWord cols (ofLanes 16 (js.flatMap fun q => q.2.map fun j => (at_ i (4 * q.1 + j)).getD 0))),
           (va + 2048 + 8 * i, bytesOfWord ((cols + 7) / 8) (ofLanes 2 (js.flatMap (·.2))))])

/-- A bitmap tile from the kept places of a matrix's rows. -/
def tileOf (vfmt : Nat) (rows : List (List Nat)) (keep : Nat → List Nat) : Bitmap :=
  let bs := (List.range rows.length).flatMap fun i => (keep i).map fun c => (i, c)
  { rows := rows.length, k := (rows.headD []).length, vfmt := vfmt, bits := bs, vals := bs.map fun x => (rows.getD x.1 []).getD x.2 0 }

/-- What follows a read of a command's data: the result, or how the read ended. -/
def withData {α : Type} (r : State × Except Res α) (f : State → α → State × Except Res IdxOut) : State × Except Res IdxOut :=
  match r with
  | (s, .ok x) => f s x
  | (s, .error e) => (s, .error e)

/-- What an index command does with its data. -/
def State.idxRun (s : State) (p : Party) (o : Op) : State × Except Res IdxOut :=
  let va (w : Word) : Nat := w.toNat % 2 ^ 48
  let r (i : Nat) : Word := o.regs.getD i 0
  let n := (r 0).toNat % 2 ^ 25
  let words (bs : List Nat) : List Byte := bytesOfWord (4 * bs.length) (ofLanes 32 bs)
  match o.op with
  | 0 =>
    withData (s.idxArr p (va (r 1)) (n + 1)) fun s as => withData (s.idxArr p (va (r 3)) (n + 1)) fun s bs =>
    withData (isectRows p (va (r 2)) (va (r 4)) (r 5).toNat as bs n 0 [0] [] s) fun s x =>
      (s, .ok { ws := [(va o.a, words x.1), (va o.b, words x.2.1)], fail := x.2.2.map fun r => { copyErr 8 0 with party := word r } })
  | 1 => withData (s.idxArr p (va o.b) (n + 1)) fun s ptr => (s, .ok { ws := [(va o.a, words (partBounds ptr n (r 6).toNat))] })
  | 2 => withData (s.denseRows p o.regs o.b) fun s rows =>
    let b := tileOf (ptrFmt o.b) rows fun i => (List.range (rows.getD i []).length).filter fun c => (rows.getD i []).getD c 0 % 2 ^ 15 != 0
    (s, if 1888 < b.bits.length then .error (.fail (copyErr 8 0)) else .ok { ws := [(va o.a, b.image)] })
  | 3 | 4 | 5 => withData (s.bitmapAt p o.b) fun s b => (s, match packOut o b with
      | .ok ws => .ok { ws := ws }
      | .error t => .error (.fail t))
  | 9 => withData (s.denseRows p o.regs o.b) fun s rows =>
    let k := (rows.headD []).length
    let ms := (List.range (rows.length / 4 * (k / 4))).map fun b =>
      let (i0, c0) := (b / (k / 4) * 4, b % (k / 4) * 4)
      (i0, c0, blockMask (ptrFmt o.b) o.fpctl ((List.range 16).map fun i => (rows.getD (i0 + i / 4) []).getD (c0 + i % 4) 0))
    let kept (i : Nat) : List Nat := (List.range k).filter fun c => ms.any fun m => i / 4 * 4 == m.1 && c / 4 * 4 == m.2.1 && m.2.2.1.contains (i % 4, c % 4)
    let falls := maskOf ms.length fun b => ((ms[b]?).map (·.2.2.2)).getD false
    (s, .ok { ws := [(va o.a, (tileOf (ptrFmt o.b) rows kept).image), (va (r 11), bytesOfWord ((ms.length + 7) / 8) falls)]
              fl := if falls = 0 then 0 else flagNV })
  | c => withData (s.denseRows p o.regs o.b) fun s ws => withData (s.denseRows p o.regs (r 10)) fun s gs =>
    let (keep, m) := if c = 6 then (1, 4) else if c = 7 then (2, 4) else (2, 8)
    let b := tileOf (ptrFmt o.b) ws fun i => pruneRow keep m (ws.getD i []) (gs.getD i [])
    let nan := (List.zipWith (List.zipWith saliency) ws gs).any fun l => l.any FVal.isNan
    (s, .ok { ws := [(va o.a, b.image)], fl := if nan then flagNV else 0 })

/-- Whether the cluster's index engine is in the middle of another command, which waits for a page: it executes one at a time (R183). -/
def State.idxBusy (s : State) (id : Nat) : Bool :=
  s.cores.any fun c => s.clusterKey c.coord == s.cl && c.strands.any fun t => t.ops.any fun q =>
    q.kind.engine == 2 && q.started && !q.complete && q.id != id

/-- The data a command's checks need when it executes (R183): the greatest row pointers of ISECT. BMPACK X checks its tile first (R182). -/
def State.idxNow (s : State) (p : Party) (o : Op) : Nat × Nat := if o.op = 0 then s.isectEnds p o.regs (fun _ => 0) true else (0, 0)

/-- A command waits in the middle of its execution, for a page or for a bank or a relock. -/
def State.idxHeld (s : State) (o : Op) (page : Bool) : State := (s.modOp o.id fun q => { q with started := true }).stallOp o page

/-- INDEX_COMMAND_COMPLETE (R183): an index or pruning command is carried out; commands of one strand in issue order. -/
def execIndexCommandComplete (c k id : Nat) : State → Host.Outcome State Fault Refusal :=
  opEvent c k id (fun o => o.kind.engine == 2) fun o s =>
    let p := s.party o
    if (s.st.ops.any fun q => q.kind.engine == 2 && !q.complete && q.id < o.id) || s.sys.now < o.absentAt || s.idxBusy o.id then s
    else match (idxPlan o.op o.a o.b o.regs (s.idxNow p o)).check with
      | some t => s.completeOp o (some t) 0 none
      | none =>
        match s.idxRun p o with
        | (s, .error (.fail t)) => s.completeOp o (some t) 0 none
        | (s, .error (.wait page)) => s.idxHeld o page
        | (s, .error (.ok _)) => s
        | (s, .ok r) =>
          match writeAll p r.ws s none with
          | (s, .wait page) => s.idxHeld o page
          | (s, .fail t) => s.completeOp o (some t) r.fl none
          | (s, .ok _) => s.completeOp o r.fail r.fl none

end Sys2Proof.Machine
end

