-- ==== Sys2Proof/Machine/Gang.lean ====
section
/-! DEFINITION. Forming and dissolving gangs (R144 to R147), and the reads and writes of a neighbour (R148 to R151). -/

namespace Sys2Proof.Machine

/-! ## GANG and disband (R145 to R147) -/

/-- Whether a strand waits in `gang #n`, its 65,536 cycles not yet over (R145). -/
def Strand.wantsGang (t : Strand) (n now : Nat) : Bool := t.life == .wait && match t.waiting with
  | .gang m u => m == n && now < u
  | _ => false

/-- The first column of the gang of n that the focused core would be in, when it fits the crew's rectangle (R145). -/
def State.gangLeft (s : State) (n : Nat) : Option Nat := match s.crew with
  | some w =>
    let l := w.x0 + n * ((s.core.x - w.x0) / n)
    if l + n - 1 ≤ w.x1 then some l else none
  | none => none

/-- The gang formed: every member has p1 false, its size and position, and goes on after the leader's `gang`. -/
def State.formGang (s : State) (n left : Nat) : State :=
  let cs := (List.range n).map fun i => pack (left + i) s.core.y
  let pc := (vget (s.coreAt (pack left s.core.y)).strands s.k {}).pc + 4
  s.atAll cs fun s =>
    ((s.setP 1 false).modSt fun t => { t with q3 := [], q3in := [], csr := { t.csr with gangSize := n, gangPos := s.core.x - left } }).goTo pc

/-- gang (R145, R146): p1 true in a gang or where it does not fit; else the strand waits for its partners, and for the relock of a partner's die
(R341). -/
def gangOp (n g : Nat) (s : State) : Host.Outcome State Fault Refusal :=
  issueLead (s.p g) [] true (fun s =>
    if s.st.csr.gangSize != 0 then .next (s.setP 1 true)
    else match s.gangLeft n with
      | none => .next (s.setP 1 true)
      | some l =>
        let others := ((List.range n).map fun i => pack (l + i) s.core.y).filter fun c => c != s.here
        let all := others.all fun c => (vget (s.coreAt c).strands s.k {}).wantsGang n s.sys.now && (s.die (s.dieKey c)).relock.isNone
        match s.st.waiting with
        | .gang _ u => if u ≤ s.sys.now then .next (s.setP 1 true) else if all then .gone (s.formGang n l) else .hold
        | _ =>
          if all then .gone (s.formGang n l)
          else .wait fun s => s.modSt fun t => { t with waiting := .gang n (s.afterCycles 65536) }) s

/-- gang #2. -/
def execGang2 (g : Nat) (s : State) : Host.Outcome State Fault Refusal := gangOp 2 g s
/-- gang #4. -/
def execGang4 (g : Nat) (s : State) : Host.Outcome State Fault Refusal := gangOp 4 g s
/-- gang #8. -/
def execGang8 (g : Nat) (s : State) : Host.Outcome State Fault Refusal := gangOp 8 g s

/-- disband (R147). -/
def execDisband (g : Nat) (s : State) : Host.Outcome State Fault Refusal := issueLead (s.p g) [] true (fun s => .next s.ungang) s

/-- GANG_TIMEOUT (R145): a strand whose partners have not come goes on with p1 true. -/
def execGangTimeout (c k : Nat) (s : State) : Host.Outcome State Fault Refusal :=
  if !s.inMesh c || 16 ≤ k then .next s
  else .next (s.atCore c k fun s => match s.st.waiting with
    | .gang _ u => if s.st.life = .wait && u ≤ s.sys.now then (s.setP 1 true).goTo (s.st.pc + 4) else s
    | _ => s)

/-! ## NGET and NPUT (R148 to R151) -/

/-- Whether the target of a neighbour access is ready (R149): of the same job, in RUN or WAIT, its die in no relock (R341). -/
def State.neighbourReady (s : State) (c : Nat) : Bool :=
  let core := s.coreAt c
  let job (i : Option Nat) : Option Nat := (i.bind s.crewOf).map (·.job)
  let life := (vget core.strands s.k {}).life
  core.crew.isSome && job core.crew == job s.core.crew && (life == .run || life == .wait) && (s.die (s.dieKey c)).relock.isNone

/-- A neighbour access of the core that x names (R149), whose bits 63:24 are ignored (DESIGN CHOICE, log entry 58): p1 true outside the crew's
rectangle. It asks at once and after every 16 cycles until T has passed, T counted from its issue; `regs` are its sources. Its own turn after T still serves
a target that is ready. In a gang the issue only notes T: the members are served together (R146). -/
def neighbour (regs : List Nat) (x : Word) (s : State) (serve : Nat → State → Act) : Act :=
  let c := x.toNat % 2 ^ 24
  let inside := match s.crew with
    | some w => inRect c w.x0 w.y0 w.x1 w.y1
    | none => false
  let t := s.afterCycles (max 16 (s.st.csr.ngettime.toNat % 2 ^ 16))
  let later (u a : Nat) : Act := .wait fun s => s.modSt fun t => { t with waiting := .neighbour u a, reads := regs }
  let ask (u : Nat) : Act :=
    if !s.neighbourReady c then later u (s.afterCycles 16)
    else match serve c (s.setP 1 false) with
      | .hold => later u 0
      | .wait f => .wait fun s => (f s).modSt fun t => { t with waiting := .neighbour u 0 }
      | r => r
  if !inside then .next (s.setP 1 true)
  else match s.st.waiting with
    | .neighbour u a =>
      if u ≤ s.sys.now && !s.neighbourReady c then .next (s.setP 1 true)
      else if a = 0 || u ≤ s.sys.now then ask u else .hold
    | _ => if s.st.csr.gangSize = 0 then ask t else later t 0

/-- A neighbour access of the scratchpad doubleword at y (R150, R151): ALIGN at issue; a range lock and a race stop it at itself (R226, R229,
R236). It is an access of the issuing strand, served by the target's NI; it waits for the strand's own accesses to the doubleword
(R220), for a relock of the target's die (R341), and for gated banks (R346). An uncorrectable error stops it too (R410). -/
def neighbourScratch (regs : List Nat) (x y : Word) (wr : Bool) (s : State) (serve : Nat → Nat → State → Act) : Act :=
  let off := y.toNat % 2 ^ 18
  if off % 8 != 0 then .code 3
  else neighbour regs x s fun c s =>
    let core := s.coreAt c
    if s.behind s.sys.nextId c none [(off, 8)] then .hold
    else match s.lockedFor (s.clusterKey c) (scratchSide c) [(off, 8)] wr with
    | some e => .trap (lockTrap e s.st.pc 6 off wr) id
    | none => match if core.racy then core.racing [(off, 8)] s.me s.st.det else none with
      | some (a, t) => .trap (raceTrap t s.st.pc 6 a wr) id
      | none => match (s.focus c s.k).sleeping [(off, 8)] with
        | b :: bs => .wait fun s => s.atCore c s.k fun s => s.wake (b :: bs)
        | [] => match core.softAt off 8 wr with
          | some a => .trap (softErr a) id
          | none => serve c off s

/-- nget.g (R149): b is a register number of the target. -/
def execNgetG (d a b g : Nat) : State → Host.Outcome State Fault Refusal :=
  issueNoSpec g [d, a] fun s => src a s fun x s => neighbour [a] x s fun c s => .next (s.setG d ((s.focus c s.k).g b))

/-- nget.s (R149). -/
def execNgetS (d a b g : Nat) : State → Host.Outcome State Fault Refusal :=
  issueNoSpec g [d, a, b] fun s => src a s fun x s => src b s fun y s => neighbourScratch [a, b] x y false s fun c off s =>
    .next (s.setG d (word ((s.coreAt c).scratch.rdN off 8)))

/-- nput (R149): where the target's scratchpad is checked, the write bears the issuing strand's tag (R228). -/
def execNput (d a b g : Nat) : State → Host.Outcome State Fault Refusal :=
  issueNoSpec g [d, a, b] fun s => src a s fun x s => src b s fun y s => neighbourScratch [a, b] x y true s fun c off s =>
    let v := s.g d
    let (me, det) := (s.me, s.st.det)
    .next (s.sideEffect.atCore c s.k fun s => s.modCore fun k =>
      let k := k.store off (bytesOfWord 8 v.toNat)
      if k.racy then k.tagged [(off, 8)] me det else k)

/-- NGET_RETRY (R149): a not-ready NGET or NPUT may ask again. -/
def execNgetRetry (c k : Nat) (s : State) : Host.Outcome State Fault Refusal :=
  if !s.inMesh c || 16 ≤ k then .next s
  else .next (s.atCore c k fun s => match s.st.waiting with
    | .neighbour u a => if a ≤ s.sys.now then s.modSt fun t => { t with waiting := .neighbour u 0 } else s
    | _ => s)

/-- A port read as a source and its value dropped (R29); any other register is left alone. -/
def State.popPort (s : State) (i : Nat) : State := match src i s fun _ s => .next s with
  | .next s => s
  | _ => s

/-- NGET_TIMEOUT (R149): T has passed; p1 is true and the strand goes on, its sources read (R29, R30). A member of a gang goes on with the gang:
its instruction, tried again, ends with p1 true. -/
def execNgetTimeout (c k : Nat) (s : State) : Host.Outcome State Fault Refusal :=
  if !s.inMesh c || 16 ≤ k then .next s
  else .next (s.atCore c k fun s => match s.st.waiting with
    | .neighbour u _ =>
      if s.sys.now < u || s.st.life != .wait || s.st.csr.gangSize != 0 then s
      else ((s.st.reads.foldl State.popPort s).setP 1 true).goTo (s.st.pc + 4)
    | _ => s)

end Sys2Proof.Machine
end

