-- ==== Sys2Proof/Machine/System.lean ====
section
/-! DEFINITION. The SYS family: TLBINV (R366), PGATE (R345 to R347), CTXLOAD and CTXSAVE (R376) with the seal of a darkroom context (R378). -/

namespace Sys2Proof.Machine

/-! ## TLBINV (R242, R366) -/

/-- Body of TLBINV over a range: PRIV without the translation right, else the strand waits until the invalidation has completed. -/
def invalidate (lo hi : Nat) (all : Bool) (s : State) : Act :=
  match s.st.waiting with
  | .inval _ _ _ true => .next s
  | .inval _ _ _ false => .hold
  | _ => .wait fun s => s.modSt fun t => { t with waiting := .inval lo hi all false }

/-- tlbinv (R366). -/
def execTlbinv (a b g : Nat) : State → Host.Outcome State Fault Refusal :=
  issueNoSpec g [a, b] fun s => src a s fun x s => src b s fun y s =>
    let lo := x.toNat % 2 ^ 48
    let n := y.toNat
    if !s.myCtx.right 8 then .code 2
    else if lo % 65536 != 0 || n % 65536 != 0 then .code 3
    else if 2 ^ 48 < lo + n then .code 4
    else if n = 0 then .next s
    else invalidate lo (lo + n) false s

/-- tlbinv.all (R366). -/
def execTlbinvAll (g : Nat) : State → Host.Outcome State Fault Refusal :=
  issueNoSpec g [] fun s => if !s.myCtx.right 8 then .code 2 else invalidate 0 (2 ^ 48) true s

/-- Whether a cached entry of a context overlaps a range. -/
def TlbEntry.inRange (e : TlbEntry) (gid lo hi : Nat) : Bool := e.gid == gid && e.base < hi && lo < e.base + e.size

/-- Every cached leaf of a context that overlaps a range. -/
def State.entriesIn (s : State) (gid lo hi : Nat) : List TlbEntry :=
  (s.cores.flatMap (fun c => c.itlb ++ c.dtlb) ++ s.clusters.flatMap (·.tlb2)).filter fun e => e.inRange gid lo hi

/-- Walks of a context in a range that wait on an ABSENT entry read it again (R364). -/
def Op.wakeWalk (o : Op) (lo hi now : Nat) : Op :=
  let here := lo ≤ o.a.toNat % 2 ^ 48 && o.a.toNat % 2 ^ 48 < hi
  if o.absentAt != 0 && o.kind != .spawn && (here || !(o.kind == .gld || o.kind == .gst)) then { o with absentAt := now } else o

/-- The SYNC pages of a range that its context maps no longer, forgotten: their frames count as newly mapped when they are used again (R243). -/
def State.forgetSync (s : State) (gid lo hi : Nat) : State :=
  let kept (x : Nat × Nat × Nat) : Bool :=
    x.2.1 != gid || !overlap (x.2.2 * 65536) 65536 lo (hi - lo) || (match (s.translate gid (x.2.2 * 65536) s.cl).2 with
      | .hit e => e.type == 5 && (e.syncPage s (x.2.2 * 65536)).1 == x.1
      | _ => false)
  s.modSys fun y => { y with syncPages := y.syncPages.filter kept }

/-- The modules that hold the copies of a leaf's frame (R368). -/
def TlbEntry.modules (s : State) (e : TlbEntry) : List Nat :=
  e.home s :: if e.dup then [(s.moduleField (bits e.dw1 29 16)).getD 0] else []

/-- A stretch without the addresses of a range: what is left below and above it. -/
def Placed.without (p : Placed) (lo hi : Nat) : List Placed :=
  (if p.lo < min p.hi lo then [{ p with hi := min p.hi lo }] else []) ++ if max p.lo hi < p.hi then [{ p with lo := max p.lo hi }] else []

/-- The PLACE in effect in a range, and the promotions asked for there, forgotten (R361, R364). -/
def State.unplace (s : State) (gid lo hi : Nat) : State :=
  s.modSys fun y => { y with
    placed := y.placed.flatMap fun p => if p.gid = gid then p.without lo hi else [p]
    wanted := y.wanted.filter fun e => !e.inRange gid lo hi }

/-- A request of an agent that waits for a page of the context reads its entry again (R364). -/
def AgentReq.wake (r : AgentReq) (gid now : Nat) : AgentReq :=
  if r.msg.gid = gid && r.op.absentAt != 0 then { r with op := { r.op with absentAt := now } } else r

/-- A range of a context invalidated: its cached translations, instruction words, the race tags of the frames that the discarded translations mapped
and guarded negatives go, SYNC pages no longer mapped are forgotten, and the walks that wait on it read again (R227, R241, R243, R333, R364, R366). -/
def State.discardRange (s : State) (gid lo hi : Nat) : State :=
  let gone := (s.entriesIn gid lo hi).filter fun e => e.type < 4
  let tagged (d : Nat) : Bool := gone.any fun e => (e.modules s).any fun m => overlap (memKey e.type m (e.pa e.base)) e.size (8 * d) 8
  let keep (es : List TlbEntry) : List TlbEntry := es.filter fun e => !e.inRange gid lo hi
  let core (s : State) : State :=
    if s.gid != gid then s.modCore fun c => { c with itlb := keep c.itlb, dtlb := keep c.dtlb }
    else s.modCore fun c => { c with
      itlb := keep c.itlb, dtlb := keep c.dtlb, icache := c.icache.filter fun w => !(lo ≤ w.1 && w.1 < hi)
      strands := c.strands.map fun t => { t with ops := t.ops.map fun o => o.wakeWalk lo hi s.sys.now } }
  let s := s.modSys fun y => { y with tags := y.tags.filter fun t => !tagged t.1 }
  let s := (s.cores.map Core.coord).foldl (fun s c => s.atCore c 0 core) s
  let s : State := { s with clusters := s.clusters.map fun c => { c with
    tlb2 := keep c.tlb2, ptrs := c.ptrs.filter fun e => e.gid != gid
    agent := c.agent.map fun r => r.wake gid s.sys.now, copyAgent := c.copyAgent.map fun r => r.wake gid s.sys.now } }
  ((s.unplace gid lo hi).forgetSync gid lo hi).dropNegatives gid lo hi

/-- Whether an engine operation or a request of an agent has a range in the range, of memory or of a scratchpad's pages, and may have translated it
(R242, R355, R366): its range-lock entry is held, and a page of it is there, or it has not found one missing. -/
def State.enginesIn (s : State) (gid lo hi : Nat) : Bool :=
  s.clusters.any fun u => u.locks.any fun e => (e.rd ++ e.wr ++ e.va).any fun r =>
    r.1 == gid && r.2.1 < hi && lo ≤ r.2.2 && (
      let a := max lo r.2.1
      let b := min (hi - 1) r.2.2
      let tried := s.cores.any fun c => c.allOps.any fun o => o.id == e.op && o.absentAt != 0
      !tried || (List.range (b / 65536 + 1 - a / 65536)).any fun i => match (s.translate gid ((a / 65536 + i) * 65536) u.key).2 with
        | .hit _ => true
        | _ => false)

/-- Whether an access that has translated an address of a range has begun and not been performed (R242): a remote access in flight, or an engine
operation. Every other access is translated and performed in one event. -/
def State.usesRange (s : State) (gid lo hi : Nat) : Bool :=
  s.enginesIn gid lo hi || s.cores.any fun c => c.allOps.any fun o => (o.kind == .gld || o.kind == .gst) && o.started && !o.complete
    && (let va := o.a.toNat % 2 ^ 48; lo ≤ va && va < hi) && ((c.crew.bind s.crewOf).map fun w => s.crewGid w) == some gid

/-- TLBINV_COMPLETE (R366). -/
def execTlbinvComplete (c k : Nat) (s : State) : Host.Outcome State Fault Refusal :=
  if !s.inMesh c || 16 ≤ k then .next s
  else .next (s.atCore c k fun s => match s.st.waiting with
    | .inval lo hi all false =>
      if s.usesRange s.gid lo hi then s
      else (s.discardRange s.gid lo hi).modSt fun t => { t with waiting := .inval lo hi all true }
    | _ => s)

/-! ## PGATE (R345 to R347) -/

/-- Bank k of a scratchpad emptied (R346): the offsets with bits 7:3 = k. -/
def emptyBank (m : Mem) (k : Nat) : Mem := m.filter fun c => bits c.1 7 3 != k

/-- The focused core's banks gated and woken as a mask says (R346): a bank whose state the mask does not change is left alone. A gated bank loses its
contents, an uncorrectable error (R410) with them. -/
def State.gateBanks (s : State) (mask : Nat) : State :=
  let s := s.wake ((List.range 32).filter fun i => bit s.core.gate i && !bit mask i)
  let new := (List.range 32).filter fun i => !bit s.core.gate i && bit mask i
  s.modCore fun c => { c with gate := new.foldl (fun g i => g + 2 ^ i) c.gate, waking := c.waking.filter fun w => !new.contains w.1
                              scratch := new.foldl emptyBank c.scratch, dirty := if new.isEmpty then c.dirty else dirtied c.dirty 0 0 (2 ^ 18)
                              bad := c.bad.filter fun d => !new.contains (d % 32) }

/-- pgate.s (R345, R346). -/
def execPgateS (a g : Nat) : State → Host.Outcome State Fault Refusal :=
  issueNoSpec g [a] fun s => src a s fun x s => .next (s.gateBanks (x.toNat % 2 ^ 32))

/-- The versions of a bank that find no entry in an ungated way: the latest tasks with a version there are aborted, never a job's earliest
(R272, R276, R346). -/
def dropVersions : Nat → Nat → State → State
  | 0, _, s => s
  | n + 1, bank, s =>
    let there := s.sys.versions.filter fun v => v.bank == bank
    if there.length ≤ s.versionRoom bank then s
    else match lastKey Version.task (there.filter fun v => !s.isEarliest v.job v.task) with
      | some v => dropVersions n bank (s.abortTasks v.job [v.task.2])
      | none => s

/-- pgate.w (R345): way 0 stays powered. A way that stays gated stays charged to the core that gated it. -/
def execPgateW (a g : Nat) : State → Host.Outcome State Fault Refusal :=
  issueNoSpec g [a] fun s => src a s fun x s =>
    if !s.myCtx.right 10 then .code 2
    else
      let want := (List.range 16).filter fun i => i != 0 && bit x.toNat i
      let s := s.modCluster s.cl fun c =>
        let kept := c.ways.filter fun w => want.contains w.1
        { c with ways := kept ++ (want.filter fun i => !kept.any fun w => w.1 == i).map fun i => (i, s.here) }
      let s := dropVersions s.sys.versions.length s.cl s
      if (s.sys.versions.filter fun v => v.bank == s.cl).length ≤ s.versionRoom s.cl then .next s else .hold

/-- BANK_WAKE_COMPLETE (R346): the banks whose 2 µs are over. -/
def execBankWakeComplete (c : Nat) (s : State) : Host.Outcome State Fault Refusal :=
  if !s.inMesh c then .next s
  else .next (s.atCore c 0 fun s => s.modCore fun k => { k with waking := k.waking.filter fun w => s.sys.now < w.2 })

/-! ## Contexts (R372 to R378) -/

/-- Whether a die holds work of context n (R376, LiveWork): a job, a crew, a queue or a negative. -/
def State.liveWork (s : State) (dk n : Nat) : Bool :=
  let d := s.die dk
  let gid := (d.ctx n).gidOf
  ((d.ctx n).valid && ((s.sys.jobs.any fun j => j.gid == gid && j.die == dk)
    || s.sys.crews.any fun w => s.crewGid w == gid && w.coords.any fun c => s.dieKey c == dk))
  || (d.queues.any fun q => q.valid && q.owner == n)
  || (s.sys.recordings.any fun r => r.die == dk && r.ctx == n)
  || (List.range 256).any fun i => d.dirState i != 0 && d.dirCtx i == n

/-- The REGION of a descriptor: x0, y0, x1, y1. -/
def regionOf (dw4 : Nat) : Nat × Nat × Nat × Nat := (bits dw4 11 0, bits dw4 23 12, bits dw4 35 24, bits dw4 47 36)

/-- The live contexts of the system: each die's valid entries other than the administration context. -/
def State.liveCtxs (s : State) : List Ctx := s.dies.flatMap fun d => d.ctxs.filter fun c => c.valid && c.num != 0

/-- Whether a live context of another GID has a REGION that meets this one (R375, R376). -/
def State.regionOverlap (s : State) (gid dw4 : Nat) : Bool :=
  let (x0, y0, x1, y1) := regionOf dw4
  s.liveCtxs.any fun c => c.gidOf != gid && (let (a0, b0, a1, b1) := regionOf (c.dw 4); a0 ≤ x1 && x0 ≤ a1 && b0 ≤ y1 && y0 ≤ b1)

/-- Whether the GID is live with another REGION or DARK (R376). -/
def State.gidInUse (s : State) (gid dw4 : Nat) (dark : Bool) : Bool :=
  s.liveCtxs.any fun c => c.gidOf == gid && (regionOf (c.dw 4) != regionOf dw4 || c.dark != dark)

/-- The fields that a descriptor shall keep (R373, R376): reserved bits zero, PLOG 20 to 47, REGION in the mesh, the modules in the system; one that is
VALID a GID not 0 and an aligned POOL too (log entry 49). HALTED, TIME and ENERGY are read-only and ignored. -/
def State.descBad (s : State) (d : List Nat) : Bool :=
  let w (i : Nat) : Nat := d.getD i 0
  let (x0, y0, x1, y1) := regionOf (w 4)
  bits (w 0) 7 3 != 0 || bits (w 0) 15 13 != 0 || bits (w 0) 63 48 != 0 || bits (w 1) 12 0 != 0 || bits (w 2) 63 28 != 0
  || bits (w 3) 11 0 != 0 || bits (w 4) 63 48 != 0 || bits (w 5) 63 54 != 0
  || bits (w 5) 53 48 < 20 || 47 < bits (w 5) 53 48 || x1 < x0 || y1 < y0 || 48 * s.sys.mx ≤ x1 || 48 * s.sys.my ≤ y1
  || (s.moduleField (bits (w 2) 13 0)).isNone || (s.moduleField (bits (w 2) 27 14)).isNone
  || (bit (w 0) 0 && (bits (w 0) 47 16 = 0 || bits (w 5) 47 0 % 2 ^ bits (w 5) 53 48 != 0))

/-- The attestation log of a module extended with an entry (R381). -/
def extendLog (log : Nat) (entry : List Byte) : Nat := Config.sha384 (bytesOfWord 48 log ++ bytesOfWord 48 (Config.sha384 entry))

/-- The plain bytes that the seal of a context measures (R378): its tables and the DEVMEM and TIER frames that they map, in walk order. -/
def State.sealBytes (s : State) (gid : Nat) : List Byte :=
  (s.items gid).flatMap fun i => match i with
    | .table key size => s.phys key size
    | .page e => if e.type < 2 then s.phys (memKey e.type (e.home s) (e.pa e.base)) e.size else []

/-- Why the seal of a context fails (R376, status 6): a table or frame in a failed module, sub-reason UNREACHABLE, or one with an uncorrectable
error, which has no sub-reason of R82 and gives 0 (log entry 49). -/
def State.sealFault (s : State) (gid : Nat) : Option Nat :=
  (s.items gid).findSome? fun i =>
    let (module, key, size) := match i with
      | .table key size => (key / 2 ^ 64 % 2 ^ 14, key, size)
      | .page e => (e.home s, memKey e.type (e.home s) (e.pa e.base), if e.type < 2 then e.size else 0)
    if size = 0 then none else if (s.mod module).failed then some 9 else if s.poisonedAt key size then some 0 else none

/-- A context's tables, its DEVMEM and TIER frames with their code bytes and side-table records put under its key (R371, R377, R378). -/
def State.encryptAll (s : State) (gid : Nat) : State :=
  (s.items gid).foldl (fun s i => match i with
    | .table key size => s.resealed gid none key size
    | .page e =>
      if 2 ≤ e.type then s
      else
        let s := (e.modules s).foldl (fun s m => s.resealed gid (some e.base) (memKey e.type m (e.pa e.base)) e.size) s
        if e.cmp = 0 then s else s.resealed gid none (s.codeKey e (e.home s) (e.pa e.base)) (e.size / 256)) s

/-- The seal of a new darkroom context (R378): the measurement of its tables' and frames' plain bytes, a fresh key (R377) and key pair QC, the
attestation entry; its memory then stands under the key. -/
def State.seal (s : State) (dk n : Nat) : State :=
  let gid := ((s.die dk).ctx n).gidOf
  let measure := Config.sha384 (s.sealBytes gid)
  let secret := Config.privateKey s.draw
  let qc := Config.publicKey secret
  let new (c : Ctx) : Ctx := { c with key := some (Config.sealKey s.draw), secret := some secret, qc := qc, measure := measure }
  let s := s.drawn.modDie dk fun d => d.setCtx (new (d.ctx n))
  let s := s.modMod (dk / 4) fun m => { m with log := extendLog m.log (bytesOfWord 4 gid ++ bytesOfWord 48 measure ++ bytesOfWord 97 qc.toNat) }
  s.encryptAll gid

/-- The SYNC pages and the PLACE in effect of a GID forgotten once no entry of it is left: what takes its frames maps them newly (R243). -/
def State.forgetGid (s : State) (gid : Nat) : State :=
  if s.liveCtxs.any fun c => c.gidOf == gid then s
  else s.modSys fun y => { y with
    syncPages := y.syncPages.filter fun x => x.2.1 != gid, placed := y.placed.filter fun p => p.gid != gid, wanted := y.wanted.filter fun e => e.gid != gid }

/-- CTXLOAD of a descriptor into entry n of a die (R376): the new state and the status, with the sub-reason of status 6. A second entry of a sealed GID
takes its key. -/
def State.ctxLoad (s : State) (dk n : Nat) (d : List Nat) : State × Nat :=
  let old := (s.die dk).ctx n
  let w (i : Nat) : Nat := d.getD i 0
  let valid := bit (w 0) 0
  let dark := bit (w 0) 1
  let gid := bits (w 0) 47 16
  if old.valid && valid then (s, 1)
  else if valid && s.regionOverlap gid (w 4) then (s, 2)
  else if valid && s.gidInUse gid (w 4) dark then (s, 3)
  else if !valid && s.liveWork dk n then (s, 4)
  else if dark && (bit (w 0) 11 || bit (w 0) 12) then (s, 5)
  else if s.descBad d then (s, 5)
  else if !valid then
    let s := s.modDie dk fun x => { x with queues := x.queues.map fun q => if q.owner = n then { q with gen := (q.gen + 1) % 2 ^ 16 } else q }
    ((s.modDie dk fun x => x.setCtx { num := n, dws := [word (old.gidOf * 2 ^ 16)] }).forgetGid old.gidOf, 0)
  else
    let twin := if dark then s.liveCtxs.find? fun c => c.gidOf == gid else none
    let dws := [word (w 0 - bits (w 0) 2 2 * 4)] ++ ((List.range 5).map fun i => word (w (i + 1))) ++ [0, 0]
    let new : Ctx := match twin with
      | some c => { c with num := n, dws := dws, strandTime := 0, energy := 0 }
      | none => { num := n, dws := dws }
    let t := s.modDie dk fun x => x.setCtx new
    if !dark || twin.isSome then (t, 0)
    else match t.sealFault gid with
      | some sub => (s, 6 + sub * 256)
      | none => (t.seal dk n, 0)

/-- The descriptor that CTXSAVE writes (R373, R376): nothing of a darkroom context's tables or pool. -/
def State.ctxSaved (s : State) (dk n : Nat) : List Nat :=
  let c := (s.die dk).ctx n
  let hide := c.dark
  let h := num c.halted * 4
  [c.dw 0 - bits (c.dw 0) 2 2 * 4 + h, if hide then 0 else c.dw 1, if hide then 0 else c.dw 2, if hide then 0 else c.dw 3, c.dw 4,
    if hide then 0 else c.dw 5, c.strandTime, c.energy]

/-- The accessor that the focused strand is for an access made within its instruction. -/
def State.partyNow (s : State) (cls : Nat) : Party :=
  { gid := s.gid, cl := s.cl, job := (s.job.map (·.num)).getD 0, me := s.me, rc := s.st.det.rc, stamp := s.st.det.stamp, acq := s.st.det.acq
    ovf := s.st.det.ovf, pc := s.st.pc, cls := cls }

/-- Body of CTXLOAD and CTXSAVE: PRIV without CADM, ALIGN, entry 0 refused, then the access as a GLD or GST makes it; the strand
is in WAIT while its page is absent (R376), and while a darkroom context is being loaded, which a level-2 alarm ends with status 7 (R384). -/
def ctxOp (load : Bool) (d a b : Nat) (s : State) : Act :=
  src a s fun x s => src b s fun p s =>
    let n := x.toNat % 256
    let dk := s.dk / 4 * 4 + bits x.toNat 9 8
    if !s.myCtx.right 11 then .code 2
    else if p.toNat % 64 != 0 then .code 3
    else if n = 0 then dst d 1 s
    else
      let bad (t : Trap) (s : State) : Act := dst d (word (6 + t.sub % 256 * 256)) s
      if bits p.toNat 53 48 != 0 then bad (copyErr 4 0) s
      else
        let va := p.toNat % 2 ^ 48
        if load then match s.engineRead (s.partyNow 0) va 64 with
          | (t, .ok bs) =>
            let desc := (toWords 8 (wordOfBytes bs)).map (·.toNat)
            let r := t.ctxLoad dk n desc
            let seals := r.2 = 0 && bits (desc.getD 0 0) 1 0 = 3
            match s.st.waiting with
            | .seal true => dst d 7 t
            | .seal false => dst d (word r.2) r.1
            | _ => if seals then .wait fun s => s.modSt fun x => { x with waiting := .seal false } else dst d (word r.2) r.1
          | (s, .fail t) => bad t s
          | (_, .wait _) => .wait fun s => (s.engineRead (s.partyNow 0) va 64).1
        else match s.engineWrite (s.partyNow 1) va ((s.ctxSaved dk n).flatMap (bytesOfWord 8)) with
          | (s, .ok _) => dst d 0 s
          | (s, .fail t) => bad t s
          | (_, .wait _) => .wait fun s => (s.engineWrite (s.partyNow 1) va ((s.ctxSaved dk n).flatMap (bytesOfWord 8))).1

/-- ctxload (R376). -/
def execCtxload (d a b g : Nat) : State → Host.Outcome State Fault Refusal := issueNoSpec g [d, a, b] (ctxOp true d a b)

/-- ctxsave (R376). -/
def execCtxsave (d a b g : Nat) : State → Host.Outcome State Fault Refusal := issueNoSpec g [d, a, b] (ctxOp false d a b)

end Sys2Proof.Machine
end

