-- ==== Sys2Proof/Machine/Debug.lean ====
section
/-! DEFINITION. Traces (R415, R418), invariant monitors (R419, R420), and task-following breakpoints (R421 to R423). -/

namespace Sys2Proof.Machine

/-! ## TRACE and MARK (R418) -/

/-- trace (R418). -/
def execTrace (a g : Nat) : State → Host.Outcome State Fault Refusal :=
  issue g [a] fun s => src a s fun x s => .next (s.modSt fun t => { t with tron := bit x.toNat 0 })

/-- mark (R416, R418). -/
def execMark (a b g : Nat) : State → Host.Outcome State Fault Refusal :=
  issue g [a, b] fun s => src a s fun x s => src b s fun y s => .next (s.trace 4 (x.toNat % 2 ^ 16) y)

/-! ## Breakpoints (R421 to R423) -/

/-- Doubleword h of a slot (R421). -/
def BpSlot.dw (b : BpSlot) (h : Nat) : Nat :=
  if h = 0 then b.pc + num b.once * 2 ^ 61 + num b.any * 2 ^ 62 + num b.armed * 2 ^ 63 else b.task + b.hits * 2 ^ 32

/-- A slot as dbg.set and the mailbox make it (R423): armed, with no hits. -/
def BpSlot.make (dw0 task : Nat) : BpSlot :=
  { pc := bits dw0 47 0, once := bit dw0 61, any := bit dw0 62, armed := true, task := task % 2 ^ 32 }

/-- A change to a slot of the focused strand's job, at every core of the job at once. -/
def State.modSlot (s : State) (n : Nat) (f : BpSlot → BpSlot) : State :=
  match s.job with
  | some j => s.modJob j.id fun j => { j with bps := vset j.bps n (f (vget j.bps n {})) }
  | none => s

/-- Slot n of the focused strand's job. -/
def State.slotOf (s : State) (n : Nat) : BpSlot := (s.job.map fun j => vget j.bps n {}).getD {}

/-- dbg.set (R423). -/
def execDbgSet (slot a b g : Nat) : State → Host.Outcome State Fault Refusal :=
  issueNoSpec g [a, b] fun s => src a s fun x s => src b s fun y s =>
    if bits x.toNat 60 48 != 0 then .ill s 2
    else if x.toNat % 4 != 0 then .code 3
    else .next (s.modSlot slot fun _ => BpSlot.make x.toNat y.toNat)

/-- dbg.clr (R423). -/
def execDbgClr (slot g : Nat) : State → Host.Outcome State Fault Refusal :=
  issueNoSpec g [] fun s => .next (s.modSlot slot fun b => { b with armed := false })

/-- dbg.rd (R423). -/
def execDbgRd (d h slot g : Nat) : State → Host.Outcome State Fault Refusal :=
  issueNoSpec g [d] fun s => dst d (word ((s.slotOf slot).dw h)) s

/-- Whether a slot stops a strand that is about to execute the instruction at a pc (R422). -/
def BpSlot.stops (b : BpSlot) (pc task : Nat) : Bool := b.armed && b.pc == pc && (b.any || b.task == task % 2 ^ 32)

/-- The slot that stops the focused strand before its next instruction: the lowest that matches (R422). -/
def State.breakpoint (s : State) : Option Nat :=
  match s.job with
  | none => none
  | some j => (List.range 8).find? fun n => (vget j.bps n {}).stops s.st.pc s.st.csr.taskid.toNat

/-- The precise debug stop of a slot (R422): BREAK at the unexecuted instruction. -/
def State.stopAt (s : State) (n : Nat) : State := s.trapMember { code := 0x17, info := word n }

/-- What a breakpoint makes of the focused strand's next instruction (R422): a stop, a claim of a ONCE slot and its answer, or `none` where the
instruction executes. -/
def State.atBreakpoint (s : State) : Option State :=
  match s.st.waiting with
  | .claim n (some true) => some ((s.modSt fun t => { t with waiting := .none }).stopAt n)
  | .claim _ (some false) => none
  | .claim _ none => some s
  | _ =>
    if s.st.life != .run || s.st.passBp then none
    else (s.breakpoint).map fun n =>
      if (s.slotOf n).once then s.modSt fun t => { t with life := .wait, waiting := .claim n none } else s.stopAt n

/-- BREAKPOINT_CLAIM (R422): the first claim of a ONCE slot that reaches the launch unit disarms it; every other claimant goes on. -/
def execBreakpointClaim (c k : Nat) (s : State) : Host.Outcome State Fault Refusal :=
  if !s.inMesh c || 16 ≤ k then .next s
  else .next (s.atCore c k fun s => match s.st.waiting with
    | .claim n none =>
      let b := s.slotOf n
      let won := b.stops s.st.pc s.st.csr.taskid.toNat
      let s := if won && b.once then s.modSlot n fun b => { b with armed := false } else s
      s.modSt fun t => { t with waiting := if won then .claim n (some true) else .none, passBp := t.passBp || !won
                                life := if won then t.life else .run }
    | _ => s)

/-! ## Monitors (R419, R420) -/

/-- The relation of a monitor (R419). -/
def relHolds (rel a b : Nat) : Bool :=
  if rel = 0 then a < b else if rel = 1 then a ≤ b else if rel = 2 then a = b else if rel = 3 then a != b
  else if rel = 4 then b ≤ a else b < a

/-- Every RUN or WAIT strand on a die of the job that a session names is to trap BREAK at its next instruction boundary (R420). -/
def State.breakJob (s : State) (dk : Nat) (ss : Session) (n : Nat) : State :=
  let t : Trap := { code := 0x17, info := word (n + 2 ^ 8) }
  s.cores.foldl (fun s c => s.atCore c.coord 0 fun s =>
    if s.dk != dk || !(s.job.any fun j => s.names ss j.num s.gid) then s
    else s.modCore fun k => { k with strands := k.strands.map fun x =>
      if x.life == .run || x.life == .wait then { x with stop := some t } else x }) s

/-- What a monitor that fires does (R420): FIRED, its record, its action. -/
def State.fire (s : State) (dk n a : Nat) : State :=
  let m := vget (s.die dk).monitors n {}
  let s := s.modDie dk fun d => { d with monitors := vset d.monitors n { m with fired := (m.fired + 1) % 2 ^ 32 } }
  let ss := vget (s.die dk).sessions m.sess {}
  let s := if ss.en && ss.state = 0 then s.writeRecord dk m.sess 6 0 0 0 ss.job n (word a) else s
  let set (f : Session → Session) : State := s.modDie dk fun d => { d with sessions := vset d.sessions m.sess (f (vget d.sessions m.sess {})) }
  let live := ss.state != 2
  match m.act with
  | 0 => if live then set fun x => { x with state := 0 } else s
  | 1 => if live then set fun x => { x with state := 1 } else s
  | 2 =>
    let v := m.opb.toNat
    if live then set fun x => { x with tfilt := bits v 31 0, tasken := bit v 32, tmask := bits v 45 40 } else s
  | 3 => set fun x => { x with state := 2 }
  | _ => s.breakJob dk ss n

/-- One monitor's sample, its quantities read before any monitor of the sample has acted (R420). -/
def State.sample (s s0 : State) (dk n : Nat) : State :=
  let m := vget (s.die dk).monitors n {}
  let gid := (vget (s0.die dk).sessions m.sess {}).gid
  let s0 := { s0 with draw := s0.draw + n }
  if !m.en then s
  else match s0.quantity dk gid m.qa m.opa.toNat, s0.quantityB dk gid m with
    | some a, some b =>
      let ok := relHolds m.rel a b
      let s := s.modDie dk fun d => { d with monitors := vset d.monitors n { m with prev := some ok, last := min a (2 ^ 32 - 1) } }
      if !ok && m.prev != some false then s.fire dk n a else s
    | _, _ => s

/-- MONITOR_SAMPLE (R420): every 100 ns the monitors of a die, in ascending number. -/
def execMonitorSample (d : Nat) (s : State) : Host.Outcome State Fault Refusal :=
  if 4 * s.sys.mx * s.sys.my ≤ d || s.sys.now < (s.die d).sampleAt then .next s
  else
    let t := (List.range 32).foldl (fun t n => t.sample s d n) s
    .next ({ t with draw := s.draw + 32 }.modDie d fun x => { x with sampleAt := (s.sys.now / 100 + 1) * 100 })

end Sys2Proof.Machine
end

