-- ==== Sys2Proof/Machine/Attention.lean ====
section
/-! DEFINITION. Page-major attention (R280 to R296): passes, subscriptions, delivery and trays of the page distributors. A command reaches its
distributor when it issues; what it has to wait for there is retried by the distributor's events. -/

namespace Sys2Proof.Machine

/-! ## Passes (R280) -/

/-- A pass of a die, and a change to it. -/
def State.passAt (s : State) (dk n : Nat) : Pass := (findKey Pass.slot (s.die dk).passes n).getD { slot := n }
def State.setPass (s : State) (dk : Nat) (p : Pass) : State := s.modDie dk fun d => { d with passes := putKey Pass.slot p d.passes }
def State.modPass (s : State) (dk n : Nat) (f : Pass → Pass) : State := s.setPass dk (f (s.passAt dk n))

/-- The handle of a pass (R280). -/
def Pass.handle (p : Pass) (dk : Nat) : Nat := p.slot + dk % 4 * 2 ^ 14 + p.gen * 2 ^ 16

/-- A trap GEOM of an ATT command. -/
def geomTrap : Trap := { code := 0x0C, sub := 8 }

/-- The die that a handle names, in the focused core's package. -/
def State.handlePass (s : State) (h : Nat) : Nat := s.dk / 4 * 4 + bits h 15 14

/-- The open pass that a handle names, for a strand of its job (R280). -/
def State.passOf (s : State) (h : Nat) : Except Trap Pass :=
  let p := s.passAt (s.handlePass h) (bits h 5 0)
  if 2 ^ 32 ≤ h then .error geomTrap
  else if !p.isOpen || p.gen != bits h 31 16 || bits h 13 6 != 0 then .error (plainTrap 0x0D)
  else if p.gid != s.gid || some p.job != s.job.map (·.num) then .error { code := 0x0C, sub := 2 }
  else .ok p

/-- A change to a subscription of a pass, by its slot among the live ones or all. -/
def Pass.modSub (p : Pass) (b : Sub) : Pass :=
  { p with subs := p.subs.map fun x => if x.slot = b.slot && x.live = b.live then b else x }

/-- The subscriber entries in use at a die (R285): one for each page not yet delivered. -/
def State.entriesUsed (s : State) (dk : Nat) : Nat :=
  ((s.die dk).passes.map fun p => if p.isOpen then ((p.subs.filter (·.live)).map fun b => b.refs.length - b.got.length).foldl (· + ·) 0
    else 0).foldl (· + ·) 0

/-- Whether a pass has started for a subscription that comes now (R285): its WINDOW has elapsed, whether or not that event has been taken. An
ASUB that meets the deadline is applied first (R295). -/
def State.passBegun (s : State) (p : Pass) : Bool := p.started || p.deadline.any (· < s.sys.now)

/-- A pass after a subscription has joined: the EXPECT-th starts it (R285, R295). -/
def Pass.join (p : Pass) (b : Sub) : Pass :=
  let n := p.joined + 1
  { p with subs := (p.subs.filter fun x => x.live || x.slot != b.slot) ++ [b], joined := n, started := p.started || n == p.expect }

/-! ## Local sides of a command (R229, R239, R346) -/

/-- n bytes of the own scratchpad read by an engine command of the focused strand. -/
def State.ownRead (s : State) (p : Party) (off n : Nat) : State × Res :=
  match (if s.core.racy then p.race s.core.tags off n id false else none) with
  | some t => (s, .fail t)
  | none =>
    let banks := s.sleeping ((dwords off n).map fun d => (d * 8, 8))
    if (s.core.softAt off n false).isSome then (s, .fail (softErr off))
    else if banks.isEmpty then (s, .ok (s.core.scratch.get off n)) else (s.wake banks, .wait false)

/-- Bytes of the own scratchpad written by an engine command of the focused strand. -/
def State.ownWrite (s : State) (p : Party) (off : Nat) (bs : List Byte) : State :=
  s.modCore fun c => { c.store off bs with tags := if c.racy then p.tag c.tags off bs.length else c.tags }

/-! ## Held subscriptions (R285) -/

/-- A page-ready message (R288). -/
def State.pageMsg (s : State) (dk lock : Nat) (p : Pass) (b : Sub) (w1 w2 : Nat) : Msg :=
  { h0 := header0 0 0 0 2 false false b.handler, h1 := header1 b.core (s.dieCorner dk) p.job, h2 := word (s.sys.now % 2 ^ 32)
    pay := [word (p.handle dk), word w1, word w2, word b.slot, b.user], gid := p.gid, mark := .distributor, sub := lock }

/-- The pass that a held subscription joins next (R285): the first to open since it was held, of its job and layer, among those
that have not started. -/
def State.joinable (s : State) (dk : Nat) (b : Sub) : Option Pass :=
  ((s.die dk).passes.filter fun p => p.isOpen && !p.started && b.since ≤ p.opened && p.gid == b.gid && p.job == b.job && p.layer == b.layer).foldl
    (fun m p => match m with
      | some q => if p.opened < q.opened then some p else m
      | none => some p) none

/-- Whether the core of a subscription runs a crew of its job and its die does not relock (R342). -/
def State.subscriberHere (s : State) (b : Sub) : Bool :=
  (s.die (s.dieKey b.core)).relock.isNone && (s.focus b.core 0).gid == b.gid && ((s.focus b.core 0).job.map (·.num)) == some b.job

/-- Whether the core of a subscription comes back to it: its crew is parked, or its die relocks (R342). -/
def State.subscriberAway (s : State) (b : Sub) : Bool :=
  (s.die (s.dieKey b.core)).relock.isSome
  || s.sys.crews.any fun w => w.parkedCores.any (fun k => k.coord == b.core) && (s.jobOf w.job).map (·.num) == some b.job

/-- Whether a held subscription cannot join a pass (R285): its slot is taken or out of range, or no bit of its bitmap remains. -/
def Pass.refuses (p : Pass) (b : Sub) : Bool :=
  p.count ≤ b.slot || !(b.refs.any (· < p.pages.length)) || p.subs.any fun x => x.live && x.slot == b.slot

/-- Whether the die has the subscriber entries that a held subscription takes in a pass (R285). -/
def State.entriesFor (s : State) (dk : Nat) (p : Pass) (b : Sub) : Bool :=
  s.entriesUsed dk + (b.refs.filter (· < p.pages.length)).length ≤ 16384

/-- One held subscription of a die joins or is dropped (R285). It waits for its entries, for its core's crew while that is parked, and for the
bank of its STATUS. -/
def State.joinOne (dk : Nat) (s : State) (x : Sub × Nat) : State :=
  let b := x.1
  match s.joinable dk b with
  | none => s
  | some p =>
    let s' := s.modDie dk fun d => { d with held := d.held.filter fun y => y.1.since != b.since }
    if p.refuses b then
      let free (i : Nat) : Nat := (Config.freeWord (s.draw + i)).toNat
      (s'.launchMsg (s.pageMsg dk 0 p b (0x1FFF + 8 * 2 ^ 16 + free 0 % 2 ^ 32 * 2 ^ 32) (free 1))).drawn.drawn
    else if !s.entriesFor dk p b || !s.subscriberHere b then s
    else
      let banks := (s.focus b.core 0).sleeping [(b.desc + 32, 8)]
      if !banks.isEmpty then s.atCore b.core 0 fun s => s.wake banks
      else
        let s := s'.setPass dk (p.join { b with refs := b.refs.filter (· < p.pages.length) })
        s.atCore b.core 0 fun s => s.modCore fun c => c.store (b.desc + 32) (bytesOfWord 8 (2 + p.handle dk * 2 ^ 32))

/-- Every held subscription of a die that can join or be dropped does so, in the order in which they were held (R285). -/
def State.joinHeld (s : State) (dk : Nat) : State := (s.die dk).held.foldl (State.joinOne dk) s

/-- Whether a held subscription is to join a pass, by slot number, that is no more than waiting for its core or its bank (R285): it misses a
pass only for want of entries, so the pass does not start and the pass that held it does not close before it has joined. DEDUCED (log entry
81): the spec gives no order between the start and a join whose core is parked. -/
def State.joinOwed (s : State) (dk : Nat) (f : Pass → Sub × Nat → Bool) : Bool :=
  (s.die dk).held.any fun x => match s.joinable dk x.1 with
    | some p => f p x && s.entriesFor dk p x.1 && (s.subscriberHere x.1 || s.subscriberAway x.1)
    | none => false

/-! ## ASUB (R284, R285) -/

/-- A subscription descriptor: its reserved and aligned fields checked, the bitmap read. -/
def subOf (s : State) (ds : List Nat) (desc layer : Nat) (bitmap : Nat → Bool) : Sub :=
  let w (i : Nat) : Nat := ds.getD i 0
  { slot := bits (w 0) 11 0, core := s.here, gid := s.gid, job := (s.job.map (·.num)).getD 0, layer := layer, nbuf := 1 + bits (w 0) 12 12
    land := bits (w 0) 35 18, handler := bits (w 1) 47 0, user := word (w 3), desc := desc, refs := (List.range 4096).filter bitmap }

/-- The landing buffers of a subscription. -/
def Sub.buffers (b : Sub) : List Nat := (List.range b.nbuf).map fun i => b.land + 32768 * i

/-- The fields of a descriptor that break a rule of R285. -/
def State.descFault (s : State) (ds : List Nat) : Bool :=
  let w (i : Nat) : Nat := ds.getD i 0
  let b := subOf s ds 0 0 fun _ => false
  bits (w 0) 17 13 != 0 || bits (w 0) 63 36 != 0 || b.land % 256 != 0 || b.handler % 4 != 0 || bits (w 1) 63 48 != 0
  || bits (w 2) 63 18 != 0 || bits (w 2) 17 0 % 8 != 0 || w 5 != 0
  || b.buffers.any fun o => 2 ^ 18 < o + 32768 || overlap o 32768 s.core.porchBase s.core.porchSize

/-- An ASUB at the distributor: it joins, is held or is refused, with its STATUS written; a subscription that lacks entries waits. The held
subscriptions of the die join before it, since it may start the pass. -/
def State.asubMove (s : State) (o : Op) : State :=
  let off := o.b.toNat % 2 ^ 18
  let s := s.joinHeld (s.handlePass o.a.toNat)
  match s.passOf o.a.toNat with
  | .error t => s.completeOp o (some t) 0 none
  | .ok p =>
    let dk := s.handlePass o.a.toNat
    let geom : State := s.completeOp o (some geomTrap) 0 none
    if off % 16 != 0 || 2 ^ 18 < off + 48 then geom
    else match s.ownRead (s.party o) off 48 with
      | (s, .fail t) => s.completeOp o (some t) 0 none
      | (s, .wait _) => s
      | (s, .ok bs) =>
        let ds := (toWords 6 (wordOfBytes bs)).map (·.toNat)
        let refs := bits (ds.getD 2 0) 17 0
        let n := if s.passBegun p then 512 else (p.pages.length + 63) / 64 * 8
        if s.descFault ds then geom
        else match s.ownRead (s.party o) refs (min n (2 ^ 18 - refs)) with
          | (s, .fail t) => s.completeOp o (some t) 0 none
          | (s, .wait _) => s
          | (s, .ok map_) =>
            let m := wordOfBytes map_
            let b := subOf s ds off p.layer fun j => bit m j
            let here := b.refs.filter fun j => j < p.pages.length
            let status (s : State) (c : Nat) : State :=
              (s.ownWrite (s.party o) (off + 32) (bytesOfWord 8 (c + p.handle dk * 2 ^ 32))).completeOp o none 0 none
            if here.isEmpty || !inScopeRect p.rect s.here then geom
            else if !s.passBegun p then
              if p.count ≤ b.slot || p.subs.any (fun x => x.live && x.slot == b.slot) then geom
              else if 16384 < s.entriesUsed dk + here.length then s
              else if p.joined + 1 = p.expect && s.joinOwed dk (fun q _ => q.slot == p.slot) then s
              else status (s.setPass dk (p.join { b with refs := here })) 1
            else if o.op = 1 then status s 3
            else status ((s.modDie dk fun d => { d with held := d.held ++ [({ b with since := s.sys.nextId }, p.handle dk)] }).modSys fun y =>
              { y with nextId := y.nextId + 1 }) 2

/-! ## AUNSUB (R286) -/

/-- The operations of a core's strands that an AUNSUB of the slot of a tag ends: the TRAYGETs that wait there (R286). -/
def Core.endTraygets (h slot : Nat) (c : Core) : Core :=
  let ends (o : Op) : Bool := o.kind == .trayget && o.op == 1 && o.b.toNat % 2 ^ 32 == h && bits o.b.toNat 43 32 == slot
  { c with strands := c.strands.map fun t => { t with ops := t.ops.map fun o => if ends o then { o with op := 2 } else o } }

/-- The TRAYGETs that wait on a slot of a die's pool, on every core of its package and in every parked crew there, end with STALE_HANDLE (R286);
a handle names a die of its own package only (R280). -/
def State.endTraygets (s : State) (dk h slot : Nat) : State :=
  let f (c : Core) : Core := if s.moduleOf c.coord = dk / 4 then c.endTraygets h slot else c
  ({ s with core := f s.core, others := s.others.map f } : State).modSys fun y => { y with
    crews := y.crews.map fun w => { w with parkedCores := w.parkedCores.map f } }

/-- An AUNSUB at the distributor. -/
def State.aunsubMove (s : State) (o : Op) : State :=
  match s.passOf o.a.toNat with
  | .error t => s.completeOp o (some t) 0 none
  | .ok p =>
    let dk := s.handlePass o.a.toNat
    let n := o.b.toNat
    let geom : State := s.completeOp o (some geomTrap) 0 none
    if 2 ^ 12 ≤ n then geom
    else match p.subs.find? fun b => b.live && b.slot == n with
      | some b =>
        let s := s.setPass dk { p with subs := p.subs.map fun x =>
          if x.live && x.slot == n then { b with live := false, refs := b.begun, waiting := [], reserved := [] } else x }
        (s.endTraygets dk (p.handle dk) n).completeOp o none 0 none
      | none =>
        let h := p.handle dk
        if (s.die dk).held.any fun x => x.1.slot == n && x.2 == h then
          (s.modDie dk fun d => { d with held := d.held.filter fun x => !(x.1.slot == n && x.2 == h) }).completeOp o none 0 none
        else geom

/-! ## Trays (R290, R291) -/

/-- Whether a pattern is a NaN in FP32. -/
def nan32 (v : Nat) : Bool := (f32.value false v).isNan

/-- The weight of one side of a merge (R291): 1.0 where it holds the maximum, else EXP2 of the difference. -/
def trayWeight (m mx : Nat) : Nat × Nat :=
  if m = mx || ((f32.value false m).isZero && (f32.value false mx).isZero) then (0x3F800000, 0)
  else
    let d := f32.arith 1 0 m mx
    let e := sfuRound 3 0 d.1
    (e.1, d.2 ||| e.2)

/-- a·x + b·y: the exact sum of exact products, rounded once (R291). -/
def dotTwo (a x b y : Nat) : Nat × Nat :=
  let v (n : Nat) : FVal := f32.value false n
  match (v a).mul (v x), (v b).mul (v y) with
  | some p, some q => f32.sum 0 [p, q]
  | _, _ => (f32.nan, flagNV)

/-- One merge (R291) of a partial (m, l, o) into a slot's (M, L, O): the new state and the flags. -/
def trayMerge (acc : Option (List Nat)) (p : List Nat) : List Nat × Nat :=
  let old := acc.getD []
  if (p ++ old).any nan32 then (List.replicate 130 f32.nan, flagNV)
  else match acc with
    | none => (p, 0)
    | some a =>
      let mx := (f32.minmax true 0 (a.getD 0 0) (p.getD 0 0)).1
      let sa := trayWeight (a.getD 0 0) mx
      let sb := trayWeight (p.getD 0 0) mx
      let rest := List.zipWith (fun x y => dotTwo sa.1 x sb.1 y) a.tail p.tail
      (mx :: rest.map (·.1), rest.foldl (fun f r => f ||| r.2) (sa.2 ||| sb.2))

/-- The next page of a subscription to merge. -/
def Sub.nextPage (b : Sub) : Option Nat := b.refs.find? fun j => !b.merged.contains j

/-- The waiting partials that have become next merged in turn (R290). -/
def mergeWaiting : Nat → Sub → Sub
  | 0, b => b
  | fuel + 1, b =>
    match b.nextPage.bind fun j => (b.waiting.find? fun w => w.1 == j) with
    | none => b
    | some (j, p) =>
      let (acc, fl) := trayMerge b.acc p
      mergeWaiting fuel { b with acc := some acc, flags := b.flags ||| fl, merged := j :: b.merged
                                 waiting := b.waiting.filter fun w => w.1 != j, reserved := b.reserved.filter fun r => r != j }

/-- A put accepted (R290): its buffer is free, and it merges at once or waits for its turn. -/
def Sub.put (b : Sub) (j : Nat) (p : List Nat) : Sub :=
  mergeWaiting 4096 { b with puts := j :: b.puts, bufs := b.bufs.filter fun x => x.2 != j, waiting := b.waiting ++ [(j, p)] }

/-- The 32-bit words of some bytes. -/
def words32 (n : Nat) (bs : List Byte) : List Nat := lanes 32 n (wordOfBytes bs)

/-- A TRAYPUT at the tray. -/
def State.trayputMove (s : State) (o : Op) : State :=
  let off := o.a.toNat % 2 ^ 18
  let tag := o.b.toNat
  let n := bits tag 43 32
  let j := bits tag 56 44
  let geom : State := s.completeOp o (some geomTrap) 0 none
  if 2 ^ 57 ≤ tag then geom
  else match s.passOf (tag % 2 ^ 32) with
  | .error t => s.completeOp o (some t) 0 none
  | .ok p =>
    if off % 8 != 0 || 2 ^ 18 < off + 520 then geom
    else match (p.subs.find? fun b => b.live && b.slot == n).or (p.subs.find? fun b => b.slot == n) with
      | none => geom
      | some b =>
        if b.live && (!b.got.contains j || b.puts.contains j) then geom
        else match s.ownRead (s.party o) off 520 with
          | (s, .fail t) => s.completeOp o (some t) 0 none
          | (s, .wait _) => s
          | (s, .ok bs) =>
            let ws := words32 130 bs
            let part := ws.getD 128 0 :: ws.getD 129 0 :: ws.take 128
            let s := if b.live then s.setPass (s.handlePass (tag % 2 ^ 32)) (p.modSub (b.put j part)) else s
            s.completeOp o none 0 none

/-! ## TRAYGET and ACLOSE at issue (R293, R294) -/

/-- An operation of the focused strand is accepted at the distributor and waits there. -/
def State.accepted (s : State) (o : Op) : State :=
  s.modSt fun t => { t with ops := t.ops.map fun p => if p.id = o.id then { p with op := 1 } else p }

/-- The subscription that a TRAYGET's tag names; SOFT_ERR where its tray slot has an uncorrectable error (R410). -/
def State.trayOf (s : State) (o : Op) : Except Trap (Pass × Sub) :=
  let tag := o.b.toNat
  if 2 ^ 57 ≤ tag then .error geomTrap
  else match s.passOf (tag % 2 ^ 32) with
    | .error t => .error t
    | .ok p =>
      match p.subs.find? fun b => b.live && b.slot == bits tag 43 32 with
      | some b => if bits tag 56 44 != 0 then .error geomTrap else if b.bad then .error (softErr 0) else .ok (p, b)
      | none => .error geomTrap

/-- The die of the distributor that serves an ATT command (R280). -/
def State.attDie (s : State) (o : Op) : Nat :=
  match o.kind with
  | .trayput | .trayget => s.handlePass (o.b.toNat % 2 ^ 32)
  | .apass => s.dk
  | _ => s.handlePass (o.a.toNat % 2 ^ 32)

/-- An ATT command that has reached its distributor (R282); it waits while that distributor's die relocks (R342). -/
def State.attMove (s : State) (o : Op) : State :=
  if (s.die (s.attDie o)).relock.isSome then s else
  match o.kind with
  | .asub => s.asubMove o
  | .aunsub => s.aunsubMove o
  | .trayput => s.trayputMove o
  | .trayget => match s.trayOf o with
    | .error t => s.completeOp o (some t) 0 none
    | .ok _ => if bits o.a.toNat 53 48 != 0 then s.completeOp o (some { code := 0x0C, sub := 4 }) 0 none
               else if 2 ^ 48 < o.a.toNat % 2 ^ 48 + 520 then s.completeOp o (some geomTrap) 0 none else s.accepted o
  | .aclose => match s.passOf o.a.toNat with
    | .error t => s.completeOp o (some t) 0 none
    | .ok p => (s.setPass (s.handlePass o.a.toNat) { p with closing := true }).accepted o
  | _ => s

/-- Whether an ATT command still has to be taken by its distributor. -/
def Op.untaken (o : Op) : Bool :=
  !o.complete && (match o.kind with
    | .asub | .aunsub | .trayput => true
    | .trayget | .aclose => o.op == 0
    | _ => false)

/-- The commands that wait at a distributor, for subscriber entries or for the end of a relock, are tried again (R285, R342). -/
def State.retrySubs (s : State) : State :=
  (s.cores.map Core.coord).foldl (fun s c => (List.range 16).foldl (fun s k => s.atCore c k fun s =>
    (s.st.ops.filter Op.untaken).foldl State.attMove s) s) s

/-! ## The commands (R282, R296) -/

/-- The ranges of an ATT command in the own scratchpad: read and written offsets. The bitmap of an ASUB is found by its descriptor. -/
def State.attRanges (s : State) (o : Op) : List (Nat × Nat) × List (Nat × Nat) :=
  match o.kind with
  | .asub =>
    let off := o.b.toNat % 2 ^ 18
    let refs := s.core.scratch.rdN (off + 16) 8 % 2 ^ 18
    let n := match s.passOf o.a.toNat with
      | .ok p => if s.passBegun p then 512 else (p.pages.length + 63) / 64 * 8
      | .error _ => 0
    ([(off, off + 47)] ++ (if n = 0 then [] else [(refs, min (refs + n) (2 ^ 18) - 1)]), [(off + 32, off + 39)])
  | .trayput => ([(o.a.toNat % 2 ^ 18, o.a.toNat % 2 ^ 18 + 519)], [])
  | _ => ([], [])

/-- The memory ranges of an ATT command: read and written addresses. -/
def Op.attMemory (o : Op) : List (Nat × Nat) × List (Nat × Nat) :=
  let va (w : Word) : Nat := w.toNat % 2 ^ 48
  match o.kind with
  | .apass =>
    let n := 4 * ((o.regs.getD 1 0).toNat % 2 ^ 13)
    let l := va (o.regs.getD 0 0)
    (if n = 0 || 2 ^ 48 < l + n then [] else [(l, l + n - 1)], [])
  | .trayget => ([], if 2 ^ 48 < va o.a + 520 then [] else [(va o.a, va o.a + 519)])
  | _ => ([], [])

/-- An ATT command issued: it waits for its scratchpad banks, enters its ranges, and reaches the distributor. -/
def attIssue (kind : OpKind) (mod : Nat) (d : Option Nat) (a b : Nat) (s : State) : Act :=
  let regs := s.st.shadow.att.toList
  let o : Op := { kind := kind, cls := .c, a := s.g a, b := s.g b, op := mod, d := d, regs := regs, record := bit (regs.getD 7 0).toNat 0 }
  let (lr, lw) := s.attRanges o
  let (mr, mw) := o.attMemory
  let banks := s.sleeping (lr.flatMap fun r => (dwords r.1 (r.2 + 1 - r.1)).map fun d => (d * 8, 8))
  if !banks.isEmpty then .wait fun s => s.wake banks
  else
    let mine (l : List (Nat × Nat)) : List (Nat × Nat × Nat) := l.map fun r => (scratchSide s.here, r.1, r.2)
    let mem (l : List (Nat × Nat)) : List (Nat × Nat × Nat) := l.flatMap fun r => s.sidesOf s.gid r.1 r.2
    let s := s.recordCmd 4 regs s.ir s.fpctl ((d.map s.g).getD o.a) o.b [] ((mr ++ mw).map fun r => (r.1, r.2 + 1 - r.1))
    engineSides o (mine lr ++ mem mr) (mine lw ++ mem mw) (mr ++ mw) s fun s =>
      match s.st.ops.getLast? with
      | some o => s.attMove o
      | none => s

/-- apass (R283): g[a] is pending until the pass is open. -/
def execApass (a g : Nat) : State → Host.Outcome State Fault Refusal := issueNoSpec g [a] (attIssue .apass 0 (destOf a) 0 0)
/-- asub (R285). -/
def execAsub (a b g : Nat) : State → Host.Outcome State Fault Refusal := issueNoSpec g [a, b] (attIssue .asub 0 none a b)
/-- asub.nd (R285). -/
def execAsubNd (a b g : Nat) : State → Host.Outcome State Fault Refusal := issueNoSpec g [a, b] (attIssue .asub 1 none a b)
/-- aunsub (R286). -/
def execAunsub (a b g : Nat) : State → Host.Outcome State Fault Refusal := issueNoSpec g [a, b] (attIssue .aunsub 0 none a b)
/-- trayput (R290). -/
def execTrayput (a b g : Nat) : State → Host.Outcome State Fault Refusal := issueNoSpec g [a, b] (attIssue .trayput 0 none a b)
/-- trayget (R293). -/
def execTrayget (a b g : Nat) : State → Host.Outcome State Fault Refusal := issueNoSpec g [a, b] (attIssue .trayget 0 none a b)
/-- aclose (R294). -/
def execAclose (a g : Nat) : State → Host.Outcome State Fault Refusal := issueNoSpec g [a] (attIssue .aclose 0 none a 0)

/-! ## Opening and starting (R283, R285) -/

/-- The fields of an APASS that make it complete with GEOM (R283). APLEN is bits 12:0 of its register (R281); bits 63:49 of ARECT are ignored
(R232). DEDUCED (log entry 65): a rectangle with ALL = 1 names every home and so does not lie inside the crew's. -/
def State.passBad (s : State) (regs : List Word) : Bool :=
  let r (i : Nat) : Nat := (regs.getD i 0).toNat
  let rect := r 3
  let (x0, y0, x1, y1) := regionOf rect
  let pool := bits (r 4) 11 0
  let count := bits (r 4) 28 16
  let n := r 1 % 2 ^ 13
  n = 0 || 4096 < n || bit rect 48 || x1 < x0 || y1 < y0
  || (match s.crew with | some w => x0 < w.x0 || y0 < w.y0 || w.x1 < x1 || w.y1 < y1 | none => true)
  || count < 2 || 4096 < pool + count
  || (s.die s.dk).passes.any (fun p => p.isOpen && overlap pool count p.pool p.count)
  || bits (r 6) 15 0 = 0 || 2 ^ 48 < r 0 % 2 ^ 48 + 4 * n

/-- PASS_OPEN (R283): while 64 passes are open on the die, APASS waits. -/
def execPassOpen (c k id : Nat) : State → Host.Outcome State Fault Refusal :=
  opEvent c k id (fun o => o.kind == .apass) fun o s =>
    let r (i : Nat) : Nat := (o.regs.getD i 0).toNat
    let fail (t : Trap) (s : State) : State := s.completeOp o (some t) 0 none
    if s.sys.now < o.absentAt then s
    else if s.passBad o.regs then fail geomTrap s
    else if bits (r 0) 53 48 != 0 then fail { code := 0x0C, sub := 4 } s
    else if r 0 % 4 != 0 then fail { code := 0x0C, sub := 5 } s
    else match (List.range 64).find? fun n => !(s.passAt s.dk n).isOpen with
      | none => s
      | some n => match s.engineRead (s.party o) (r 0 % 2 ^ 48) (4 * (r 1 % 2 ^ 13)) with
        | (s, .fail t) => fail t s
        | (s, .wait page) => s.stallOp o page
        | (s, .ok bs) =>
          let win := bits (r 6) 47 16
          let p : Pass := { slot := n, gen := (s.passAt s.dk n).gen, isOpen := true, gid := s.gid, job := (s.job.map (·.num)).getD 0
                            layer := r 5 % 2 ^ 32, pages := words32 (r 1 % 2 ^ 13) bs, base := o.regs.getD 2 0, rect := r 3, pool := bits (r 4) 11 0
                            count := bits (r 4) 28 16, expect := bits (r 6) 15 0, opened := s.sys.nextId
                            deadline := if win = 0 then none else some (s.sys.now + win) }
          ((s.setPass s.dk p).modSys fun y => { y with nextId := y.nextId + 1 }).completeOp o none 0 (some (word (p.handle s.dk)))

/-- PASS_WINDOW_EXPIRY (R285): the held subscriptions join first. -/
def execPassWindowExpiry (d n : Nat) (s : State) : Host.Outcome State Fault Refusal :=
  let s := s.joinHeld d
  let p := s.passAt d n
  .next (match p.deadline with
    | some t => if p.isOpen && !p.started && t ≤ s.sys.now && !s.joinOwed d (fun q _ => q.slot == n) then s.setPass d { p with started := true }
                else s
    | none => s)

/-! ## Messages and delivery (R285, R287 to R289, R292) -/

/-- HELD_SUBSCRIPTION_JOIN (R285): the held subscriptions of a die join or are dropped; those that wait for entries are tried again. -/
def execHeldSubscriptionJoin (d _n : Nat) (s : State) : Host.Outcome State Fault Refusal :=
  if 4 * s.sys.mx * s.sys.my ≤ d then .next s else .next ((s.joinHeld d).retrySubs)

/-- The free buffers of a subscription, the lower first. -/
def Sub.freeBuffers (b : Sub) : List Nat := b.buffers.filter fun o => !b.bufs.any fun x => x.1 == o

/-- PAGE_DELIVERY_BEGIN (R287, R292): the next page of a pass that a subscription references, once each such subscription has a free
buffer and the slots it needs are free. -/
def execPageDeliveryBegin (d n : Nat) (s : State) : Host.Outcome State Fault Refusal :=
  let p := s.passAt d n
  if !p.isOpen || !p.started || p.closing then .next s
  else match (List.range p.pages.length).find? fun j => p.next ≤ j && p.subs.any (fun b => b.live && b.refs.contains j) with
    | none => .next s
    | some j =>
      let whom := p.subs.filter fun b => b.live && b.refs.contains j
      let needs (b : Sub) : Bool := b.begun.any fun i => !b.merged.contains i
      let extra := (whom.filter needs).length
      if whom.any (fun b => b.freeBuffers.isEmpty) || p.count < p.occupied + extra then .next s
      else
        let go (b : Sub) : Sub :=
          if b.live && b.refs.contains j then
            { b with begun := b.begun ++ [j], bufs := b.bufs ++ [(b.freeBuffers.headD 0, j)]
                     reserved := if needs b then b.reserved ++ [j] else b.reserved }
          else b
        .next (s.setPass d { p with next := j + 1, subs := p.subs.map go
                                    deliver := p.deliver ++ [{ idx := j, left := whom.map fun b => (b.slot, b.freeBuffers.headD 0) }] })

/-- The status of a failed page read in a page-ready message (R288). -/
def pageStatus (t : Trap) : Nat := if t.code = 0x16 then 0x16 else t.sub

/-- One subscription receives a page (R287, R288): the buffer is written, a lock on it is taken, and the message leaves. It waits for its core's
crew, its banks and a lock entry; a core that is no more of the job is passed over. Answers whether it is done. DESIGN CHOICE (log entry 82):
no strand issued the delivery, and its issuer 2^40 + d makes a second party of a race record (R236) hold the die's key. -/
def State.deliverTo (s : State) (d : Nat) (p : Pass) (v : Delivery) (slot buf : Nat) : State × Bool :=
  match (p.subs.find? fun b => b.slot == slot && b.begun.contains v.idx) with
  | none => (s, true)
  | some b =>
    let c := s.coreAt b.core
    if !s.subscriberHere b || c.fenced then
      (s, !s.subscriberAway b)
    else
      let banks := if v.status = 0 then (s.focus b.core 0).sleeping ((List.range 32).map fun i => (buf + 8 * i, 8)) else []
      let cl := s.clusterKey b.core
      if !banks.isEmpty then (s.atCore b.core 0 fun s => s.wake banks, false)
      else if 64 ≤ (s.cluster cl).locks.length then (s, false)
      else
        let id := s.sys.nextId
        let s := s.modSys fun y => { y with nextId := y.nextId + 1 }
        let s := s.modCluster cl fun k => { k with locks := k.locks ++
          [{ issuer := 2 ^ 40 + d, op := id, rd := [], wr := [(scratchSide b.core, buf, buf + 32767)] }] }
        let s := if v.status = 0 then s.atCore b.core 0 fun s => s.modCore fun c => c.store buf v.data else s
        let page := p.pages.getD v.idx 0
        let s := s.launchMsg (s.pageMsg d id p b (v.idx + v.status * 2 ^ 16 + page % 2 ^ 32 * 2 ^ 32) buf)
        (s.modPass d p.slot fun p => { p with subs := p.subs.map fun x =>
          if x.slot = slot && x.begun.contains v.idx then { x with got := x.got ++ [v.idx] } else x }, true)

/-- PAGE_READY (R287, R288): the oldest begun delivery of a pass. The page is read whole; then it goes to each subscription in turn. -/
def execPageReady (d n : Nat) (s : State) : Host.Outcome State Fault Refusal :=
  let p := s.passAt d n
  match p.isOpen, p.deliver with
  | true, v :: rest =>
    let va := p.base.toNat % 2 ^ 48 + 32768 * p.pages.getD v.idx 0
    let who : Party := { gid := p.gid, cl := engineWalker d, job := p.job, me := 2 ^ 40 + d, quiet := true }
    let set (s : State) (v : Delivery) : State := s.modPass d n fun p => { p with deliver := v :: rest }
    if !v.read then
      if bits p.base.toNat 53 48 != 0 then .next (set s { v with read := true, status := 4 })
      else if 2 ^ 48 < va + 32768 then .next (set s { v with read := true, status := 8 })
      else match s.engineRead who va 32768 with
        | (s, .ok bs) => .next (set s { v with read := true, data := bs })
        | (s, .fail t) => .next (set s { v with read := true, status := pageStatus t })
        | (s, .wait _) => .next s
    else
      let r := v.left.foldl (fun (r : State × List (Nat × Nat)) x =>
        match r.1.deliverTo d p v x.1 x.2 with
        | (s, true) => (s, r.2)
        | (s, false) => (s, r.2 ++ [x])) (s, [])
      .next ((r.1.modPass d n fun p => { p with deliver := if r.2.isEmpty then rest else { v with left := r.2 } :: rest }).retrySubs)
  | _, _ => .next s

/-! ## Completion of TRAYGET and ACLOSE (R293, R294) -/

/-- The 520 bytes of a TRAYGET (R293) and the flags of its divisions. -/
def trayResult (acc : List Nat) : List Byte × Nat :=
  let l := acc.getD 1 0
  let q := (acc.drop 2).map fun o => f32.arith 3 0 o l
  ((q.map (·.1) ++ [acc.getD 0 0, l]).flatMap (bytesOfWord 4), q.foldl (fun f x => f ||| x.2) 0)

/-- TRAYGET_COMPLETE (R293): once every page of the subscription is merged; a subscription (`op` = 2, R286) or pass (R294) that has ended
makes it STALE_HANDLE. -/
def execTraygetComplete (c k id : Nat) : State → Host.Outcome State Fault Refusal :=
  opEvent c k id (fun o => o.kind == .trayget && (o.op == 1 || o.op == 2)) fun o s =>
    if o.op = 2 then s.completeOp o (some (plainTrap 0x0D)) 0 none
    else if s.sys.now < o.absentAt then s
    else match s.trayOf o with
      | .error _ => s.completeOp o (some (plainTrap 0x0D)) 0 none
      | .ok (_, b) =>
        match b.nextPage, b.acc with
        | none, some acc =>
          let (bs, fl) := trayResult acc
          match s.engineWrite (s.party o) (o.a.toNat % 2 ^ 48) bs with
          | (s, .ok _) => s.completeOp o none (b.flags ||| fl) none
          | (s, .fail t) => s.completeOp o (some t) 0 none
          | (s, .wait page) => s.stallOp o page
        | _, _ => s

/-- ACLOSE_COMPLETE (R294): the deliveries begun have ended; the pass is closed and its number may be opened again. Its held subscriptions that
have a pass to join have joined it first (R285, R299). -/
def execAcloseComplete (c k id : Nat) : State → Host.Outcome State Fault Refusal :=
  opEvent c k id (fun o => o.kind == .aclose && o.op == 1) fun o s =>
    let dk := s.handlePass o.a.toNat
    let s := s.joinHeld dk
    match s.passOf o.a.toNat with
    | .error t => s.completeOp o (some t) 0 none
    | .ok p =>
      if !p.deliver.isEmpty || s.joinOwed dk (fun _ x => x.2 == p.handle dk) then s
      else
        let s := s.modDie dk fun d => { d with held := d.held.filter fun x => x.2 != p.handle dk }
        ((s.setPass dk { slot := p.slot, gen := (p.gen + 1) % 2 ^ 16 }).completeOp o none 0 none).retrySubs

end Sys2Proof.Machine
end

