-- ==== Sys2Proof/Machine/Tape.lean ====
section
/-! DEFINITION. The command tape: TREC, TEND, TPATCH, TGUARD (R325 to R328), TREPLAY (R329) and the replay of a stream's entries (R335 to R337). -/

namespace Sys2Proof.Machine

/-! ## Recording (R327, R328) -/

/-- trec (R327). -/
def execTrec (a g : Nat) : State → Host.Outcome State Fault Refusal :=
  issueNoSpec g [a] fun s => src a s fun x s =>
    let n := x.toNat % 2 ^ 16
    .next (match s.mayRecord n with
      | none => s.setP 1 true
      | some w => (s.beginRecording w n).setP 1 false)

/-- tend (R327). -/
def execTend (g : Nat) : State → Host.Outcome State Fault Refusal :=
  issueNoSpec g [] fun s => .next s.endRecording

/-- A slot declared on the strand's next recorded command (R328): outside recording nothing. -/
def State.declare (s : State) (field reg slot : Nat) : State :=
  if s.core.tape.recording.isNone then s
  else s.modCore fun c => { c with tape := { c.tape with tpend := c.tape.tpend ++ [(s.k, field, reg, slot % 64)] } }

/-- tpatch.a (R328). -/
def execTpatchA (a g : Nat) : State → Host.Outcome State Fault Refusal :=
  issueNoSpec g [a] fun s => src a s fun x s => .next (s.declare 0 0 x.toNat)
/-- tpatch.b (R328). -/
def execTpatchB (a g : Nat) : State → Host.Outcome State Fault Refusal :=
  issueNoSpec g [a] fun s => src a s fun x s => .next (s.declare 1 0 x.toNat)
/-- tpatch.e (R328). -/
def execTpatchE (a b g : Nat) : State → Host.Outcome State Fault Refusal :=
  issueNoSpec g [a, b] fun s => src a s fun x s => src b s fun y s => .next (s.declare 2 (y.toNat % 2 ^ 7) x.toNat)

/-- A value guard appended (R328, R332). -/
def guardOp (early : Bool) (a b g : Nat) : State → Host.Outcome State Fault Refusal :=
  issueNoSpec g [a, b] fun s => src a s fun x s => src b s fun y s =>
    let u := s.core.tape
    if u.recording.isNone then .next s
    else if x.toNat % 8 != 0 then .code 3
    else
      let e : TapeEntry := { kind := 8, strand := s.k, word := num early, value := word u.guards.length }
      let d : TapeGuard := { addr := x.toNat % 2 ^ 48, value := y, entry := u.entries.length }
      .next (s.modCore fun c => { c with tape := { u with entries := u.entries ++ [e], guards := u.guards ++ [d] } })

/-- tguard (R328). -/
def execTguard (a b g : Nat) : State → Host.Outcome State Fault Refusal := guardOp false a b g
/-- tguard.early (R328). -/
def execTguardEarly (a b g : Nat) : State → Host.Outcome State Fault Refusal := guardOp true a b g

/-! ## TREPLAY (R329) -/

/-- The print that the focused core's tape unit is running or has run its stream of. -/
def State.printOf (s : State) (c : Core) : Option Print := c.tape.print.bind fun i => s.sys.prints.find? fun p => p.id == i

/-- The relative position of the focused core in a crew. -/
def Crew.uvOf (w : Crew) (c : Nat) : Nat := pack (unpackX c - w.x0) (unpackY c - w.y0)

/-- The focused core's part in a print is over, where its negative has a stream for it; with the last one a TREPLAY's print is over, and the
negative is no longer in use (R330). -/
def State.endPart (s : State) (p : Print) (w : Crew) : State :=
  let d := s.die p.die
  let p := if (d.negStream p.entry (w.uvOf s.here)).isSome && !p.ended.contains s.here then { p with ended := p.ended ++ [s.here] } else p
  let s := s.modSys fun y => { y with prints := y.prints.map fun q => if q.id = p.id then p else q }
  if !p.launch && d.negNc p.entry ≤ p.ended.length then s.closePrint p else s

/-- The focused strand joins a print: it drives its core's stream, or goes on with status 0 where the core has none. -/
def joinPrint (w : Crew) (p : Print) (a : Nat) (s : State) : Act :=
  match p.failed with
  | some t => .trap { code := t.code, info := t.info, sub := t.sub, addr := t.addr } fun s => s.endPart p w
  | none =>
    match (s.die p.die).negStream p.entry (w.uvOf s.here) with
    | none => dst a 0 (s.endPart p w)
    | some _ => .gone (s.drive p.id a)

/-- treplay (R329): ILLEGAL class 1 in a gang. The first of a crew with a number reads the patch words, checks the guards and opens the print. -/
def execTreplay (a b g : Nat) : State → Host.Outcome State Fault Refusal :=
  issueNoSpec g [a, b] fun s =>
    if s.st.csr.gangSize != 0 then .ill s 1
    else match s.crew with
    | none => .next s
    | some w => src a s fun x s => src b s fun v s =>
      let n := x.toNat % 2 ^ 16
      let mine := s.sys.prints.find? fun p => p.crew == w.id && p.num == n && !p.launch
      if (s.printOf s.core).isSome && !s.core.tape.fin then .hold
      else match mine with
        | some p => if p.ended.contains s.here then .hold else joinPrint w p a s
        | none =>
          let bad (sub : Nat) (s : State) : Act := dst a (word (0x0C + sub * 2 ^ 8)) s
          if bits v.toNat 53 48 != 0 then bad 4 s
          else match s.engineRead (s.partyNow 2) (v.toNat % 2 ^ 48) 512 with
            | (_, .wait _) => .wait fun u => (u.engineRead (u.partyNow 2) (v.toNat % 2 ^ 48) 512).1
            | (s, .fail t) => bad t.sub s
            | (s, .ok bs) =>
              let patch := toWords 64 (wordOfBytes bs)
              match s.checkGuards w s.gid n patch with
              | (_, .wait) => .wait fun u => (u.checkGuards w u.gid n patch).1
              | (s, .bad f e) => dst a (word (0x13 + f.kind * 2 ^ 8)) (s.guardFailed w n (f, e))
              | (s, .ok e) =>
                let (s, id) := s.openPrint w n e patch false
                match s.sys.prints.find? fun p => p.id == id with
                | some p => joinPrint w p a s
                | none => .next s

/-! ## Replay (R335 to R337) -/

/-- The body of a recorded command word, on the registers g1 and g2, or of a recorded wait. Fields it may not hold make it no command. -/
def replayBody (w : Nat) : Option (State → Act) :=
  let f (lo n : Nat) : Nat := w / 2 ^ lo % 2 ^ n
  let cmd := f 18 7
  let t := f 13 5
  let step := cmd ≤ 1 && t < 8 && f 8 5 < 8 && f 7 1 == 0
  match f 25 7 with
  | 0x52 =>
    if f 22 3 != 0 || f 20 2 > 1 && f 21 1 = 0 || f 18 2 = 0 then none
    else if f 21 1 = 1 then (if 8 ≤ f 3 5 then none else some (cpyArmBody (f 20 1) (f 18 2) 2 (f 3 5)))
    else some (cpyBody (f 20 1) (f 18 2) 1 2)
  | 0x58 => if f 6 3 != 6 || f 19 3 = 0 || f 24 1 = 1 then none else some fun s => sendBody (f 24 1) (f 22 2) (f 19 3 + 1) 6 (s.g 1) (s.g 2) s
  | 0x68 => if step then some (stepBody 0 (cmd == 1) t (f 8 5) (f 5 2) (f 3 2)) else none
  | 0x69 => if step then some (stepBody 1 (cmd == 1) t (f 8 5) (f 5 2) (f 3 2)) else none
  | 0x6A => if step then some (stepBody 2 (cmd == 1) t (f 8 5) (f 5 2) (f 3 2)) else none
  | 0x6C => if 12 ≤ t then none else match cmd with
    | 0 => some (tldBody t 2)
    | 1 => some (tstBody t 2)
    | 2 => some (tzeroBody t)
    | _ => none
  | 0x6D => if cmd = 0 && t < 8 then some (quantIssue .qnt t 2) else none
  | 0x6E => if cmd = 0 && t < 8 then some (quantIssue .dqnt t 2) else none
  | 0x6F => match cmd, f 3 5 with
    | 0, 0 => some (idxBody 0 1 2)
    | 1, 0 => some (idxBody 1 1 2)
    | 2, m => if m < 4 then some (idxBody (2 + m) 1 2) else none
    | _, _ => none
  | 0x70 => match cmd, f 3 5 with
    | 0, m => if m < 3 then some (idxBody (6 + m) 1 2) else none
    | 1, 0 => some (idxBody 9 1 2)
    | _, _ => none
  | 0x71 => match cmd, f 3 5 with
    | 0, 0 => some (attIssue .apass 0 none 0 0)
    | 1, m => if m < 2 then some (attIssue .asub m none 1 2) else none
    | 2, 0 => some (attIssue .aunsub 0 none 1 2)
    | 3, 0 => some (attIssue .trayput 0 none 1 2)
    | 4, 0 => some (attIssue .trayget 0 none 1 2)
    | 5, 0 => some (attIssue .aclose 0 none 1 0)
    | _, _ => none
  | _ => none

/-- The body of a recorded SYNC word (R332): a wait, lease, mxwaitb or twaitc, or END, which only drains here. -/
def syncBody (w : Nat) : Option (State → Act) :=
  let f (lo n : Nat) : Nat := w / 2 ^ lo % 2 ^ n
  match f 25 7 with
  | 0x53 => some (waitBody (f 21 4) (f 17 4) (f 13 4) (f 9 4) (f 5 4))
  | 0x6B => match f 18 7 with
    | 0 => some leaseBody
    | 1 => some unleaseBody
    | 2 => some (mxwaitbBody (f 5 2))
    | _ => none
  | 0x6C => if f 18 7 = 3 then some (twaitcBody (f 13 5)) else none
  | 0x05 => some fun s => drain s .next
  | _ => none

/-- The patch doubleword or the recorded value of an entry (R335): a declaration names the entry of the command. -/
def State.patched (s : State) (p : Print) (w : Crew) (field reg entry : Nat) (v : Word) : Word :=
  let core := (unpackY s.here - w.y0) * (w.x1 - w.x0 + 1) + (unpackX s.here - w.x0)
  match ((s.die p.die).negDecls p.entry).find? fun x => bits x.1 11 0 == core && bits x.1 15 12 == field
      && (field != 2 || bits x.1 22 16 == reg) && x.1 / 2 ^ 32 == entry with
  | some x => p.patch.getD (bits x.1 29 24) 0
  | none => v

/-- How a replayed entry ends. -/
inductive Played where
  /-- The stream goes on after n entries. -/
  | on (n : Nat) (s : State)
  /-- It waits. -/
  | wait (s : State)
  /-- The print fails (R337), with the guard index and the value read of a VALUE guard. -/
  | fail (t : Trap) (guard value : Nat) (s : State)
  /-- The stream has ended (FINAL). -/
  | fin (s : State)

/-- A body run on the driver with g1, g2, q1, FPCTL and the word of the entry in place of its own (R335); records are not posted. -/
def State.playBody (s : State) (body : State → Act) (w fpc : Nat) (a b : Word) (pay : List Word) (n : Nat) : Played :=
  let old := s.st
  let s1 := { s with ir := w }.modSt fun t => { t with
    g := vset (vset t.g 1 a) 2 b, q1 := pay, q2 := [], csr := { t.csr with fpctl := word fpc } }
  let back (s : State) : State := s.modSt fun t => { t with
    g := old.g, q1 := old.q1, q2 := old.q2, csr := { t.csr with fpctl := old.csr.fpctl }
    ops := t.ops.map fun o => if old.ops.any fun x => x.id == o.id then o else { o with record := false } }
  match body s1 with
  | .next s' => .on n { back s' with ir := s.ir }
  | .wait f => .wait (f s)
  | .trap t f => .fail t 0 0 (f s)
  | .jump _ s' => .on n { back s' with ir := s.ir }
  | .gone s' => .on n { back s' with ir := s.ir }
  | .hold => .wait s

/-- Where a stream of a print stands: its next entry, or its end. The core of one that is over may have gone on to another print. -/
def State.streamAt (s : State) (p : Print) (w : Crew) (uv : Nat) : Option (Nat × Bool) :=
  let c := s.coreAt (pack (w.x0 + unpackX uv) (w.y0 + unpackY uv))
  if p.ended.contains c.coord then some (0, true)
  else if c.tape.print = some p.id then some (c.tape.pos, c.tape.fin) else none

/-- Whether a stream has reached gate k or its FINAL entry (R335). -/
def State.atGate (s : State) (p : Print) (w : Crew) (uv k : Nat) : Bool :=
  let c := s.coreAt (pack (w.x0 + unpackX uv) (w.y0 + unpackY uv))
  p.ended.contains c.coord || c.tape.print == some p.id && (c.tape.fin || k < c.tape.seen || match (s.die p.die).negStream p.entry uv with
    | some (off, _) => ((s.die p.die).negEntry p.entry off c.tape.pos).kind == 9
    | none => true)

/-- The relative positions of the streams of a negative. -/
def Die.negPlaces (d : Die) (e : Nat) : List Nat := (List.range (d.negNc e)).map fun i => d.negWord e (64 + 16 * i) % 2 ^ 24

/-- One entry of the focused core's stream (R335). -/
def State.playEntry (s : State) (p : Print) (w : Crew) (off n : Nat) : Played :=
  let d := s.die p.die
  let at_ (i : Nat) : TapeEntry := d.negEntry p.entry off i
  let pos := s.core.tape.pos
  let e := at_ pos
  let bad (c : Nat) : Played := .fail { code := 1, info := word (e.word % 2 ^ 32 + c * 2 ^ 32) } 0 0 s
  if n ≤ pos then bad 2
  else match e.kind with
  | 1 => match replayBody e.word with
    | none => bad 1
    | some body =>
      let a := s.patched p w 0 0 pos e.value
      let b := s.patched p w 1 0 pos (at_ (pos + 1)).value
      s.playBody body e.word e.fpc a b ((List.range e.arg).map fun i => (at_ (pos + 2 + i)).value) (2 + e.arg)
  | 3 =>
    let cmd := ((List.range 64).find? fun i => (at_ (pos + i)).kind != 3).getD 0 + pos
    let eng := bits e.word 15 8
    if 4 < eng then bad 1 else .on 1 (s.setShadow eng (bits e.word 7 0) (s.patched p w 2 (bits e.word 7 0) cmd e.value))
  | 4 => match s.writeCsr e.word e.value with
    | some s => .on 1 s
    | none => bad 2
  | 5 => match syncBody e.word with
    | none => bad 1
    | some body => s.playBody body e.word (s.fpctl) (s.g 1) (s.g 2) s.st.q1 1
  | 6 => match s.streamAt p w (e.value.toNat % 2 ^ 24) with
    | some (q, fin) => if fin || e.value.toNat / 2 ^ 32 ≤ q then .on 1 s else .wait s
    | none => .wait s
  | 7 =>
    let k := e.value.toNat % 2 ^ 32
    let s := s.modCore fun c => { c with tape := { c.tape with seen := max c.tape.seen (k + 1) } }
    if (d.negPlaces p.entry).all fun uv => s.atGate p w uv k then .on 1 s else .wait s
  | 8 =>
    let g := (d.negGuards p.entry).getD e.value.toNat []
    if bit e.word 0 then .on 1 s
    else match s.readAsGld s.gid (g.getD 1 0) s.cl with
      | (s, .ok bs) => if wordOfBytes bs = g.getD 2 0 then .on 1 s
          else .fail { code := 0x13, sub := 3, addr := word (g.getD 1 0) } e.value.toNat (wordOfBytes bs) s
      | (s, .wait _) => .wait s
      | (s, .fail _) => .fail { code := 0x13, sub := 3, addr := word (g.getD 1 0) } e.value.toNat 0 s
  | 9 => match drain s .next with
    | .next s' => .fin s'
    | .trap t f => .fail t 0 0 (f s)
    | _ => .wait s
  | _ => bad 2

/-- The focused core's stream over (R335): the status of TREPLAY, or strand 0 of a launch print free; with the last stream the print is over. -/
def State.endStream (s : State) (p : Print) (w : Crew) : State :=
  let s := s.modCore fun c => { c with tape := { c.tape with fin := true } }
  let s := if p.launch then s.freeStrand 0 else (s.setG s.core.tape.dest 0).goTo (s.st.pc + 4)
  s.endPart p w

/-- A stream of a failed print stops (R337): TREPLAY traps with the failure's code; a launch's strand is freed once its operations have
completed. -/
def State.stopStream (s : State) (p : Print) (w : Crew) (t : Trap) : State :=
  if p.launch then
    if s.st.ops.any fun o => !o.complete then s
    else (s.modSt fun x => { x with ops := [] }).endStream p w
  else
    ((s.modCore fun c => { c with tape := { c.tape with fin := true } }).endPart p w).takeTrap
      { code := t.code, info := t.info, sub := t.sub, addr := t.addr }

/-- A print fails (R336, R337): the record, and a VALUE guard makes the negative INVALID (R334). -/
def State.failPrint (s : State) (p : Print) (t : Trap) (guard value : Nat) : State :=
  let s := s.tapeRecord t.code t.sub p.num guard s.core.tape.pos t.addr.toNat value
  let s := if t.code = 0x13 then s.modDie p.die fun d => d.markDir p.entry 3 3 (d.dirActive p.entry) else s
  s.modSys fun y => { y with prints := y.prints.map fun q => if q.id = p.id && q.failed.isNone then { q with failed := some t } else q }

/-- REPLAY_ENTRY (R335): the driver strand's next entry. -/
def execReplayEntry (c k : Nat) (s : State) : Host.Outcome State Fault Refusal :=
  if !s.inMesh c || 16 ≤ k then .next s
  else .next (s.atCore c k fun s => match s.printOf s.core, s.crew with
    | some p, some w =>
      if s.core.tape.driver != k || s.core.tape.fin then s
      else match p.failed with
        | some t => s.stopStream p w t
        | none => match (s.die p.die).negStream p.entry (w.uvOf s.here) with
          | none => s.endStream p w
          | some (off, n) => match s.playEntry p w off n with
            | .on m s => s.modCore fun c => { c with tape := { c.tape with pos := c.tape.pos + m } }
            | .wait s => s
            | .fail t g v s => s.failPrint p t g v
            | .fin s => s.endStream p w
    | _, _ => s)

end Sys2Proof.Machine
end

