-- ==== Sys2Proof/Machine/Recovery.lean ====
section
/-! DEFINITION. Pages that move between tiers (R364, R365, R428), soft errors that no operation consumes (R410), failed links and modules (R409),
keep-alive and time flits (R427, R430), ageing (R435). The layouts of the tier engines' registers and rings are the model's (log entry 20). -/

namespace Sys2Proof.Machine

/-! ## Tier engines (R365, R428) -/

/-- A register of tier t of a die: WMARK, FREERING, CANDRING, and the log2 sizes of the rings in bits 5:0 and 13:8. -/
def State.tierReg (s : State) (dk t i : Nat) : Nat :=
  match (s.die dk).tier.find? fun e => e.1 == t with
  | some e => (e.2.getD i 0).toNat
  | none => 0

/-- The keys of the slots of a ring: the free frames (0) or the demotion candidates (1). A slot of 0 is empty. -/
def State.ringSlots (s : State) (dk t which : Nat) : List Nat :=
  let base := s.tierReg dk t (1 + which)
  let log := bits (s.tierReg dk t 3) (8 * which + 5) (8 * which)
  if log < 6 || 24 < log || base = 0 then [] else (List.range (2 ^ log)).map fun i => memKey 0 (dk / 4) (base + 8 * i)

/-- The first full slot of a ring, with its frame; the first empty slot. -/
def State.ringFirst (s : State) (slots : List Nat) : Option (Nat × Nat) :=
  (slots.find? fun k => s.physN k 8 != 0).map fun k => (k, s.physN k 8)
def State.ringEmpty (s : State) (slots : List Nat) : Option Nat := slots.find? fun k => s.physN k 8 == 0

/-- The key of the entry of an address's leaf in a context, by a walk that changes nothing. -/
def leafKeyFrom (s : State) (gid va : Nat) : Nat → Nat → Nat → Nat → Option Nat
  | 0, _, _, _ => none
  | fuel + 1, level, module, base =>
    let at_ := memKey 0 module (base + 16 * tableIndex level va)
    let dw0 := s.tableN gid at_
    if !bit dw0 0 then none
    else if bit dw0 1 then some at_
    else (s.moduleField (bits (s.tableN gid (at_ + 8)) 13 0)).bind fun m => leafKeyFrom s gid va fuel (level - 1) m (dw0 / 512 * 512)

def State.leafKey (s : State) (gid va : Nat) : Option Nat :=
  (s.ctxByGid gid).bind fun c => (s.moduleField (bits (c.dw 2) 13 0)).bind fun m => leafKeyFrom s gid va 4 3 m (c.dw 1 / 8192 * 8192)

/-- A page begins to move (R365, step 1): its leaf becomes ABSENT, and every cached translation of it goes, as a TLBINV discards it. -/
def State.startMove (s : State) (e : TlbEntry) (dk tier : Nat) : State :=
  match s.leafKey e.gid e.base with
  | none => s
  | some k =>
    let m : PageMove := { gid := e.gid, va := e.base, size := e.size, entry := k, fromTier := e.type, toTier := tier, die := dk
                          oldFrame := e.dw0 / 2 ^ 16 * 2 ^ 16, dw0 := s.tableN e.gid k, dw1 := s.tableN e.gid (k + 8), module := e.home s }
    ((s.setTableN e.gid k 2).discardRange e.gid e.base (e.base + e.size)).modSys fun y => { y with moves := y.moves ++ [m] }

/-- Whether a page of a context is being moved. -/
def State.moving (s : State) (gid va : Nat) : Bool := s.sys.moves.any fun m => m.gid == gid && m.va == va

/-- TIER_DEMOTION (R365, R428): tier t mod 4 of die t / 4, when its free frames are below its watermark, starts to move its next candidate one tier
down. A candidate that no live context maps, or that is read-duplicate, is passed over. -/
def execTierDemotion (t : Nat) (s : State) : Host.Outcome State Fault Refusal :=
  let dk := t / 4
  let n := t % 4
  let free := ((s.ringSlots dk n 0).filter fun k => s.physN k 8 != 0).length
  if !s.isDie dk || n = 3 || s.tierReg dk n 0 ≤ free then .next s
  else match s.ringFirst (s.ringSlots dk n 1) with
    | none => .next s
    | some (slot, frame) =>
      let s := s.setPhysN slot 8 0
      let pages := (0 :: s.liveCtxs.map Ctx.gidOf).eraseDups.flatMap fun g => (s.items g).filterMap fun i => match i with
        | .page e => if e.type = n && e.home s = dk / 4 && e.dw0 / 2 ^ 16 = frame / 2 ^ 16 && !e.dup then some e else none
        | .table _ _ => none
      .next (match pages.head? with
        | some e => if s.moving e.gid e.base then s else s.startMove e dk (n + 1)
        | none => s)

/-- Whether a cached or wanted leaf is still what its page's entry holds. -/
def State.leafCurrent (s : State) (e : TlbEntry) : Bool := match s.leafKey e.gid e.base with
  | some k => s.tableN e.gid k == e.dw0
  | none => false

/-- TIER_PROMOTION (R364, R365): the first page with PRM that an access of core c's cluster or a unit's walk waits for, by the engine of the die that
stands in the page's module where core c's die stands in its own. What has changed since it was asked for is asked for no more. -/
def execTierPromotion (c _k _id : Nat) (s : State) : Host.Outcome State Fault Refusal :=
  if !s.inMesh c then .next s
  else
    let all := (s.coreAt c).dtlb ++ (s.cluster (s.clusterKey c)).tlb2 ++ s.sys.wanted
    let s := s.modSys fun y => { y with wanted := y.wanted.filter s.leafCurrent }
    match all.find? fun e => e.promotes && s.leafCurrent e && !s.moving e.gid e.base with
    | some e => .next (s.startMove e (e.home s * 4 + s.dieKey c % 4) 0)
    | none => .next s

/-- The cells of n bytes moved to another place of memory. -/
def moveRange (m : Mem) (src dst n : Nat) : Mem :=
  let part := (m.filter fun c => src ≤ c.1 && c.1 < src + n).map fun c => (c.1 - src + dst, c.2)
  (m.filter fun c => c.1 < dst) ++ part ++ m.filter fun c => dst + n ≤ c.1

/-- A version, or a reader, of a page that has moved: its doubleword's key, or its line's, in units of so many bytes (R272, R365). -/
def Version.moved (v : Version) (src dst n unit : Nat) : Version :=
  if src ≤ v.addr * unit && v.addr * unit < src + n then { v with addr := v.addr - src / unit + dst / unit } else v

/-- What of a stretch lies in n moved bytes, where they have gone: a frame that moves stays encrypted as it is (R377). -/
def Sealed.moved (x : Sealed) (src dst n : Nat) : Option Sealed :=
  let lo := max x.lo src
  let hi := min x.hi (src + n)
  if lo < hi then some { x with lo := lo - src + dst, hi := hi - src + dst, va := x.va.map (· + (lo - x.lo)) } else none

/-- The frame of a page, n bytes with its code bytes, moved from one place of memory to another, with all that is kept by place: poison, what is
encrypted, versions and readers (R272, R365, R377, R410). -/
def State.moveFrame (s : State) (src dst size n : Nat) : State :=
  let carried := s.sys.sealed.filterMap fun x => x.moved src dst n
  ((s.unsealed src n).unsealed dst n).modSys fun y => { y with
    mem := moveRange y.mem src dst n
    poisonLines := (y.poisonLines.filter fun l => !(dst ≤ l && l < dst + n)).map fun l => if src ≤ l && l < src + n then l - src + dst else l
    sealed := y.sealed ++ carried
    versions := y.versions.map (·.moved src dst size 8), readers := y.readers.map (·.moved src dst size 64) }

/-- PAGE_MOVE_COMPLETE (R365, steps 1 to 4): once every access that had translated the page is over, its frame goes with its code bytes to a frame of
the target tier's ring; the leaf is written; the old frame is free; the walks that wait on the page read it again. It waits while the ring is
empty. -/
def execPageMoveComplete (n : Nat) (s : State) : Host.Outcome State Fault Refusal :=
  match s.sys.moves[n]? with
  | none => .next s
  | some m =>
    match s.usesRange m.gid m.va (m.va + m.size), s.ringFirst (s.ringSlots m.die m.toTier 0) with
    | false, some (slot, frame) =>
      let codes := bits m.dw0 12 11 != 0 && !bit m.dw0 13
      let len := m.size + if codes then m.size / 256 else 0
      let frame := frame / 2 ^ 16 * 2 ^ 16
      let s := (s.setPhysN slot 8 0).moveFrame (memKey m.fromTier m.module m.oldFrame) (memKey m.toTier m.module frame) m.size len
      let low := m.dw0 % 2 ^ 16 - bits m.dw0 4 2 * 4 + m.toTier * 4
      let dw1 := if m.toTier = 0 then m.dw1 - bits m.dw1 30 30 * 2 ^ 30 else m.dw1
      let s := (s.setTableN m.gid (m.entry + 8) dw1).setTableN m.gid m.entry (frame + low)
      let s := s.modSys fun y => { y with
        moves := y.moves.eraseIdx n
        versions := y.versions.map fun v => { v with leaf := v.leaf.map fun e => if e.gid = m.gid && e.base = m.va then { e with dw0 := frame + low, dw1 := dw1 } else e } }
      let s := match s.ringEmpty (s.ringSlots m.die m.fromTier 0) with
        | some k => s.setPhysN k 8 m.oldFrame
        | none => s
      .next (s.discardRange m.gid m.va (m.va + m.size))
    | _, _ => .next s

/-! ## Soft errors (R410) -/

/-- A fenced unit logged in the identity region of its die (R429): the unit code in bits 7:0, the unit above. -/
def State.logUnit (s : State) (dk unit loc : Nat) : State :=
  s.modDie dk fun d => { d with fencedUnits := d.fencedUnits ++ [word (unit + loc * 2 ^ 8)] }

/-- A unit of a die fenced (R410) and logged (R429): way i mod 16 of the cache slice of cluster i / 16, or port i of the die's module. A fenced
synchronisation engine or queue controller is not reached any more; of a fenced distributor, tape unit or HBM4 channel the specification names no
effect (log entry 27). -/
def State.fenceUnit (s : State) (dk unit i : Nat) : State :=
  let s := s.logUnit dk unit i
  if unit = 2 then
    let cl := 36 * dk + i / 16 % 36
    let s := s.modCluster cl fun c => { c with badWays := (i % 16 :: c.badWays).eraseDups }
    dropVersions s.sys.versions.length cl s
  else if unit = 7 then s.modSys fun y => { y with fencedLinks := ((dk / 4 * 12 + i % 12) :: y.fencedLinks).eraseDups }
  else s

/-- An uncorrectable error that awaits its consumer (R410), with the unit codes of log entry 27: of a core, 16 a doubleword of its scratchpad, 17
a tile, 18 what a strand's next instruction reads of its registers, 19 a word of its instruction store; of a die, 20 a queue's descriptor, 21 a
tray slot, 22 a negative, which becomes INVALID. -/
def State.softError (s : State) (unit loc : Nat) : State :=
  let c := loc % 2 ^ 24
  let i := loc / 2 ^ 24
  if 20 ≤ unit then
    if 4 * s.sys.mx * s.sys.my ≤ c then s
    else if unit = 20 then s.setQueue c { (s.die c).queue (i % 2 ^ 14) with bad := true }
    else if unit = 21 then s.modDie c fun d => { d with passes := d.passes.map fun p =>
      { p with subs := p.subs.map fun b => if b.slot = i then { b with bad := true } else b } }
    else if unit = 22 && (s.die c).dirState (i % 256) = 2 then
      s.modDie c fun d => d.markDir (i % 256) 3 0 (d.dirActive (i % 256))
    else s
  else if !s.inMesh c then s
  else s.atCore c (i % 16) fun s =>
    if unit = 16 then s.modCore fun k => { k with bad := i % 2 ^ 15 :: k.bad }
    else if unit = 17 then (if i < 12 then s.modCore fun k => k.poisoned i (softErr 0) else s)
    else if unit = 18 then s.modSt fun t => { t with soft := true }
    else if unit = 19 then s.modCore fun k => { k with badCode := i % 2 ^ 13 :: k.badCode }
    else s

/-- SCRUB (R410): an uncorrectable error. Unit 0 is a line of memory by its key, which is poisoned; without a consumer, 1 is a core, fenced by
R400, and 2 to 8 are fenced and logged by the codes of R429, on the die that bits 23:0 of `loc` give; those from 16 on await their consumer. Unit 9 is
a corrected error of a cluster cache, HBM4 or the second tier, which is counted. -/
def execScrub (unit loc : Nat) (s : State) : Host.Outcome State Fault Refusal :=
  if unit = 0 then .next (s.modSys fun y => { y with poisonLines := (loc / 64 * 64) :: y.poisonLines.filter fun l => l / 64 != loc / 64 })
  else if unit = 1 then .next (if s.inMesh loc then (s.fenceCore loc 0x16 5).logUnit (s.dieKey loc) 1 loc else s)
  else if 16 ≤ unit then .next (s.softError unit loc)
  else
    let dk := loc % 2 ^ 24
    if !s.isDie dk || 9 < unit then .next s
    else if unit = 9 then .next (s.modDie dk fun d => { d with corrected := d.corrected + 1 })
    else .next (s.fenceUnit dk unit (loc / 2 ^ 24))

/-! ## Module failure (R409) -/

/-- The module that a side of a module faces: 0 x−, 1 x+, 2 y−, 3 y+. -/
def State.neighbour (s : State) (m side : Nat) : Option Nat :=
  let x := m % s.sys.mx
  let y := m / s.sys.mx
  if side = 0 then (if 0 < x then some (m - 1) else none)
  else if side = 1 then (if x + 1 < s.sys.mx then some (m + 1) else none)
  else if side = 2 then (if 0 < y then some (m - s.sys.mx) else none)
  else (if y + 1 < s.sys.my then some (m + s.sys.mx) else none)

/-- The modules on the way from one module to another: along x, then along y. -/
def State.onWay (s : State) (a b m : Nat) : Bool :=
  let mid (p q x : Nat) : Bool := min p q ≤ x && x ≤ max p q
  let col (n : Nat) : Nat := n % s.sys.mx
  let row (n : Nat) : Nat := n / s.sys.mx
  (row m == row a && mid (col a) (col b) (col m)) || (col m == col b && mid (row a) (row b) (row m))

/-- Whether a job has a core on a module, or is reachable only through it: the way between two of its modules leads there (R409). -/
def State.jobThrough (s : State) (id m : Nat) : Bool :=
  let ms := ((s.sys.crews.filter fun w => w.job == id).flatMap fun w => w.coords.map s.moduleOf).eraseDups
  ms.any fun a => ms.any fun b => s.onWay a b m

/-- The ports that face a module, of its neighbours (R430). -/
def State.linksTo (s : State) (m : Nat) : List Nat :=
  (List.range (s.sys.mx * s.sys.my)).flatMap fun n => (List.range 4).flatMap fun side =>
    if s.neighbour n side = some m then (List.range 3).map fun i => 12 * n + 3 * side + i else []

/-- A crew of an affected job when a module has failed (R409): one with a core there stops, held, without a new image, until the host kills its job; one
elsewhere is parked into a full image with HOLD; a parked one keeps its image, whose header shows HOLD. -/
def State.holdCrew (s : State) (m : Nat) (w : Crew) : State :=
  let s := s.modCrew w.id fun w => { w with hold := true, touched := if w.life = .parked then w.touched ++ [2 ^ 24] else w.touched }
  if w.life = .parked || w.life = .killed then s
  else if w.coords.any fun c => s.moduleOf c == m then
    let s := s.modCrew w.id fun w => if w.life = .running then { w with life := .preempting, asked := none } else w
    w.coords.foldl (fun s c => s.atCore c 0 fun s =>
      if s.core.crew = some w.id then s.handlersKilled.modCore fun k => { k.emptied with crew := some w.id } else s) s
  else ((s.modCrew w.id fun w => { w with valid := false }).requestPark 3 w.id).1

/-- A module has failed (R409): the links to it are fenced, traffic toward it is bounced; the crews of each job with a core on it, or reachable through
it, stop or park. -/
def State.failModule (s : State) (m : Nat) : State :=
  if s.sys.mx * s.sys.my ≤ m || s.sys.mx * s.sys.my = 1 || (s.mod m).failed then s
  else
    let s := (s.modMod m fun x => { x with failed := true }).modSys fun y => { y with fencedLinks := (s.linksTo m ++ y.fencedLinks).eraseDups }
    (s.sys.crews.filter fun w => s.jobThrough w.job m).foldl (fun s w => s.holdCrew m w) s

/-- MODULE_FAILURE (R409). -/
def execModuleFailure (m : Nat) (s : State) : Host.Outcome State Fault Refusal := .next (s.failModule m)

/-- FLIT_REPLAY (R410): after 8 failed replays the link is fenced, and the module it reaches has failed. A link is port p of module m as 12·m + p,
three ports to a side (R430). -/
def execFlitReplay (link fails : Nat) (s : State) : Host.Outcome State Fault Refusal :=
  let m := link / 12
  if fails < 8 || s.sys.mx * s.sys.my ≤ m then .next s
  else
    let s := (s.modSys fun y => { y with fencedLinks := link :: y.fencedLinks.filter (· != link) }).logUnit (m * 4) 7 link
    .next (match s.neighbour m (link % 12 / 3) with
      | some n => s.failModule n
      | none => s)

/-! ## Periodic flits and ageing (R339, R427, R430, R435) -/

/-- Whether a port of a module, numbered 12·m + p, is in ST 2110 receive mode (R431). -/
def State.receives (s : State) (port : Nat) : Bool := (s.mod (port / 12)).ports.any fun p => p.1 == port && p.2

/-- KEEPALIVE_SEND (R430): every 100 µs every port in fabric mode, of a module that has not failed, sends a flit. -/
def execKeepaliveSend (s : State) : Host.Outcome State Fault Refusal :=
  if s.sys.now < s.sys.keepAt then .next s
  else
    let ports := (List.range (12 * s.sys.mx * s.sys.my)).filter fun p => !(s.mod (p / 12)).failed && !s.sys.fencedLinks.contains p && !s.receives p
    .next (s.modSys fun y => { y with
      keepAt := y.now + 100000, keeps := (ports.map fun p => (p, y.now)) ++ y.keeps.filter fun k => !ports.contains k.1 })

/-- TIME_FLIT_EXCHANGE (R339, R427): every 100 µs modules exchange time flits with their mesh neighbours, and REFTIME is slewed forward by at most
20 ns; a single module has no neighbour to slew to. -/
def execTimeFlitExchange (adj : Nat) (s : State) : Host.Outcome State Fault Refusal :=
  if s.sys.now < s.sys.flitAt then .next s
  else .next (s.modSys fun y => { y with now := y.now + (if y.mx * y.my ≤ 1 then 0 else min adj 20), flitAt := y.now + 100000 })

/-- AGEING_UPDATE (R435): three doublewords of a die. -/
def execAgeingUpdate (d : Nat) (words : List Nat) (s : State) : Host.Outcome State Fault Refusal :=
  if 4 * s.sys.mx * s.sys.my ≤ d then .next s
  else .next (s.modDie d fun x => { x with ageing := (List.range 3).map fun i => word (words.getD i 0 % 2 ^ 48) })

end Sys2Proof.Machine
end

