-- ==== Sys2Proof/Machine/Boundary.lean ====
section
/-! DEFINITION. The outside: the mailbox (R376, R379, R381, R382, R400, R401, R409, R423, R429), host memory accesses and snoops (R424), the security
alarm (R383, R384), device reset (R381), Ethernet (R430 to R433), and the two traps of fetch (R41, R53). The layout of the mailbox's argument
page is the model's (log entry 20); cryptography is opaque (log entry 7). -/

namespace Sys2Proof.Machine

/-! ## The mailbox (R429) -/

/-- The key of a host physical address, as the link of a module reaches it. -/
def hostKey (m addr : Nat) : Nat := memKey 3 m addr

/-- A command of a module's mailbox done: what it returns is written to the argument page, from byte 64 on (log entry 20). -/
def State.mailDone (s : State) (m : Nat) (data : List Word) : State :=
  let s := s.setPhys (hostKey m ((s.mod m).mbarg.toNat + 64)) (data.flatMap fun w => bytesOfWord 8 w.toNat)
  s.modMod m fun x => { x with mbstat := 2, mbdata := data }

/-- A command of a module's mailbox ended with an error code. -/
def State.mailError (s : State) (m code : Nat) : State := s.modMod m fun x => { x with mbstat := 3 + code % 256 * 2 ^ 8 }

/-- A command of a module's mailbox: ignored while another one runs (R429). -/
def mailbox (m : Nat) (s : State) (t : State) : State := if (s.mod m).mbstat % 4 = 1 then s else t

/-- The bytes of host memory from an address on. -/
def State.hostBytes (s : State) (m addr len : Nat) : List Byte := s.phys (hostKey m addr) len

/-- What the boot ROM finds of an image (R381): 0, or the status of the first step that fails. -/
def imageStatus (image : List Byte) : Nat :=
  if image.length < 4096 || 2 ^ 26 < image.length || wordOfBytes (image.take 4) != 0x50535646 then 1
  else if Config.sha384 (bytesOfWord 97 (Config.imageKey image).toNat) != Config.fuseHash then 2
  else if !Config.verifies (Config.imageKey image) (Config.imageSignature image) (image.take 256 ++ image.drop Config.headerBytes) then 3
  else if (Config.imageSecurity image).toNat < Config.fuseRollback.toNat then 4
  else 0

/-- The firmware version of an image in bits 47:0, its security version above (R382, log entry 22). -/
def imageVersions (image : List Byte) : Word := word ((Config.imageVersion image).toNat + (Config.imageSecurity image).toNat * 2 ^ 48)

/-- FWLOAD (R381): the boot ROM waits for it after a reset. On success the attestation log starts with the image, and the modules run. -/
def State.fwload (s : State) (m addr len : Nat) : State :=
  let image := s.hostBytes m addr (min len (2 ^ 26 + 1))
  let st := if (s.mod m).fw then 1 else imageStatus image
  if st != 0 then s.mailError m st
  else
    let log := extendLog 0 image
    ((List.range (s.sys.mx * s.sys.my)).foldl (fun s n =>
      (s.modMod n fun x => { x with fw := true, log := log, keyErased := false }).modDie (4 * n) fun d => { d with firmware := imageVersions image }) s).mailDone m []

/-- FWLOAD of the first module. -/
def execFwload (addr len : Nat) (s : State) : Host.Outcome State Fault Refusal := .next (mailbox 0 s (s.fwload 0 addr len))

/-- The 272 bytes of a quote that are signed (R382). -/
def State.quoteBody (s : State) (m nonce gid : Nat) : List Byte :=
  let c := if gid = 0 then none else s.liveCtxs.find? fun c => c.gidOf == gid && c.dark
  bytesOfWord 32 nonce ++ bytesOfWord 48 (s.mod m).log ++ bytesOfWord 8 (s.die (4 * m)).firmware.toNat ++ bytesOfWord 8 0
    ++ bytesOfWord 4 gid ++ bytesOfWord 48 ((c.map (·.measure)).getD 0) ++ bytesOfWord 97 ((c.map fun c => c.qc.toNat).getD 0) ++ bytesOfWord 27 0

/-- QUOTE (R382): bytes 0 to 271 and the 96-byte signature over them. -/
def State.quote (s : State) (m nonce gid : Nat) : State :=
  let body := s.quoteBody m nonce gid
  let q := body ++ bytesOfWord 96 (Config.sign body).toNat
  (s.modMod m fun x => { x with quote := q }).mailDone m (toWords 46 (wordOfBytes q))

/-- QUOTE of the first module. -/
def execQuote (nonce gid : Nat) (s : State) : Host.Outcome State Fault Refusal := .next (mailbox 0 s (s.quote 0 nonce gid))

/-- CERT (R382, R429): up to 4,032 bytes. -/
def State.cert (s : State) (m : Nat) : State :=
  let c := (Config.certificate m).take 4032
  s.mailDone m (toWords ((c.length + 7) / 8) (wordOfBytes c))

/-- CERT of the first module. -/
def execCert (s : State) : Host.Outcome State Fault Refusal := .next (mailbox 0 s (s.cert 0))

/-- A live darkroom context with the private key of its seal. -/
def State.darkCtx (s : State) (gid : Nat) : Option (Ctx × BitVec 384) :=
  (s.liveCtxs.find? fun c => c.gidOf == gid && c.dark && !c.halted).bind fun c => c.secret.map fun k => (c, k)

/-- The public key QO of a context's owner (R379): the first one that was accepted, or the one that the owner sends now (log entry 7). -/
def State.ownerOf (s : State) (c : Ctx) : BitVec 776 := c.owner.getD (Config.ownerKey s.draw)

/-- The session key KS between a context and its owner (R379). -/
def State.sessionKey (s : State) (c : Ctx) (secret : BitVec 384) : BitVec 256 :=
  Config.sessionKey secret (s.ownerOf c) (BitVec.ofNat 32 c.gidOf)

/-- The entries of a GID changed on every die. -/
def State.modGid (s : State) (gid : Nat) (f : Ctx → Ctx) : State :=
  { s with dies := s.dies.map fun d => { d with ctxs := d.ctxs.map fun c => if c.valid && c.gidOf = gid then f c else c } }

/-- The firmware as it reaches a context's pages (R379). -/
def firmwareParty (m gid : Nat) : Party := { gid := gid, cl := engineWalker (4 * m), job := 0, me := 2 ^ 40, quiet := true }

/-- An import tried (R379): the blob's tag and its nonce are checked; the plain bytes are written through the context's translation. Whether it is over
comes with it: it waits while a page is awaited. -/
def State.tryImport (s : State) (m gid va len : Nat) (blob : List Nat) : State × Bool :=
  match s.darkCtx gid with
  | none => (s.mailError m 1, true)
  | some (c, secret) =>
    let bs := blob.map fun b => BitVec.ofNat 8 b
    let nonce := wordOfBytes (bs.take 12)
    match Config.unsealBlob (s.sessionKey c secret) bs with
    | none => (s.mailError m 2, true)
    | some plain =>
      let accept (s' : State) : State := s'.modGid gid fun x => { x with imports := nonce, owner := some (s.ownerOf c) }
      if nonce ≤ c.imports || plain.length != len then (s.mailError m 2, true)
      else match s.engineWrite (firmwareParty m gid) va plain with
        | (s, .ok _) => ((accept s).mailDone m [], true)
        | (s, .fail _) => ((accept s).mailError m 3, true)
        | (s, .wait _) => (s, false)

/-- An export tried (R379): a nonce one greater than the last export's; the blob is written to host memory at an address. Whether it is over comes with
it. -/
def State.tryExport (s : State) (m gid va len out : Nat) : State × Bool :=
  match s.darkCtx gid with
  | none => (s.mailError m 1, true)
  | some (c, secret) =>
    match s.engineRead (firmwareParty m gid) va len with
    | (t, .ok bs) =>
      let blob := Config.sealBlob (s.sessionKey c secret) (c.exports + 1) bs
      let t := (t.modGid gid fun x => { x with exports := c.exports + 1, owner := some (s.ownerOf c) }).setPhys (hostKey m out) blob
      (t.modMod m fun x => { x with mbstat := 2, mbdata := toWords ((blob.length + 7) / 8) (wordOfBytes blob) }, true)
    | (t, .fail _) => (t.mailError m 3, true)
    | (t, .wait _) => (t, false)

/-- A mailbox command whose pages may be awaited: the mailbox is busy until it is performed. -/
def orHeld (m : Nat) (r : HostReq) (t : State × Bool) : State :=
  if t.2 then t.1 else (t.1.hold r).modMod m fun x => { x with mbstat := 1 }

/-- IMPORT and EXPORT (R379) at a module's mailbox. -/
def State.importBlob (s : State) (m gid va len : Nat) (blob : List Nat) : State := orHeld m (.importBlob m gid va len blob) (s.tryImport m gid va len blob)
def State.exportBlob (s : State) (m gid va len out : Nat) : State := orHeld m (.exportBlob m gid va len out) (s.tryExport m gid va len out)

/-- IMPORT (R379) at the first module. -/
def execImportBlob (gid va len : Nat) (blob : List Nat) (s : State) : Host.Outcome State Fault Refusal := .next (mailbox 0 s (s.importBlob 0 gid va len blob))

/-- EXPORT (R379) at the first module, into its argument page. -/
def execExportBlob (gid va len : Nat) (s : State) : Host.Outcome State Fault Refusal :=
  .next (mailbox 0 s (s.exportBlob 0 gid va len ((s.mod 0).mbarg.toNat + 64)))

/-- CTX (R376, R429): CTXLOAD (load ≠ 0) or CTXSAVE of entry n of die d of the module's package; the status comes first in the data. -/
def State.mailCtx (s : State) (m load n d : Nat) (words : List Nat) : State :=
  let dk := 4 * m + d % 4
  if n % 256 = 0 then s.mailDone m [1]
  else if load = 0 then s.mailDone m (0 :: (s.ctxSaved dk (n % 256)).map word)
  else let r := s.ctxLoad dk (n % 256) (words.map (· % 2 ^ 64)); r.1.mailDone m [word r.2]

/-- MAILBOX_CTX (R376) at the first module. -/
def execMailboxCtx (load n d : Nat) (words : List Nat) (s : State) : Host.Outcome State Fault Refusal :=
  .next (mailbox 0 s (s.mailCtx 0 load n d words))

/-- The first live job of a number. -/
def State.jobNumbered (s : State) (num_ : Nat) : Option Job := s.sys.jobs.find? fun j => j.num == num_

/-- DBGSET (R423): refused for a job of a darkroom context. -/
def State.dbgset (s : State) (m job slot pc task : Nat) : State :=
  match s.jobNumbered job with
  | none => s.mailError m 1
  | some j =>
    if 8 ≤ slot || ((s.ctxByGid j.gid).map Ctx.dark).getD false || pc % 4 != 0 || bits pc 60 48 != 0 then s.mailError m 1
    else
      let b := { BpSlot.make pc task with armed := bit pc 63 }
      (s.modJob j.id fun j => { j with bps := vset j.bps slot b }).mailDone m []

/-- DBGSET (R423) at the first module. -/
def execDbgset (job slot pc task : Nat) (s : State) : Host.Outcome State Fault Refusal := .next (mailbox 0 s (s.dbgset 0 job slot pc task))

/-- A crew held no longer (R409); the header of its image is written again. -/
def Crew.freed (w : Crew) : Crew :=
  { w with hold := false, touched := if w.hold && w.life = .parked then w.touched ++ [2 ^ 24] else w.touched }

/-- RELEASE (R409): the held crews of the job of a launch entry may resume, or are killed. -/
def State.mailRelease (s : State) (m q ticket killed : Nat) : State :=
  match s.sys.jobs.find? fun j => j.queue == q && j.ticket == ticket with
  | none => s.mailError m 1
  | some j =>
    if bit killed 0 then (s.killJob j.id 1 0x14 1).mailDone m []
    else (s.modSys fun y => { y with crews := y.crews.map fun w => if w.job = j.id then w.freed else w }).mailDone m []

/-- RELEASE (R409) at the first module. -/
def execRelease (q ticket killed : Nat) (s : State) : Host.Outcome State Fault Refusal := .next (mailbox 0 s (s.mailRelease 0 q ticket killed))

/-- UNFENCE (R400): the core is clean again and may be placed on. -/
def State.unfence (s : State) (m c : Nat) : State :=
  if s.inMesh c && (s.coreAt c).fenced then (s.atCore c 0 fun s => s.modCore fun k => { k.emptied with fenced := false }).mailDone m []
  else s.mailError m 1

/-- UNFENCE (R400) at the first module. -/
def execUnfence (c : Nat) (s : State) : Host.Outcome State Fault Refusal := .next (mailbox 0 s (s.unfence 0 c))

/-- PREEMPT (R401): crew `crew` of a job. -/
def State.mailPreempt (s : State) (m job crew : Nat) : State :=
  match s.jobNumbered job with
  | none => s.mailError m 1
  | some j => match s.sys.crews.find? fun w => w.job == j.id && w.idx == crew with
    | none => s.mailError m 1
    | some w => let r := s.requestPreempt w.id; if r.2 then r.1.mailDone m [] else r.1.mailError m 2

/-- MAILBOX_PREEMPT (R401) at the first module. -/
def execMailboxPreempt (job crew : Nat) (s : State) : Host.Outcome State Fault Refusal := .next (mailbox 0 s (s.mailPreempt 0 job crew))

/-- A command written to MBCMD (R429): its arguments are the doublewords of the argument page in the order in which R429 names them, a nonce 32 bytes
long and a descriptor the 64 bytes from byte 64 on (log entry 20). A device held in reset knows FWLOAD alone (R381). -/
def State.mailboxCommand (s : State) (m op : Nat) : State :=
  let base := (s.mod m).mbarg.toNat
  let arg (i : Nat) : Nat := s.physN (hostKey m (base + 8 * i)) 8
  let bytes (addr n : Nat) : List Nat := (s.hostBytes m addr n).map (·.toNat)
  mailbox m s <|
    if op != 1 && !(s.mod 0).fw then s.mailError m 1
    else match op with
    | 1 => s.fwload m (arg 0) (arg 1)
    | 2 => s.quote m (s.physN (hostKey m base) 32) (arg 4 % 2 ^ 32)
    | 3 => s.cert m
    | 4 => s.importBlob m (arg 0 % 2 ^ 32) (arg 1) (arg 2) (bytes (arg 3) (12 + arg 2 + 16))
    | 5 => s.exportBlob m (arg 0 % 2 ^ 32) (arg 1) (arg 2) (arg 3)
    | 6 => s.mailCtx m (arg 0) (arg 1) (arg 2) ((List.range 8).map fun i => arg (8 + i))
    | 7 => s.dbgset m (arg 0) (arg 1) (arg 2) (arg 3)
    | 8 => s.mailRelease m (arg 0) (arg 1) (arg 2)
    | 9 => s.unfence m (arg 0)
    | 10 => s.mailPreempt m (arg 0) (arg 1)
    | _ => s.mailError m 1

/-- REGISTER_WRITE (R426): a doubleword written by a context number of the die, or by the host (256), checked for its rights. Through BAR0 the host
reaches the die's housekeeping block alone (R424, R438), where MBCMD starts a command of the mailbox (R429). -/
def execRegisterWrite (d off val ctx : Nat) (s : State) : Host.Outcome State Fault Refusal :=
  if !s.isDie d || 256 < ctx then .next s
  else
    let u : Who := if ctx = 256 then hostWho else { gid := if ctx = 0 then 0 else ((s.die d).ctx ctx).gidOf, dk := d }
    if ctx = 256 && 0x1000000 ≤ off then .next s
    else if ctx = 256 && d % 4 = 0 && off / 8 * 8 = 0x38000 then .next (s.mailboxCommand (d / 4) (val % 256))
    else regEvent s (s.writeReg d (off / 8 * 8) 8 (val % 2 ^ 64) u)

/-! ## Host accesses (R424, R425) -/

/-- The module whose window of the HDM range holds a host address: the window that begins last at or below it, of equal ones the first module's
(log entry 43). -/
def State.windowOf (s : State) (addr : Nat) : Option Nat :=
  let base (m : Nat) : Nat := (s.die (4 * m)).hdmbase.toNat
  ((List.range (s.sys.mx * s.sys.my)).filter fun m => base m ≤ addr).foldl (fun best m => match best with
    | some b => if base b < base m then some m else best
    | none => some m) none

/-- Whether a frame that an access reaches is a darkroom context's (R377). -/
def State.darkFrame (s : State) (e : TlbEntry) (va n : Nat) : Bool :=
  (e.modules s).any fun m =>
    let k := memKey e.type m (e.pa va)
    s.sys.sealed.any fun x => x.lo < k + n && k < x.hi && s.liveCtxs.any fun c => c.dark && c.gidOf == x.gid

/-- A completion shown to the host: the bytes of a read, or none for an unsuccessful one. -/
def State.shown (s : State) (addr : Nat) (r : Option (List Byte)) : State := s.modSys fun y => { y with hostData := y.hostData ++ [(addr, r)] }

/-- A CXL.mem access of the host in the host-window context of the module whose window holds the address (R424), and whether it is over: it waits while
its page is ABSENT. A page that asks for promotion is served in place (R364); a darkroom context's frames are never reached (R377). -/
def State.tryHost (s : State) (addr : Nat) (w : Option (List Byte)) (n : Nat) : State × Bool :=
  match s.windowOf addr with
  | none => (s.shown addr none, true)
  | some m =>
    let d := s.die (4 * m)
    let c := d.ctx (d.hostCtx.toNat % 256)
    let va := addr - d.hdmbase.toNat
    let n := min n (65536 - va % 65536)
    let p := firmwareParty m c.gidOf
    let go (s : State) (e : TlbEntry) : State × Bool :=
      if s.darkFrame e va n then (s.shown addr none, true)
      else match s.accessLeaf p e va n (w.map fun bs => bs.take n) false with
        | (s, .wait _) => (s, false)
        | (s, .ok bs) => (if w.isSome then s else s.shown addr (some bs), true)
        | (s, .fail _) => (s.shown addr none, true)
    if c.dark || !c.valid || 2 ^ 48 ≤ va then (s.shown addr none, true)
    else match s.translate p.gid va p.cl with
      | (s, .hit e) | (s, .promote e) => go s e
      | (s, .absent) => (s, false)
      | (s, .fail _) => (s.shown addr none, true)

/-- Whether an access to the page of a host address is kept, of those that came before place n: accesses to one page stay in order. -/
def State.pageHeld (s : State) (n addr : Nat) : Bool := (s.sys.held.take n).any fun r => match r with
  | .write a _ => a / 65536 == addr / 65536
  | .read a _ => a / 65536 == addr / 65536
  | _ => false

/-! ## Ethernet (R430 to R433) -/

/-- The device mark of a code of the extension header, in the order in which R200 names the units. -/
def markOf (n : Nat) : Mark :=
  ([.none, .launch, .firmware, .distributor, .arrayAgent, .copyAgent, .queueCtl, .sync, .ni, .router, .ethernet, .queueReq] : List Mark).getD n .none

/-- A pair of the extension header: 0 for none, else 1 above a low part of n bits and a high part. -/
def extPair (n v : Nat) : Option (Nat × Nat) := if v = 0 then none else some ((v - 1) % 2 ^ n, (v - 1) / 2 ^ n)

/-- The messages of a packet: before each stand the four words of its extension header (R200), the GID, the device mark, the release pair (writer,
count) and the cluster and timestamp of its task; each message is whole, its length given by F (R195). The places in the extension header, which
the specification leaves open, are a DESIGN CHOICE (log entry 43). -/
def packetMsgs : Nat → List Nat → List Msg
  | 0, _ => []
  | fuel + 1, gid :: mark :: rel :: task :: h0 :: h1 :: h2 :: rest =>
    let n := 4 * (bits h0 57 55 + 1) - 3
    if rest.length < n then []
    else { h0 := word h0, h1 := word h1, h2 := word h2, pay := (rest.take n).map word, gid := gid, mark := markOf mark, release := extPair 28 rel
           run := (extPair 24 task).map fun x => (x.2, x.1) } :: packetMsgs fuel (rest.drop n)
  | _, _ => []

/-- FABRIC_PACKET_RECEIVE (R430): the number of a port, then a packet's words, 1 to 16 whole messages of one destination module, priority and channel,
which come by that port in fabric mode, go on through the mesh with the side band of the packet's extension header, and with every bit as it was
(R11). Any other packet is dropped. -/
def execFabricPacketReceive (packet : List Nat) (s : State) : Host.Outcome State Fault Refusal :=
  let port := packet.headD 0
  let words := packet.drop 1
  let ms := packetMsgs 17 words
  let total := (ms.map fun m => 7 + m.pay.length).foldl (· + ·) 0
  let same := ms.all fun m => s.moduleOf m.dst == s.moduleOf ((ms.headD {}).dst) && m.pri == (ms.headD {}).pri && m.ch == (ms.headD {}).ch
  if ms.isEmpty || 16 < ms.length || total != words.length || !same || s.receives port || s.sys.fencedLinks.contains port then .next s
  else .next (s.modSys fun y => { y with flight := y.flight ++ ms })

/-- A doubleword of a stream's table entry (R431). -/
def Stream.dw (x : Stream) (i : Nat) : Nat := (x.dws.getD i 0).toNat

def State.streamOf (s : State) (port idx : Nat) : Option Stream := (s.mod (port / 12)).streams.find? fun x => x.port == port && x.idx == idx
def State.setStream (s : State) (x : Stream) : State :=
  s.modMod (x.port / 12) fun m => { m with streams := m.streams.map fun y => if y.port = x.port && y.idx = x.idx then x else y }

/-- An entry of a port's stream table written (R431), 0 to 63, or the port's mode, 64: receive mode where the value is not 0. -/
def State.writePort (s : State) (port idx : Nat) (dws : List Word) : State :=
  s.modMod (port / 12) fun m =>
    if idx < 64 then { m with streams := { port := port, idx := idx, dws := dws } :: m.streams.filter fun x => !(x.port == port && x.idx == idx) }
    else if idx = 64 then { m with ports := putKey (·.1) (port, dws.headD 0 != 0) m.ports }
    else m

/-- The job of a stream (R431): the one of its number with a crew on the destination core, else the first of that number. -/
def State.streamJob (s : State) (x : Stream) : Option Job :=
  let named (j : Job) : Bool := j.num == bits (x.dw 1) 15 0
  match ((s.coreAt (bits (x.dw 1) 39 16)).crew.bind s.crewOf).bind fun w => s.jobOf w.job with
  | some j => if named j then some j else s.sys.jobs.find? named
  | none => s.sys.jobs.find? named

/-- The context that a stream lands in, its job's (R431); a GID that no context has where there is no such job. -/
def State.streamGid (s : State) (x : Stream) : Nat := ((s.streamJob x).map (·.gid)).getD (2 ^ 32)

/-- The packets missing below the highest received. -/
def Stream.missing (x : Stream) : List Nat :=
  (List.range ((x.highest + 2 ^ 16 - x.firstSn) % 2 ^ 16)).filter fun i => !x.seen.contains ((x.firstSn + i) % 2 ^ 16)

/-- A message of a stream (R432): event 0 a group, 1 a complete frame, 2 an incomplete one. The fields of a group are open in an end message. -/
def State.streamMsg (s : State) (x : Stream) (event : Nat) : State :=
  let free (i : Nat) : Nat := (Config.freeWord (s.draw + i)).toNat
  let dst := bits (x.dw 1) 39 16
  let g (v i n : Nat) : Nat := if event = 0 then v % 2 ^ n else free i % 2 ^ n
  let m : Msg :=
    { h0 := header0 0 0 0 2 false false (x.dw 2), h1 := header1 dst dst (bits (x.dw 1) 15 0), h2 := word (s.sys.now % 2 ^ 32)
      pay := [word (x.idx % 64 + x.frame % 2 ^ 32 * 2 ^ 32), word (g x.groupLine 0 16 + g x.group 1 16 * 2 ^ 16 + event * 2 ^ 32),
              word (if event = 0 then x.groupTime + (s.die (x.port / 12 * 4)).ptpoff.toNat else free 2), word (g x.groupAt 3 48),
              word (x.firstSn + x.highest * 2 ^ 16 + x.missing.length % 2 ^ 16 * 2 ^ 32)]
      gid := s.streamGid x, mark := .ethernet }
  let s := s.launchMsg m
  if event = 0 then s else s.drawn.drawn.drawn.drawn

/-- The loss bitmap of a stream's frame written to its ring, in the place of the frame's RTP timestamp mod 4 (R432). -/
def State.writeLoss (s : State) (x : Stream) : State × Res :=
  let miss := x.missing
  let big := 8191 < (x.highest + 2 ^ 16 - x.firstSn) % 2 ^ 16 + 1
  let v := (miss.filter (· < 8191)).foldl (fun v i => v + 2 ^ i) 0 + num big * 2 ^ 8191
  writeRange (s.streamGid x) (engineWalker (x.port / 12 * 4)) 2 s (bits (x.dw 5) 47 0 + 1024 * (x.frame % 4)) (bytesOfWord 1024 v)

/-- The group still open is sent (R432). -/
def State.closeGroup (s : State) (x : Stream) : State × Stream := if x.group = 0 then (s, x) else (s.streamMsg x 0, { x with group := 0 })

/-- The frame of a stream ends (R433): the group still open goes first, then the one end message. -/
def State.endFrame (s : State) (x : Stream) (event : Nat) : State :=
  let (s, x) := s.closeGroup x
  (s.streamMsg x event).setStream { x with live := false, ended := some x.frame, frames := x.frames + 1 }

/-- A stream with a packet counted (R432): its sequence number, the place where it lands, and the group that it belongs to, of which it may be the first
packet. A group of video counts lines, every other one packets. -/
def Stream.counted (x : Stream) (sn line at_ len now : Nat) : Stream :=
  let video := bits (x.dw 0) 49 48 = 0
  let d := (sn + 2 ^ 16 - x.highest) % 2 ^ 16
  let first := x.group = 0
  { x with
    seen := x.seen ++ [sn], highest := if d < 2 ^ 15 then sn else x.highest
    next := (at_ + len + 63) / 64 * 64
    groupLine := if first then (if video then line else x.seen.length) else x.groupLine
    groupTime := if first then now else x.groupTime
    groupAt := if first then at_ else x.groupAt
    group := if first then 1 else if video then max x.group (line - x.groupLine + 1) else x.group + 1 }

/-- A packet of a stream's present frame landed and counted (R431, R432): its samples, then the loss bitmap; not done while one of their pages is
not available, which is asked for (R364). A video packet of a line that the open group does not hold closes that group first: only then are all packets of its last line here. -/
def State.landPacket (s : State) (x : Stream) (sn marker place : Nat) (data : List Byte) : State × Bool :=
  let s0 := s
  let video := bits (x.dw 0) 49 48 = 0
  let most := max 1 (bits (x.dw 1) 47 40)
  let line := place / 2 ^ 32
  let at_ := if video then bits (x.dw 3) 47 0 + line * bits (x.dw 4) 31 0 + place % 2 ^ 32 else x.next
  let (s, x) := if video && !(x.groupLine ≤ line && line < x.groupLine + most) then s.closeGroup x else (s, x)
  let x := x.counted sn line at_ data.length s.sys.now
  let put (s : State) : State × Res := writeRange (s.streamGid x) (engineWalker (x.port / 12 * 4)) (pagesOf data.length) s at_ data
  match put s with
  | (_, .wait _) => ((put s0).1, false)
  | (s, _) => match s.writeLoss x with
    | (_, .wait _) => ((s0.writeLoss x).1, false)
    | (s, _) =>
      if marker % 2 = 1 then (s.endFrame x 1, true)
      else
        let (s, x) := if !video && most ≤ x.group then s.closeGroup x else (s, x)
        (s.setStream x, true)

/-- Whether a stream's frame is over its deadline by more than `slack` ns (R433). -/
def Stream.overdue (x : Stream) (now slack : Nat) : Bool :=
  x.live && x.dw 4 / 2 ^ 32 != 0 && x.first + 1000 * (x.dw 4 / 2 ^ 32) + slack ≤ now

/-- A packet of an ended frame, discarded and counted by its port (R433). -/
def State.dropPacket (s : State) (port : Nat) : State :=
  s.modMod (port / 12) fun m => { m with drops := putKey (·.1) (port, ((m.drops.find? fun d => d.1 == port).map (·.2)).getD 0 + 1) m.drops }

/-- An RTP packet of a stream tried (R431, R433), with its sequence number, timestamp and marker; `place` is its line (above bit 32) and byte
offset. A packet of an ended or earlier frame is discarded and counted; one that comes after the frame's deadline finds it ended. Not done while the
packet waits for a page. -/
def State.tryPacket (s : State) (port stream sn stamp marker place : Nat) (data : List Nat) : State × Bool :=
  let s := match s.streamOf port stream with
    | some x => if x.overdue s.sys.now 1 then s.endFrame x 2 else s
    | none => s
  match s.streamOf port stream with
  | none => (s, true)
  | some x =>
    let ts := stamp % 2 ^ 32
    let sn := sn % 2 ^ 16
    let bs := data.map fun b => BitVec.ofNat 8 b
    let later := (let d := (ts + 2 ^ 32 - x.frame) % 2 ^ 32; 1 ≤ d && d < 2 ^ 31)
    let start (s : State) (x : Stream) : State × Bool :=
      s.landPacket { x with live := true, frame := ts, first := s.sys.now, firstSn := sn, highest := sn, seen := [], group := 0
                            next := bits (x.dw 3) 47 0 } sn marker place bs
    if !bit (x.dw 0) 63 || !s.receives port then (s, true)
    else if x.live && ts = x.frame then s.landPacket x sn marker place bs
    else if x.live && later then
      let s := s.endFrame x 2
      match s.streamOf port stream with
      | some x => start s x
      | none => (s, true)
    else if x.live || (x.ended.isSome && !later) then (s.dropPacket port, true)
    else start s x

/-- Whether a packet of a stream is kept, of those that came before place n. -/
def State.packetHeld (s : State) (n port stream : Nat) : Bool := (s.sys.held.take n).any fun r => match r with
  | .packet p i _ _ _ _ _ => p == port && i == stream
  | _ => false

/-- ST2110_PACKET (R431, R433): a packet that waits for a page, or comes after one of its stream that does, is kept. -/
def execSt2110Packet (port stream sn stamp marker place : Nat) (data : List Nat) (s : State) : Host.Outcome State Fault Refusal :=
  let r : HostReq := .packet port stream sn stamp marker place data
  if s.packetHeld s.sys.held.length port stream then .next (s.hold r)
  else
    let t := s.tryPacket port stream sn stamp marker place data
    .next (if t.2 then t.1 else t.1.hold r)

/-- FRAME_DEADLINE (R433): first packet time + D. -/
def execFrameDeadline (port stream : Nat) (s : State) : Host.Outcome State Fault Refusal :=
  match s.streamOf port stream with
  | none => .next s
  | some x => .next (if x.overdue s.sys.now 0 then s.endFrame x 2 else s)

/-! ## What waits (R364, R424, R425) -/

/-- The oldest but n of what the host and the ports have brought and that waits is tried again. -/
def State.retryHost (s : State) (n : Nat) : State :=
  let gone (s : State) : State := s.modSys fun y => { y with held := y.held.eraseIdx n }
  let kept (t : State × Bool) : State := if t.2 then gone t.1 else t.1
  match s.sys.held[n]? with
  | none => s
  | some (.write a d) => if s.pageHeld n a then s else kept (s.tryHost a (some (d.map fun b => BitVec.ofNat 8 b)) d.length)
  | some (.read a k) => if s.pageHeld n a then s else kept (s.tryHost a none k)
  | some (.doorbell d q t) => if s.writesHeld n then s else match s.writeQueue d q 7 t hostWho with
    | .ok u _ => gone u
    | .wait u => gone u
    | .fail _ => gone s
  | some (.importBlob m g va len blob) => kept (s.tryImport m g va len blob)
  | some (.exportBlob m g va len out) => kept (s.tryExport m g va len out)
  | some (.packet p i sn ts mrk pl d) => if s.packetHeld n p i then s else kept (s.tryPacket p i sn ts mrk pl d)

/-- HOST_MEMORY_ACCESS (R424): 0 a CXL.mem read, whose completion the host is shown, 1 a CXL.mem write, 2 a write of the host to its own memory, where
the firmware image and the mailbox's arguments lie (R381, R429); 3 tries again what waits at place `addr`; 4 sets up an Ethernet port, 128 · port + entry
(R431). An access whose page is ABSENT waits. No more of the data counts than the page that the address lies in holds (log entry 43). -/
def execHostMemoryAccess (write addr : Nat) (data : List Nat) (s : State) : Host.Outcome State Fault Refusal :=
  let bs := data.map fun b => BitVec.ofNat 8 b
  if write = 3 then .next (s.retryHost addr)
  else if write = 4 then .next (s.writePort (addr / 128) (addr % 128) (toWords 8 (wordOfBytes bs)))
  else if write = 2 then .next (s.setPhys (hostKey 0 addr) bs)
  else
    let r : HostReq := if write = 0 then .read addr data.length else .write addr data
    let t := if s.pageHeld s.sys.held.length addr then (s, false) else s.tryHost addr (if write = 0 then none else some bs) data.length
    .next (if t.2 then t.1 else t.1.hold r)

/-- HOST_SNOOP (R424): answered as not holding the line; no state changes. -/
def execHostSnoop (_addr : Nat) (s : State) : Host.Outcome State Fault Refusal := .next s

/-! ## Reset and the alarm (R381, R383, R384, R434) -/

/-- Device reset: the state after reset, with the system's shape, its memories and what the outside world does next. What is encrypted stays so under
a key that is gone (R384). -/
def State.deviceReset (s : State) : State :=
  { State.reset with
    sys := { State.reset.sys with mx := s.sys.mx, my := s.sys.my, mem := s.sys.mem, poisonLines := s.sys.poisonLines, sealed := s.sys.sealed }
    inputs := s.inputs, draw := s.draw }

/-- DEVICE_RESET (R381). -/
def execDeviceReset (s : State) : Host.Outcome State Fault Refusal := .next s.deviceReset

/-- The level that a die's sensors raise together (R383, R434): sensor i, of voltage, clock, temperature, tamper mesh and any further one, raises the
level of bits 33:32 of its register, doubleword i + 1 of the alarm region, when its reading is above bits 31:0 (log entry 20); a junction temperature,
the first of the readings, above 105 °C raises level 1 and above 115 °C level 3. The highest counts. -/
def Die.alarmLevel (d : Die) (celsius : Nat) (readings : List Nat) : Nat :=
  let set (i : Nat) : Nat := ((d.alarmRegs.find? fun e => e.1 == i + 1).map fun e => e.2.toNat).getD 0
  let levels := readings.zipIdx.map fun r => if set r.2 % 2 ^ 32 < r.1 then bits (set r.2) 33 32 else 0
  levels.foldl max (if 115 < celsius then 3 else if 105 < celsius then 1 else 0)

/-- An alarm logged (R384, level 1): the ALARM bits of the level and of those below it, and the level and time in the log. -/
def State.logAlarm (s : State) (dk level : Nat) : State :=
  s.modDie dk fun d => { d with alarm := d.alarm ||| (2 ^ level - 1), alarmLog := d.alarmLog ++ [word level, word s.sys.now] }

/-- A strand that waits for the seal of a darkroom context is told of a level-2 alarm (R384). -/
def Strand.unsealedBy (t : Strand) : Strand := if t.waiting = .seal false then { t with waiting := .seal true } else t

/-- A level-2 alarm (R384): the crews of darkroom contexts are killed, their jobs end with SOFT_ERR 0x80, HALTED is set, the keys are erased; seals in
progress, imports and exports end. -/
def State.haltDark (s : State) : State :=
  let gids := ((s.liveCtxs.filter Ctx.dark).map Ctx.gidOf).eraseDups
  let jobs := (s.sys.jobs.filter fun j => gids.contains j.gid).map (·.id)
  let s := jobs.foldl (fun s j => s.killJob j 2 0x16 0x80) s
  let s := (s.cores.map Core.coord).foldl (fun s c => s.atCore c 0 fun s => s.modCore fun k => { k with strands := k.strands.map Strand.unsealedBy }) s
  let s := (List.range (s.sys.mx * s.sys.my)).foldl (fun s m =>
    let mine (r : HostReq) : Bool := match r with
      | .importBlob n .. => n == m
      | .exportBlob n .. => n == m
      | _ => false
    if s.sys.held.any mine then (s.modSys fun y => { y with held := y.held.filter fun r => !mine r }).mailError m 7 else s) s
  { s with dies := s.dies.map fun d => { d with ctxs := d.ctxs.map fun c =>
      if c.valid && c.dark then { c with halted := true, key := none, secret := none } else c } }

/-- An alarm at a level (R383, R384): the levels are cumulative. At level 3 the device is held in reset, its keys erased. -/
def State.raiseAlarm (s : State) (dk level : Nat) : State :=
  if level = 0 then s
  else
    let s := s.logAlarm dk level
    if level = 1 then s
    else
      let s := s.haltDark
      if level = 2 then s
      else
        let log := (s.die dk).alarmLog
        let a := (s.die dk).alarm
        (s.deviceReset.modDie dk fun d => { d with alarm := a, alarmLog := log }).modMod (dk / 4) fun m => { m with keyErased := true }

/-- SECURITY_ALARM (R383, R384, R434): what the sensors of a die read in one cycle: the die in bits 23:0, the junction temperature in bits 39:24, then
32 bits for each of 255 sensors (log entry 43). -/
def execSecurityAlarm (x : Nat) (s : State) : Host.Outcome State Fault Refusal :=
  let d := x % 2 ^ 24
  .next (if s.isDie d then s.raiseAlarm d ((s.die d).alarmLevel (bits x 39 24) (lanes 32 255 (x / 2 ^ 40))) else s)

/-! ## Fetch (R41, R53) -/

/-- UNASSIGNED_ENCODING (R41): ILLEGAL of a class, with the word, on every member of a gang. -/
def execUnassignedEncoding (w cls : Nat) (s : State) : Host.Outcome State Fault Refusal :=
  perform (fun s => .ill s cls) { s with ir := w }

/-- INSTRUCTION_FETCH_FAILED (R53, R410): COPY_ERR FETCH at the unfetched instruction, or SOFT_ERR (`why` 1). -/
def execInstructionFetchFailed (why : Nat) (s : State) : Host.Outcome State Fault Refusal :=
  let t : Trap := if why = 1 then { code := 0x16, addr := word s.st.pc } else { code := 0x0C, info := failInfo s.st.pc 0x0B 5, sub := 0x0B, addr := word s.st.pc }
  .next (s.trapMember t)

end Sys2Proof.Machine
end

