-- ==== Sys2Proof/Machine/Dispatch.lean ====
section
/-! DEFINITION. The dispatcher: one arm for each constructor of `Instr`, a direct call of its meaning. -/

namespace Sys2Proof.Machine

/-- What an instruction or event does to the state (R2 to R438, row by row of the opcode table). -/
def exec (i : Instr) (s : State) : Host.Outcome State Fault Refusal :=
  match i with
  | .br cond sense off => Sys2Proof.Machine.execBr cond sense off s
  | .call cond sense off => Sys2Proof.Machine.execCall cond sense off s
  | .jmp a g => Sys2Proof.Machine.execJmp a g s
  | .callr a g => Sys2Proof.Machine.execCallr a g s
  | .ret g => Sys2Proof.Machine.execRet g s
  | .loop d imm g => Sys2Proof.Machine.execLoop d imm g s
  | .exitEnd g => Sys2Proof.Machine.execExitEnd g s
  | .suspend a b g => Sys2Proof.Machine.execSuspend a b g s
  | .yield b g => Sys2Proof.Machine.execYield b g s
  | .trap imm g => Sys2Proof.Machine.execTrap imm g s
  | .rft g => Sys2Proof.Machine.execRft g s
  | .rftSkip g => Sys2Proof.Machine.execRftSkip g s
  | .sleep a g => Sys2Proof.Machine.execSleep a g s
  | .csrr d imm g => Sys2Proof.Machine.execCsrr d imm g s
  | .csrw a imm g => Sys2Proof.Machine.execCsrw a imm g s
  | .tlbinv a b g => Sys2Proof.Machine.execTlbinv a b g s
  | .tlbinvAll g => Sys2Proof.Machine.execTlbinvAll g s
  | .pgateS a g => Sys2Proof.Machine.execPgateS a g s
  | .pgateW a g => Sys2Proof.Machine.execPgateW a g s
  | .ctxload d a b g => Sys2Proof.Machine.execCtxload d a b g s
  | .ctxsave d a b g => Sys2Proof.Machine.execCtxsave d a b g s
  | .flagsGet d g => Sys2Proof.Machine.execFlagsGet d g s
  | .flagsClr a g => Sys2Proof.Machine.execFlagsClr a g s
  | .flagsSet a g => Sys2Proof.Machine.execFlagsSet a g s
  | .add d a b sz sgn g => Sys2Proof.Machine.execAdd d a b sz sgn g s
  | .sub d a b sz sgn g => Sys2Proof.Machine.execSub d a b sz sgn g s
  | .and d a b sz sgn g => Sys2Proof.Machine.execAnd d a b sz sgn g s
  | .or d a b sz sgn g => Sys2Proof.Machine.execOr d a b sz sgn g s
  | .xor d a b sz sgn g => Sys2Proof.Machine.execXor d a b sz sgn g s
  | .andn d a b sz sgn g => Sys2Proof.Machine.execAndn d a b sz sgn g s
  | .orn d a b sz sgn g => Sys2Proof.Machine.execOrn d a b sz sgn g s
  | .xnor d a b sz sgn g => Sys2Proof.Machine.execXnor d a b sz sgn g s
  | .shl d a b sz sgn g => Sys2Proof.Machine.execShl d a b sz sgn g s
  | .shr d a b sz sgn g => Sys2Proof.Machine.execShr d a b sz sgn g s
  | .sra d a b sz sgn g => Sys2Proof.Machine.execSra d a b sz sgn g s
  | .rol d a b sz sgn g => Sys2Proof.Machine.execRol d a b sz sgn g s
  | .ror d a b sz sgn g => Sys2Proof.Machine.execRor d a b sz sgn g s
  | .addi d a imm g => Sys2Proof.Machine.execAddi d a imm g s
  | .andi d a imm g => Sys2Proof.Machine.execAndi d a imm g s
  | .ori d a imm g => Sys2Proof.Machine.execOri d a imm g s
  | .xori d a imm g => Sys2Proof.Machine.execXori d a imm g s
  | .shli d a sh g => Sys2Proof.Machine.execShli d a sh g s
  | .shri d a sh g => Sys2Proof.Machine.execShri d a sh g s
  | .srai d a sh g => Sys2Proof.Machine.execSrai d a sh g s
  | .mul d a b sz sgn g => Sys2Proof.Machine.execMul d a b sz sgn g s
  | .mulh d a b sz sgn g => Sys2Proof.Machine.execMulh d a b sz sgn g s
  | .div d a b sz sgn g => Sys2Proof.Machine.execDiv d a b sz sgn g s
  | .rem d a b sz sgn g => Sys2Proof.Machine.execRem d a b sz sgn g s
  | .cmpEq p a b sz sgn g => Sys2Proof.Machine.execCmpEq p a b sz sgn g s
  | .cmpNe p a b sz sgn g => Sys2Proof.Machine.execCmpNe p a b sz sgn g s
  | .cmpLt p a b sz sgn g => Sys2Proof.Machine.execCmpLt p a b sz sgn g s
  | .cmpLe p a b sz sgn g => Sys2Proof.Machine.execCmpLe p a b sz sgn g s
  | .cmpGt p a b sz sgn g => Sys2Proof.Machine.execCmpGt p a b sz sgn g s
  | .cmpGe p a b sz sgn g => Sys2Proof.Machine.execCmpGe p a b sz sgn g s
  | .cmpiEq p a imm g => Sys2Proof.Machine.execCmpiEq p a imm g s
  | .cmpiNe p a imm g => Sys2Proof.Machine.execCmpiNe p a imm g s
  | .cmpiLtS64 p a imm g => Sys2Proof.Machine.execCmpiLtS64 p a imm g s
  | .cmpiLeS64 p a imm g => Sys2Proof.Machine.execCmpiLeS64 p a imm g s
  | .cmpiGtS64 p a imm g => Sys2Proof.Machine.execCmpiGtS64 p a imm g s
  | .cmpiGeS64 p a imm g => Sys2Proof.Machine.execCmpiGeS64 p a imm g s
  | .cmpiLtZ64 p a imm g => Sys2Proof.Machine.execCmpiLtZ64 p a imm g s
  | .cmpiGeZ64 p a imm g => Sys2Proof.Machine.execCmpiGeZ64 p a imm g s
  | .clz d a sz sgn g => Sys2Proof.Machine.execClz d a sz sgn g s
  | .ctz d a sz sgn g => Sys2Proof.Machine.execCtz d a sz sgn g s
  | .popc d a sz sgn g => Sys2Proof.Machine.execPopc d a sz sgn g s
  | .brev d a sz sgn g => Sys2Proof.Machine.execBrev d a sz sgn g s
  | .bswap d a sz sgn g => Sys2Proof.Machine.execBswap d a sz sgn g s
  | .sel d a b p g => Sys2Proof.Machine.execSel d a b p g s
  | .li d imm => Sys2Proof.Machine.execLi d imm s
  | .lui d imm => Sys2Proof.Machine.execLui d imm s
  | .adda d a b g => Sys2Proof.Machine.execAdda d a b g s
  | .addai d a imm g => Sys2Proof.Machine.execAddai d a imm g s
  | .ptrSet d a b g => Sys2Proof.Machine.execPtrSet d a b g s
  | .ptrGet d a g => Sys2Proof.Machine.execPtrGet d a g s
  | .ptrClr d a g => Sys2Proof.Machine.execPtrClr d a g s
  | .predAnd d a b g => Sys2Proof.Machine.execPredAnd d a b g s
  | .predOr d a b g => Sys2Proof.Machine.execPredOr d a b g s
  | .predXor d a b g => Sys2Proof.Machine.execPredXor d a b g s
  | .predAndn d a b g => Sys2Proof.Machine.execPredAndn d a b g s
  | .predNot d a g => Sys2Proof.Machine.execPredNot d a g s
  | .predFromg d a g => Sys2Proof.Machine.execPredFromg d a g s
  | .predTog d a g => Sys2Proof.Machine.execPredTog d a g s
  | .coordSelf d g => Sys2Proof.Machine.execCoordSelf d g s
  | .coordPack d a b g => Sys2Proof.Machine.execCoordPack d a b g s
  | .coordX d a g => Sys2Proof.Machine.execCoordX d a g s
  | .coordY d a g => Sys2Proof.Machine.execCoordY d a g s
  | .coordAdd d a b g => Sys2Proof.Machine.execCoordAdd d a b g s
  | .min d a b sz sgn g => Sys2Proof.Machine.execMin d a b sz sgn g s
  | .max d a b sz sgn g => Sys2Proof.Machine.execMax d a b sz sgn g s
  | .absd d a b sz sgn g => Sys2Proof.Machine.execAbsd d a b sz sgn g s
  | .muli d a imm g => Sys2Proof.Machine.execMuli d a imm g s
  | .fadd d a b fmt g => Sys2Proof.Machine.execFadd d a b fmt g s
  | .fsub d a b fmt g => Sys2Proof.Machine.execFsub d a b fmt g s
  | .fmul d a b fmt g => Sys2Proof.Machine.execFmul d a b fmt g s
  | .fdiv d a b fmt g => Sys2Proof.Machine.execFdiv d a b fmt g s
  | .fmin d a b fmt g => Sys2Proof.Machine.execFmin d a b fmt g s
  | .fmax d a b fmt g => Sys2Proof.Machine.execFmax d a b fmt g s
  | .fabs d a fmt g => Sys2Proof.Machine.execFabs d a fmt g s
  | .fneg d a fmt g => Sys2Proof.Machine.execFneg d a fmt g s
  | .fma d a b c g => Sys2Proof.Machine.execFma d a b c g s
  | .fms d a b c g => Sys2Proof.Machine.execFms d a b c g s
  | .fnma d a b c g => Sys2Proof.Machine.execFnma d a b c g s
  | .fnms d a b c g => Sys2Proof.Machine.execFnms d a b c g s
  | .fcmpEq p a b fmt g => Sys2Proof.Machine.execFcmpEq p a b fmt g s
  | .fcmpNe p a b fmt g => Sys2Proof.Machine.execFcmpNe p a b fmt g s
  | .fcmpLt p a b fmt g => Sys2Proof.Machine.execFcmpLt p a b fmt g s
  | .fcmpLe p a b fmt g => Sys2Proof.Machine.execFcmpLe p a b fmt g s
  | .fcmpUn p a b fmt g => Sys2Proof.Machine.execFcmpUn p a b fmt g s
  | .fsqrt d a g => Sys2Proof.Machine.execFsqrt d a g s
  | .rcp d a g => Sys2Proof.Machine.execRcp d a g s
  | .rsqrt d a g => Sys2Proof.Machine.execRsqrt d a g s
  | .exp2 d a g => Sys2Proof.Machine.execExp2 d a g s
  | .log2 d a g => Sys2Proof.Machine.execLog2 d a g s
  | .cvt d a t u g => Sys2Proof.Machine.execCvt d a t u g s
  | .cvto d a t u g => Sys2Proof.Machine.execCvto d a t u g s
  | .xacc a b fmt g => Sys2Proof.Machine.execXacc a b fmt g s
  | .xaccp a b fmt g => Sys2Proof.Machine.execXaccp a b fmt g s
  | .xrnd d a fmt g => Sys2Proof.Machine.execXrnd d a fmt g s
  | .xmrg a b g => Sys2Proof.Machine.execXmrg a b g s
  | .xclr a g => Sys2Proof.Machine.execXclr a g s
  | .fli d imm => Sys2Proof.Machine.execFli d imm s
  | .vadd d a b sz sgn g => Sys2Proof.Machine.execVadd d a b sz sgn g s
  | .vsub d a b sz sgn g => Sys2Proof.Machine.execVsub d a b sz sgn g s
  | .vand d a b sz sgn g => Sys2Proof.Machine.execVand d a b sz sgn g s
  | .vor d a b sz sgn g => Sys2Proof.Machine.execVor d a b sz sgn g s
  | .vxor d a b sz sgn g => Sys2Proof.Machine.execVxor d a b sz sgn g s
  | .vandn d a b sz sgn g => Sys2Proof.Machine.execVandn d a b sz sgn g s
  | .vorn d a b sz sgn g => Sys2Proof.Machine.execVorn d a b sz sgn g s
  | .vxnor d a b sz sgn g => Sys2Proof.Machine.execVxnor d a b sz sgn g s
  | .vshl d a b sz sgn g => Sys2Proof.Machine.execVshl d a b sz sgn g s
  | .vshr d a b sz sgn g => Sys2Proof.Machine.execVshr d a b sz sgn g s
  | .vsra d a b sz sgn g => Sys2Proof.Machine.execVsra d a b sz sgn g s
  | .vrol d a b sz sgn g => Sys2Proof.Machine.execVrol d a b sz sgn g s
  | .vror d a b sz sgn g => Sys2Proof.Machine.execVror d a b sz sgn g s
  | .vadds d a b sz sgn g => Sys2Proof.Machine.execVadds d a b sz sgn g s
  | .vsubs d a b sz sgn g => Sys2Proof.Machine.execVsubs d a b sz sgn g s
  | .vfadd d a b fmt g => Sys2Proof.Machine.execVfadd d a b fmt g s
  | .vfsub d a b fmt g => Sys2Proof.Machine.execVfsub d a b fmt g s
  | .vfmul d a b fmt g => Sys2Proof.Machine.execVfmul d a b fmt g s
  | .vfdiv d a b fmt g => Sys2Proof.Machine.execVfdiv d a b fmt g s
  | .vfmin d a b fmt g => Sys2Proof.Machine.execVfmin d a b fmt g s
  | .vfmax d a b fmt g => Sys2Proof.Machine.execVfmax d a b fmt g s
  | .vfabs d a fmt g => Sys2Proof.Machine.execVfabs d a fmt g s
  | .vfneg d a fmt g => Sys2Proof.Machine.execVfneg d a fmt g s
  | .vfma d a b c g => Sys2Proof.Machine.execVfma d a b c g s
  | .vfms d a b c g => Sys2Proof.Machine.execVfms d a b c g s
  | .vfnma d a b c g => Sys2Proof.Machine.execVfnma d a b c g s
  | .vfnms d a b c g => Sys2Proof.Machine.execVfnms d a b c g s
  | .vcmpEq d a b t g => Sys2Proof.Machine.execVcmpEq d a b t g s
  | .vcmpNe d a b t g => Sys2Proof.Machine.execVcmpNe d a b t g s
  | .vcmpLt d a b t g => Sys2Proof.Machine.execVcmpLt d a b t g s
  | .vcmpLe d a b t g => Sys2Proof.Machine.execVcmpLe d a b t g s
  | .vcmpLtz d a t g => Sys2Proof.Machine.execVcmpLtz d a t g s
  | .vcmpLez d a t g => Sys2Proof.Machine.execVcmpLez d a t g s
  | .vredSum d a t g => Sys2Proof.Machine.execVredSum d a t g s
  | .vredMin d a t g => Sys2Proof.Machine.execVredMin d a t g s
  | .vredMax d a t g => Sys2Proof.Machine.execVredMax d a t g s
  | .vredAnd d a t g => Sys2Proof.Machine.execVredAnd d a t g s
  | .vredOr d a t g => Sys2Proof.Machine.execVredOr d a t g s
  | .vredXor d a t g => Sys2Proof.Machine.execVredXor d a t g s
  | .vshuf d a b l g => Sys2Proof.Machine.execVshuf d a b l g s
  | .vrotl d a b l g => Sys2Proof.Machine.execVrotl d a b l g s
  | .vzip d a b l g => Sys2Proof.Machine.execVzip d a b l g s
  | .vunzip d a b l g => Sys2Proof.Machine.execVunzip d a b l g s
  | .vcvt d a k t u g => Sys2Proof.Machine.execVcvt d a k t u g s
  | .vcvto d a k t u g => Sys2Proof.Machine.execVcvto d a k t u g s
  | .vsel d a b l g => Sys2Proof.Machine.execVsel d a b l g s
  | .vdot d a b t g => Sys2Proof.Machine.execVdot d a b t g s
  | .vsplat d a l k g => Sys2Proof.Machine.execVsplat d a l k g s
  | .gang2 g => Sys2Proof.Machine.execGang2 g s
  | .gang4 g => Sys2Proof.Machine.execGang4 g s
  | .gang8 g => Sys2Proof.Machine.execGang8 g s
  | .disband g => Sys2Proof.Machine.execDisband g s
  | .ngetG d a b g => Sys2Proof.Machine.execNgetG d a b g s
  | .ngetS d a b g => Sys2Proof.Machine.execNgetS d a b g s
  | .nput d a b g => Sys2Proof.Machine.execNput d a b g s
  | .ld d a off sz z g => Sys2Proof.Machine.execLd d a off sz z g s
  | .st d a off sz g => Sys2Proof.Machine.execSt d a off sz g s
  | .ldw d a off g => Sys2Proof.Machine.execLdw d a off g s
  | .stw d a off g => Sys2Proof.Machine.execStw d a off g s
  | .ldx d a b sz sgn sc g => Sys2Proof.Machine.execLdx d a b sz sgn sc g s
  | .stx d a b sz sc g => Sys2Proof.Machine.execStx d a b sz sc g s
  | .gld d a off sz z g => Sys2Proof.Machine.execGld d a off sz z g s
  | .gst d a off sz g => Sys2Proof.Machine.execGst d a off sz g s
  | .pref a off g => Sys2Proof.Machine.execPref a off g s
  | .prefTier a off g => Sys2Proof.Machine.execPrefTier a off g s
  | .cpy cv n a b g => Sys2Proof.Machine.execCpy cv n a b g s
  | .cpyArm cv n b t g => Sys2Proof.Machine.execCpyArm cv n b t g s
  | .wait nl ns nc nt nm g => Sys2Proof.Machine.execWait nl ns nc nt nm g s
  | .fence a g => Sys2Proof.Machine.execFence a g s
  | .owner d a b g => Sys2Proof.Machine.execOwner d a b g s
  | .send pri ch fl h d kind g => Sys2Proof.Machine.execSend pri ch fl h d kind g s
  | .sendm pri ch fl h d kind g => Sys2Proof.Machine.execSendm pri ch fl h d kind g s
  | .reply fl h g => Sys2Proof.Machine.execReply fl h g s
  | .rst d a b sz g => Sys2Proof.Machine.execRst d a b sz g s
  | .rld d a b sz sgn g => Sys2Proof.Machine.execRld d a b sz sgn g s
  | .ramoAdd d a b sz sgn g => Sys2Proof.Machine.execRamoAdd d a b sz sgn g s
  | .ramoMin d a b sz sgn g => Sys2Proof.Machine.execRamoMin d a b sz sgn g s
  | .ramoMax d a b sz sgn g => Sys2Proof.Machine.execRamoMax d a b sz sgn g s
  | .ramoAnd d a b sz sgn g => Sys2Proof.Machine.execRamoAnd d a b sz sgn g s
  | .ramoOr d a b sz sgn g => Sys2Proof.Machine.execRamoOr d a b sz sgn g s
  | .ramoXor d a b sz sgn g => Sys2Proof.Machine.execRamoXor d a b sz sgn g s
  | .ramoSwap d a b sz sgn g => Sys2Proof.Machine.execRamoSwap d a b sz sgn g s
  | .ramoFadd d a b g => Sys2Proof.Machine.execRamoFadd d a b g s
  | .msgPorch d g => Sys2Proof.Machine.execMsgPorch d g s
  | .msgLen d g => Sys2Proof.Machine.execMsgLen d g s
  | .msgSkip g => Sys2Proof.Machine.execMsgSkip g s
  | .qenq a b g => Sys2Proof.Machine.execQenq a b g s
  | .qenqR d a b g => Sys2Proof.Machine.execQenqR d a b g s
  | .qclaim d a p g => Sys2Proof.Machine.execQclaim d a p g s
  | .qpub a b g => Sys2Proof.Machine.execQpub a b g s
  | .qstat d a g => Sys2Proof.Machine.execQstat d a g s
  | .qfreeze a g => Sys2Proof.Machine.execQfreeze a g s
  | .qthaw a g => Sys2Proof.Machine.execQthaw a g s
  | .qskip d a g => Sys2Proof.Machine.execQskip d a g s
  | .amoAdd d a b sz g => Sys2Proof.Machine.execAmoAdd d a b sz g s
  | .amoMin d a b sz g => Sys2Proof.Machine.execAmoMin d a b sz g s
  | .amoMax d a b sz g => Sys2Proof.Machine.execAmoMax d a b sz g s
  | .amoMinz d a b sz g => Sys2Proof.Machine.execAmoMinz d a b sz g s
  | .amoMaxz d a b sz g => Sys2Proof.Machine.execAmoMaxz d a b sz g s
  | .amoAnd d a b sz g => Sys2Proof.Machine.execAmoAnd d a b sz g s
  | .amoOr d a b sz g => Sys2Proof.Machine.execAmoOr d a b sz g s
  | .amoXor d a b sz g => Sys2Proof.Machine.execAmoXor d a b sz g s
  | .amoSwap d a b sz g => Sys2Proof.Machine.execAmoSwap d a b sz g s
  | .amocas d a b c sz g => Sys2Proof.Machine.execAmocas d a b c sz g s
  | .famoFaddx d a b fmt g => Sys2Proof.Machine.execFamoFaddx d a b fmt g s
  | .famoFmin d a b fmt g => Sys2Proof.Machine.execFamoFmin d a b fmt g s
  | .famoFmax d a b fmt g => Sys2Proof.Machine.execFamoFmax d a b fmt g s
  | .famoFrdx d a b fmt g => Sys2Proof.Machine.execFamoFrdx d a b fmt g s
  | .redAdd a b sz g => Sys2Proof.Machine.execRedAdd a b sz g s
  | .redMin a b sz g => Sys2Proof.Machine.execRedMin a b sz g s
  | .redMax a b sz g => Sys2Proof.Machine.execRedMax a b sz g s
  | .redMinz a b sz g => Sys2Proof.Machine.execRedMinz a b sz g s
  | .redMaxz a b sz g => Sys2Proof.Machine.execRedMaxz a b sz g s
  | .redAnd a b sz g => Sys2Proof.Machine.execRedAnd a b sz g s
  | .redOr a b sz g => Sys2Proof.Machine.execRedOr a b sz g s
  | .redXor a b sz g => Sys2Proof.Machine.execRedXor a b sz g s
  | .redFaddx a b fmt g => Sys2Proof.Machine.execRedFaddx a b fmt g s
  | .redFmin a b fmt g => Sys2Proof.Machine.execRedFmin a b fmt g s
  | .redFmax a b fmt g => Sys2Proof.Machine.execRedFmax a b fmt g s
  | .barArr d a g => Sys2Proof.Machine.execBarArr d a g s
  | .barDrop d a g => Sys2Proof.Machine.execBarDrop d a g s
  | .barWait a b g => Sys2Proof.Machine.execBarWait a b g s
  | .barTest p a b g => Sys2Proof.Machine.execBarTest p a b g s
  | .tspawn d a b g => Sys2Proof.Machine.execTspawn d a b g s
  | .taskGvt d g => Sys2Proof.Machine.execTaskGvt d g s
  | .taskTs d g => Sys2Proof.Machine.execTaskTs d g s
  | .mxma a b batch acc g => Sys2Proof.Machine.execMxma a b batch acc g s
  | .mxmaZ a b batch acc g => Sys2Proof.Machine.execMxmaZ a b batch acc g s
  | .mxmas a b batch acc g => Sys2Proof.Machine.execMxmas a b batch acc g s
  | .mxmasZ a b batch acc g => Sys2Proof.Machine.execMxmasZ a b batch acc g s
  | .mxmt a b batch acc g => Sys2Proof.Machine.execMxmt a b batch acc g s
  | .mxmtZ a b batch acc g => Sys2Proof.Machine.execMxmtZ a b batch acc g s
  | .lease g => Sys2Proof.Machine.execLease g s
  | .unlease g => Sys2Proof.Machine.execUnlease g s
  | .mxwaitb batch g => Sys2Proof.Machine.execMxwaitb batch g s
  | .tld t b g => Sys2Proof.Machine.execTld t b g s
  | .tst t b g => Sys2Proof.Machine.execTst t b g s
  | .tzero t g => Sys2Proof.Machine.execTzero t g s
  | .twaitc t g => Sys2Proof.Machine.execTwaitc t g s
  | .qnt t b g => Sys2Proof.Machine.execQnt t b g s
  | .dqnt t b g => Sys2Proof.Machine.execDqnt t b g s
  | .isect a b g => Sys2Proof.Machine.execIsect a b g s
  | .part a b g => Sys2Proof.Machine.execPart a b g s
  | .bmpackP a b g => Sys2Proof.Machine.execBmpackP a b g s
  | .bmpackX a b g => Sys2Proof.Machine.execBmpackX a b g s
  | .bmpackC a b g => Sys2Proof.Machine.execBmpackC a b g s
  | .bmpackCt a b g => Sys2Proof.Machine.execBmpackCt a b g s
  | .prune a b m g => Sys2Proof.Machine.execPrune a b m g s
  | .msearch a b g => Sys2Proof.Machine.execMsearch a b g s
  | .apass a g => Sys2Proof.Machine.execApass a g s
  | .asub a b g => Sys2Proof.Machine.execAsub a b g s
  | .asubNd a b g => Sys2Proof.Machine.execAsubNd a b g s
  | .aunsub a b g => Sys2Proof.Machine.execAunsub a b g s
  | .trayput a b g => Sys2Proof.Machine.execTrayput a b g s
  | .trayget a b g => Sys2Proof.Machine.execTrayget a b g s
  | .aclose a g => Sys2Proof.Machine.execAclose a g s
  | .trec a g => Sys2Proof.Machine.execTrec a g s
  | .tend g => Sys2Proof.Machine.execTend g s
  | .treplay a b g => Sys2Proof.Machine.execTreplay a b g s
  | .tpatchA a g => Sys2Proof.Machine.execTpatchA a g s
  | .tpatchB a g => Sys2Proof.Machine.execTpatchB a g s
  | .tpatchE a b g => Sys2Proof.Machine.execTpatchE a b g s
  | .tguard a b g => Sys2Proof.Machine.execTguard a b g s
  | .tguardEarly a b g => Sys2Proof.Machine.execTguardEarly a b g s
  | .eset idx a eng g => Sys2Proof.Machine.execEset idx a eng g s
  | .trace a g => Sys2Proof.Machine.execTrace a g s
  | .mark a b g => Sys2Proof.Machine.execMark a b g s
  | .dbgSet slot a b g => Sys2Proof.Machine.execDbgSet slot a b g s
  | .dbgClr slot g => Sys2Proof.Machine.execDbgClr slot g s
  | .dbgRd d h slot g => Sys2Proof.Machine.execDbgRd d h slot g s
  | .messageDelivery m => Sys2Proof.Machine.execMessageDelivery m s
  | .routerBounce m => Sys2Proof.Machine.execRouterBounce m s
  | .remoteStore m => Sys2Proof.Machine.execRemoteStore m s
  | .instructionStoreWrite m => Sys2Proof.Machine.execInstructionStoreWrite m s
  | .remoteLoad m => Sys2Proof.Machine.execRemoteLoad m s
  | .remoteAtomic m => Sys2Proof.Machine.execRemoteAtomic m s
  | .completionReply m => Sys2Proof.Machine.execCompletionReply m s
  | .handlerReply m => Sys2Proof.Machine.execHandlerReply m s
  | .bounceReceive m => Sys2Proof.Machine.execBounceReceive m s
  | .engineCommandHandoff m => Sys2Proof.Machine.execEngineCommandHandoff m s
  | .startMessage m => Sys2Proof.Machine.execStartMessage m s
  | .preemptMessage m => Sys2Proof.Machine.execPreemptMessage m s
  | .faultMessage m => Sys2Proof.Machine.execFaultMessage m s
  | .freezeMessage m => Sys2Proof.Machine.execFreezeMessage m s
  | .dispatch c => Sys2Proof.Machine.execDispatch c s
  | .cellarDrain c => Sys2Proof.Machine.execCellarDrain c s
  | .messageInject c => Sys2Proof.Machine.execMessageInject c s
  | .runQueuePoll c => Sys2Proof.Machine.execRunQueuePoll c s
  | .taskRequest c => Sys2Proof.Machine.execTaskRequest c s
  | .taskSpawnAccept c k id => Sys2Proof.Machine.execTaskSpawnAccept c k id s
  | .spawnRetry c k id => Sys2Proof.Machine.execSpawnRetry c k id s
  | .gvtEpoch => Sys2Proof.Machine.execGvtEpoch s
  | .versionedAccess c k id => Sys2Proof.Machine.execVersionedAccess c k id s
  | .deferredTrapTaken c k => Sys2Proof.Machine.execDeferredTrapTaken c k s
  | .faultBufferRetry d => Sys2Proof.Machine.execFaultBufferRetry d s
  | .breakpointClaim c k => Sys2Proof.Machine.execBreakpointClaim c k s
  | .globalAccessComplete c k id => Sys2Proof.Machine.execGlobalAccessComplete c k id s
  | .copyPiece c k id => Sys2Proof.Machine.execCopyPiece c k id s
  | .armedCopyStart c k id => Sys2Proof.Machine.execArmedCopyStart c k id s
  | .tileCommandComplete c k id => Sys2Proof.Machine.execTileCommandComplete c k id s
  | .leaseGrant cl => Sys2Proof.Machine.execLeaseGrant cl s
  | .leaseRunEnd cl => Sys2Proof.Machine.execLeaseRunEnd cl s
  | .matrixStepExecute cl => Sys2Proof.Machine.execMatrixStepExecute cl s
  | .matrixStepComplete cl => Sys2Proof.Machine.execMatrixStepComplete cl s
  | .arrayAgentRequest m => Sys2Proof.Machine.execArrayAgentRequest m s
  | .arrayAgentReply cl => Sys2Proof.Machine.execArrayAgentReply cl s
  | .copyAgentRequest m => Sys2Proof.Machine.execCopyAgentRequest m s
  | .copyAgentReply cl => Sys2Proof.Machine.execCopyAgentReply cl s
  | .quantiseComplete c k id => Sys2Proof.Machine.execQuantiseComplete c k id s
  | .indexCommandComplete c k id => Sys2Proof.Machine.execIndexCommandComplete c k id s
  | .queueControllerRequest m => Sys2Proof.Machine.execQueueControllerRequest m s
  | .qenqRetry c k => Sys2Proof.Machine.execQenqRetry c k s
  | .syncAccessPerformed c k id => Sys2Proof.Machine.execSyncAccessPerformed c k id s
  | .barrierArrival c k id => Sys2Proof.Machine.execBarrierArrival c k id s
  | .ngetRetry c k => Sys2Proof.Machine.execNgetRetry c k s
  | .ngetTimeout c k => Sys2Proof.Machine.execNgetTimeout c k s
  | .gangTimeout c k => Sys2Proof.Machine.execGangTimeout c k s
  | .sleepWake c k => Sys2Proof.Machine.execSleepWake c k s
  | .passOpen c k id => Sys2Proof.Machine.execPassOpen c k id s
  | .passWindowExpiry d n => Sys2Proof.Machine.execPassWindowExpiry d n s
  | .heldSubscriptionJoin d n => Sys2Proof.Machine.execHeldSubscriptionJoin d n s
  | .pageDeliveryBegin d n => Sys2Proof.Machine.execPageDeliveryBegin d n s
  | .pageReady d n => Sys2Proof.Machine.execPageReady d n s
  | .traygetComplete c k id => Sys2Proof.Machine.execTraygetComplete c k id s
  | .acloseComplete c k id => Sys2Proof.Machine.execAcloseComplete c k id s
  | .launchClaim => Sys2Proof.Machine.execLaunchClaim s
  | .launchPlace n => Sys2Proof.Machine.execLaunchPlace n s
  | .launchAged n => Sys2Proof.Machine.execLaunchAged n s
  | .crewComplete n => Sys2Proof.Machine.execCrewComplete n s
  | .crewResume n => Sys2Proof.Machine.execCrewResume n s
  | .watchdogPreemptRequest n => Sys2Proof.Machine.execWatchdogPreemptRequest n s
  | .watchdogKill n => Sys2Proof.Machine.execWatchdogKill n s
  | .watchdogFence n => Sys2Proof.Machine.execWatchdogFence n s
  | .replayEntry c k => Sys2Proof.Machine.execReplayEntry c k s
  | .tlbinvComplete c k => Sys2Proof.Machine.execTlbinvComplete c k s
  | .pageWalkComplete c k id => Sys2Proof.Machine.execPageWalkComplete c k id s
  | .absentWalkRetry c k id => Sys2Proof.Machine.execAbsentWalkRetry c k id s
  | .tierDemotion t => Sys2Proof.Machine.execTierDemotion t s
  | .tierPromotion c k id => Sys2Proof.Machine.execTierPromotion c k id s
  | .pageMoveComplete n => Sys2Proof.Machine.execPageMoveComplete n s
  | .relockEnd d => Sys2Proof.Machine.execRelockEnd d s
  | .powerLimitStep d watts => Sys2Proof.Machine.execPowerLimitStep d watts s
  | .bankWakeComplete c => Sys2Proof.Machine.execBankWakeComplete c s
  | .monitorSample d => Sys2Proof.Machine.execMonitorSample d s
  | .scrub unit loc => Sys2Proof.Machine.execScrub unit loc s
  | .flitReplay link fails => Sys2Proof.Machine.execFlitReplay link fails s
  | .moduleFailure m => Sys2Proof.Machine.execModuleFailure m s
  | .keepaliveSend => Sys2Proof.Machine.execKeepaliveSend s
  | .timeFlitExchange adj => Sys2Proof.Machine.execTimeFlitExchange adj s
  | .fabricPacketReceive words => Sys2Proof.Machine.execFabricPacketReceive words s
  | .st2110Packet port stream sn stamp marker place data => Sys2Proof.Machine.execSt2110Packet port stream sn stamp marker place data s
  | .frameDeadline port stream => Sys2Proof.Machine.execFrameDeadline port stream s
  | .ageingUpdate d words => Sys2Proof.Machine.execAgeingUpdate d words s
  | .securityAlarm level => Sys2Proof.Machine.execSecurityAlarm level s
  | .deviceReset => Sys2Proof.Machine.execDeviceReset s
  | .hostMemoryAccess write addr data => Sys2Proof.Machine.execHostMemoryAccess write addr data s
  | .hostSnoop addr => Sys2Proof.Machine.execHostSnoop addr s
  | .doorbell d q ticket => Sys2Proof.Machine.execDoorbell d q ticket s
  | .queueCreate d q val => Sys2Proof.Machine.execQueueCreate d q val s
  | .queueDestroy d q => Sys2Proof.Machine.execQueueDestroy d q s
  | .senderTableClear c => Sys2Proof.Machine.execSenderTableClear c s
  | .traceSessionOpen d n val => Sys2Proof.Machine.execTraceSessionOpen d n val s
  | .traceSessionClose d n => Sys2Proof.Machine.execTraceSessionClose d n s
  | .monitorEnable d n val => Sys2Proof.Machine.execMonitorEnable d n val s
  | .tapeDirectoryWrite d n dw val => Sys2Proof.Machine.execTapeDirectoryWrite d n dw val s
  | .faultRouteWrite d n val => Sys2Proof.Machine.execFaultRouteWrite d n val s
  | .timeset val => Sys2Proof.Machine.execTimeset val s
  | .ftarget d val => Sys2Proof.Machine.execFtarget d val s
  | .thaw c ctx => Sys2Proof.Machine.execThaw c ctx s
  | .freeze c ctx => Sys2Proof.Machine.execFreeze c ctx s
  | .resume c k skip ctx => Sys2Proof.Machine.execResume c k skip ctx s
  | .restart c k ctx => Sys2Proof.Machine.execRestart c k ctx s
  | .discard c k ctx => Sys2Proof.Machine.execDiscard c k ctx s
  | .corePreempt c ctx => Sys2Proof.Machine.execCorePreempt c ctx s
  | .kill c ctx => Sys2Proof.Machine.execKill c ctx s
  | .fwload addr len => Sys2Proof.Machine.execFwload addr len s
  | .quote nonce gid => Sys2Proof.Machine.execQuote nonce gid s
  | .cert => Sys2Proof.Machine.execCert s
  | .importBlob gid va len blob => Sys2Proof.Machine.execImportBlob gid va len blob s
  | .exportBlob gid va len => Sys2Proof.Machine.execExportBlob gid va len s
  | .mailboxCtx load n d words => Sys2Proof.Machine.execMailboxCtx load n d words s
  | .dbgset job slot pc task => Sys2Proof.Machine.execDbgset job slot pc task s
  | .release q ticket killed => Sys2Proof.Machine.execRelease q ticket killed s
  | .unfence c => Sys2Proof.Machine.execUnfence c s
  | .mailboxPreempt job crew => Sys2Proof.Machine.execMailboxPreempt job crew s
  | .registerWrite d off val ctx => Sys2Proof.Machine.execRegisterWrite d off val ctx s
  | .unassignedEncoding w cls => Sys2Proof.Machine.execUnassignedEncoding w cls s
  | .instructionFetchFailed why => Sys2Proof.Machine.execInstructionFetchFailed why s

end Sys2Proof.Machine
end

