-- ==== Sys2Proof/Machine/Fetch.lean ====
section
/-! DEFINITION. Instruction fetch (R53, R241, R355): resident code from the instruction store, mapped code through the instruction TLB and
the instruction cache. -/

namespace Sys2Proof.Machine

/-- How a fetch ends: a word, a failure (R53: 0 FETCH, 1 an uncorrectable error), or a wait for a page. -/
inductive Fetched where
  | word (w : Nat)
  | fail (why : Nat)
  | wait

/-- The leaf of an instruction address: the instruction TLB, else a translation that fills it. -/
def State.codeLeaf (s : State) (pc : Nat) : State × Xlat :=
  match s.core.itlb.find? fun e => e.covers s.gid pc with
  | some e => (s, .hit e)
  | none => match s.translate s.gid pc s.cl with
    | (s, .hit e) => (s.modCore fun c => { c with itlb := (e :: c.itlb).take 32 }, .hit e)
    | r => r

/-- A word of mapped code: until a TLBINV of its page, a word fetched before may be returned as it was (R241). -/
def State.cachedWord (s : State) (pc now : Nat) : State × Fetched :=
  match s.core.icache.find? fun x => x.1 == pc with
  | none => (s.modCore fun c => { c with icache := (pc, now) :: c.icache }, .word now)
  | some (_, old) =>
    if old = now then (s, .word now)
    else if Config.freeBit s.draw then (s.drawn, .word old)
    else (s.drawn.modCore fun c => { c with icache := (pc, now) :: c.icache.filter fun x => x.1 != pc }, .word now)

/-- The instruction word at the focused strand's pc. -/
def State.fetch (s : State) : State × Fetched :=
  let pc := s.st.pc
  if !((s.crew.map (·.mapped)).getD false) then
    if 0x8000 ≤ pc then (s, .fail 0)
    else if s.core.badCode.contains (pc / 4) then (s, .fail 1)
    else (s, .word (s.core.istore.rdN pc 4))
  else match s.codeLeaf pc with
    | (s, .fail _) => (s, .fail 0)
    | (s, .absent) => (s, .wait)
    | (s, .promote _) => (s, .wait)
    | (s, .hit e) =>
      if !e.x || 4 ≤ e.type then (s, .fail 0)
      else match s.readFrame e (e.readHome s (s.cl / 144)) pc 4 with
        | some bs => s.cachedWord pc (wordOfBytes bs)
        | none => (s, .fail 1)

end Sys2Proof.Machine
end

