-- ==== Sys2Proof/Machine/Schedule.lean ====
section
/-! DEFINITION. What may happen next: the strand that each core issues from (R305), the strands that wait for a condition (R8), and the events that
the units of the machine may perform. Which of them happens is a free choice (log entry 1); an event that turns out not to be ready leaves
the state as it is. Also the passing of time (log entry 9). -/

namespace Sys2Proof.Machine

/-- What a step does. -/
inductive Turn where
  | strand (c k : Nat)
  | event (i : Instr)
  | input
  | idle
  deriving DecidableEq

/-! ## Strands (R8, R146, R305) -/

/-- Whether the core of a coordinate is stopped by a relock of its die (R341). -/
def State.stopped (s : State) (c : Core) : Bool := (s.die (s.dieKey c.coord)).relock.isSome

/-- Whether an aged strand in RUN of a core has waited longer than strand k there, which it goes before (R305). -/
def Core.outranked (c : Core) (k : Nat) : Bool :=
  let age (j : Nat) : Nat := (vget c.strands j {}).age
  (List.range 16).any fun j =>
    let t := vget c.strands j {}
    j != k && t.life == .run && t.csr.gangSize == 0 && 64 ≤ t.age && (age k < age j || (age k == age j && j < k))

/-- Whether the members of a gang led from core c can all act: each RUN or WAIT, and none stopped or about to park, nor is any of them behind an aged
strand of its core. -/
def State.ganged (s : State) (c : Core) (t : Strand) (k : Nat) : Bool :=
  t.csr.gangSize == 0 || (t.csr.gangPos == 0 && (List.range t.csr.gangSize).all fun i =>
    let d := s.coreAt (pack (c.x + i) c.y)
    let u := vget d.strands k {}
    (u.life == .run || u.life == .wait) && u.csr.gangSize == t.csr.gangSize && !s.stopped d && !d.parking && (i == 0 || !d.outranked k))

/-- Whether strand k of a core executes instructions of its own: it is RUN or WAIT, drives no print (R329), has no deferred trap (R277), and
leads its gang, and its core is not about to park (R322). A strand with a BREAK to take waits for no gang and no print. -/
def State.mayAct (s : State) (c : Core) (k : Nat) : Bool :=
  let t := vget c.strands k {}
  (t.life == .run || t.life == .wait) && !c.parking && !((t.task.map fun r => r.deferred.isSome).getD false)
    && (t.stop.isSome || (s.ganged c t k && !((s.printOf c).isSome && c.tape.driver == k && !c.tape.fin)))

/-- Whether strand k of a core waits for the page of its next instruction (R53): it is in RUN, but its instruction cannot issue. -/
def State.fetchWaits (s : State) (c : Core) (k : Nat) : Bool :=
  let t := s.focus c.coord k
  (t.crew.map (·.mapped)).getD false && t.st.stop.isNone && match t.fetch.2 with
    | .wait => true
    | _ => false

/-- The RUN strand that a core issues from (R305): the aged one that has waited longest, else the first after the last in cyclic order. A strand
that waits for its instruction's page is not eligible; one whose instruction turns out to stall goes to WAIT, and its turn is no issue. -/
def State.issuer (s : State) (c : Core) : Option Nat :=
  let run := (List.range 16).filter fun k => (vget c.strands k {}).life == .run && s.mayAct c k && !s.fetchWaits c k
  let age (k : Nat) : Nat := (vget c.strands k {}).age
  let aged := run.filter fun k => 64 ≤ age k
  match aged.foldl (fun m k => match m with
      | some j => if age j < age k then some k else m
      | none => some k) none with
  | some k => some k
  | none => (run.find? fun k => c.last < k).or run.head?

/-- The strands of a core that have a turn now: the one it issues from, each in WAIT, whose turn is to see whether what it waits for holds (R8),
and each that waits for a page of code. -/
def State.strandTurns (s : State) (c : Core) : List Turn :=
  if s.stopped c then []
  else ((s.issuer c).toList ++ (List.range 16).filter fun k =>
    s.mayAct c k && ((vget c.strands k {}).life == .wait || ((vget c.strands k {}).life == .run && s.fetchWaits c k))).map fun k => .strand c.coord k

/-! ## Events -/

/-- The event that message m of the flight calls for. -/
noncomputable def State.messageEvent (s : State) (m : Nat) (x : Msg) : Instr :=
  if !s.inMesh x.dst then .routerBounce m
  else match x.kind with
    | 0 => .messageDelivery m
    | 1 => if bit x.target 47 then .instructionStoreWrite m else .remoteStore m
    | 2 => .remoteLoad m
    | 3 => if !bit x.target 0 then .handlerReply m else if bits x.target 3 1 = 4 then .bounceReceive m else .completionReply m
    | 4 => .remoteAtomic m
    | 5 => .messageDelivery m
    | 6 =>
      if x.target = 1 then .arrayAgentRequest m
      else if x.target = 3 then .copyAgentRequest m
      else if x.target = 2 && s.dieCorner (s.dieKey x.dst) = x.dst then .queueControllerRequest m
      else .engineCommandHandoff m
    | _ => match x.sub with
      | 0 => .startMessage m
      | 1 => .preemptMessage m
      | 2 => .freezeMessage m
      | _ => .faultMessage m

/-- The events that an operation of strand k of core c waits for. -/
noncomputable def State.opEvents (s : State) (c k : Nat) (o : Op) : List Instr :=
  match o.kind with
  | .gld | .gst =>
    if o.started then []
    else if ((s.focus c k).cached (o.a.toNat % 2 ^ 48)).isNone && bits o.a.toNat 53 48 = 0 then
      (if o.absentAt = 0 then [.pageWalkComplete c k o.id] else [.absentWalkRetry c k o.id])
    else [.globalAccessComplete c k o.id, .versionedAccess c k o.id, .syncAccessPerformed c k o.id]
  | .copy => [.copyPiece c k o.id]
  | .armed => [.armedCopyStart c k o.id, .copyPiece c k o.id]
  | .tld | .tst | .tzero => [.tileCommandComplete c k o.id]
  | .qnt | .dqnt => [.quantiseComplete c k o.id]
  | .isect | .part | .bmpack | .prune | .msearch => [.indexCommandComplete c k o.id]
  | .apass => [.passOpen c k o.id]
  | .trayget => [.traygetComplete c k o.id]
  | .aclose => [.acloseComplete c k o.id]
  | .amo | .amocas | .famo | .red | .redf => [.syncAccessPerformed c k o.id]
  | .arrive => [.barrierArrival c k o.id]
  | .spawn => if o.started then [.spawnRetry c k o.id] else [.taskSpawnAccept c k o.id]
  | _ => []

/-- The events that strand k of core c waits for. -/
noncomputable def State.waitEvents (s : State) (core : Core) (c k : Nat) (t : Strand) : List Instr :=
  (match t.waiting with
    | .answer _ _ r => if r = 0 then [] else [.qenqRetry c k]
    | .neighbour _ _ => [.ngetRetry c k, .ngetTimeout c k]
    | .gang _ _ => [.gangTimeout c k]
    | .claim _ none => [.breakpointClaim c k]
    | .inval _ _ _ false => [.tlbinvComplete c k]
    | .sleep _ => [.sleepWake c k]
    | _ => [])
  ++ (if (t.task.map fun r => r.deferred.isSome).getD false then [.deferredTrapTaken c k] else [])
  ++ (if (s.printOf core).isSome && core.tape.driver == k && !core.tape.fin then [.replayEntry c k] else [])

/-- The events of a core that is not stopped. -/
noncomputable def State.coreEvents (s : State) (core : Core) : List Instr :=
  let c := core.coord
  if s.stopped core then []
  else
    (if core.nextUp.isSome && !core.parking then [.dispatch c] else [])
    ++ (if core.ni.cellar.isEmpty || core.parking then [] else [.cellarDrain c])
    ++ (if core.ni.outb.isEmpty then [] else [.messageInject c])
    ++ (if !core.parking && (bit core.runq0.toNat 32 || bit core.runq1.toNat 32 || core.ni.claiming.isSome) then [.runQueuePoll c] else [])
    ++ (if core.crew.isSome && !core.parking && s.clusters.any (·.task.en) then [.taskRequest c] else [])
    ++ (if core.waking.any fun w => w.2 ≤ s.sys.now then [.bankWakeComplete c] else [])
    ++ (if (core.dtlb ++ (s.cluster (s.clusterKey c)).tlb2 ++ s.sys.wanted).any TlbEntry.promotes then [.tierPromotion c 0 0] else [])
    ++ core.strands.toList.zipIdx.flatMap fun t =>
      (if core.parking then [] else s.waitEvents core c t.2 t.1) ++ (t.1.ops.filter fun o => !o.complete).flatMap (s.opEvents c t.2)

/-- The events of a cluster's engines; the copy agent is of the core domain, which a relock stops (R340, R341). -/
noncomputable def State.clusterEvents (s : State) (u : Cluster) : List Instr :=
  (if u.lease.want.isEmpty then [] else [.leaseGrant u.key])
  ++ (if u.lease.holder.isSome then [.leaseRunEnd u.key] else [])
  ++ (if u.mxq.isEmpty then [] else [.matrixStepExecute u.key, .matrixStepComplete u.key])
  ++ (if u.agent.isEmpty then [] else [.arrayAgentReply u.key])
  ++ (if u.copyAgent.isEmpty || (s.die (u.key / 36)).relock.isSome then [] else [.copyAgentReply u.key])

/-- The events of a die's units. -/
noncomputable def State.dieEvents (s : State) (d : Die) : List Instr :=
  (if d.relock.isSome then [.relockEnd d.key] else [])
  ++ (if d.faultBuf.isEmpty then [] else [.faultBufferRetry d.key])
  ++ (if d.sampleAt ≤ s.sys.now && d.monitors.any (·.en) then [.monitorSample d.key] else [])
  ++ d.passes.flatMap (fun p =>
    if !p.isOpen then []
    else if p.started then [.pageDeliveryBegin d.key p.slot, .heldSubscriptionJoin d.key d.held.length] ++ (if p.deliver.isEmpty then [] else [.pageReady d.key p.slot])
    else (if p.deadline.isSome then [.passWindowExpiry d.key p.slot] else []) ++ [.heldSubscriptionJoin d.key d.held.length])
  ++ (List.range d.held.length).map (.heldSubscriptionJoin d.key)
  ++ d.tier.map fun t => .tierDemotion (4 * d.key + t.1)

/-- The events of the launch units, crews, page moves and ports. -/
noncomputable def State.systemEvents (s : State) : List Instr :=
  (if s.sys.gvtAt ≤ s.sys.now then [.gvtEpoch] else [])
  ++ (if s.sys.keepAt ≤ s.sys.now then [.keepaliveSend] else [])
  ++ (if s.sys.flitAt ≤ s.sys.now then [.timeFlitExchange (Config.freeWord s.draw).toNat] else [])
  ++ (if s.dies.any fun d => d.queues.any fun q => q.valid && q.launch && q.depth != 0 then [.launchClaim] else [])
  ++ (List.range s.sys.waiters.length).flatMap (fun n => [.launchPlace n, .launchAged n])
  ++ s.sys.crews.flatMap (fun w =>
    if w.life == .parked then [.crewResume w.id]
    else (if w.life == .killed || s.crewDone w then [.crewComplete w.id] else []) ++ match s.jobOf w.job with
      | none => []
      | some j =>
        (if w.life == .running && w.asked.isNone && w.since + (s.limits j).1 ≤ s.sys.now then [.watchdogPreemptRequest w.id] else [])
        ++ (if w.asked.isSome && w.life != .killed then [.watchdogKill w.id] else [])
        ++ (if w.life == .killed then [.watchdogFence w.id] else []))
  ++ (s.sys.jobs.filter fun j => j.owed != 0 || j.result.isSome || (!j.ended && recCrews j.record ≤ j.completed)).map (fun j => .crewComplete j.id)
  ++ (List.range s.sys.moves.length).map .pageMoveComplete
  ++ (List.range s.sys.held.length).map (fun n => .hostMemoryAccess 3 n [])
  ++ s.modules.flatMap fun m => (m.streams.filter (·.live)).map fun x => .frameDeadline x.port x.idx

/-- Every event that may come next. -/
noncomputable def State.events (s : State) : List Instr :=
  s.sys.flight.zipIdx.map (fun x => s.messageEvent x.2 x.1) ++ s.cores.flatMap s.coreEvents ++ s.clusters.flatMap s.clusterEvents
  ++ s.dies.flatMap s.dieEvents ++ s.systemEvents

/-- Every turn that may come next. -/
noncomputable def State.turns (s : State) : List Turn :=
  s.cores.flatMap s.strandTurns ++ s.events.map .event ++ if s.inputs.isEmpty then [] else [.input]

/-- The turn that comes next, with the draw it used: none where there is no choice. -/
noncomputable def State.pick (s : State) : Turn × State :=
  match s.turns with
  | [] => (.idle, s)
  | [t] => (t, s)
  | ts => (ts.getD (Config.choice s.draw % ts.length) .idle, s.drawn)

/-! ## After a step -/

/-- What an issue of strand k does to its core: the RUN strands that it was issued ahead of have skipped a cycle (R305; a cycle is an issue of the core,
log entry 64), and its record is dirty (R407). -/
def State.ageOthers (s : State) (c k : Nat) : State :=
  s.atCore c k fun s => s.modCore fun x => { x with
    strands := Vector.ofFn fun (i : Fin 16) =>
      let t := vget x.strands i.val {}
      if i.val ≠ k ∧ t.life = .run then { t with age := t.age + 1 } else t
    dirty := if x.dirty.contains (1216 + k) then x.dirty else (1216 + k) :: x.dirty }

/-- Whether strand k of core c waits to be drained, and its operations have completed (R398). -/
def State.drainDue (s : State) (c k : Nat) : Bool :=
  let t := vget (s.coreAt c).strands k {}
  t.draining != 0 && t.ops.all (·.complete)

/-- RESTART and DISCARD carried out at a core whose strands have been drained (R398), range locks of an image made again as the table has room
(R235), and a core parked that has been told to, once it is quiet (R322); not while its die is in a relock (R341). -/
def State.tidyCore (s : State) (c : Nat) : State :=
  if s.stopped (s.coreAt c) then s else
  let s := (List.range 16).foldl (fun s k => if s.drainDue c k then s.atCore c 0 fun s => s.drainOver k else s) s
  let core := s.coreAt c
  if core.savedLocks.isEmpty && !core.parking then s else s.atCore c 0 fun s => s.relock.parkIfQuiet

/-- Trace records that waited for a page (R416). -/
def State.writeRecords (s : State) : State :=
  s.dies.foldl (fun s d => (d.sessions.toList.zipIdx.filter fun x => !x.1.pending.isEmpty).foldl
    (fun s x => drainRecords d.key x.2 x.1.pending.length s) s) s

/-- What happens by itself once its condition holds: relocks end first, so that the cores they stopped take part. -/
def State.tidy (s : State) : State :=
  let s := s.endRelocks
  (((s.cores.map Core.coord).foldl State.tidyCore s).rewriteSlots).writeRecords

/-- Reference time passes (log entry 9); each context is charged for its occupied strands and with the energy attributed to it (R373, TIME and ENERGY;
log entry 8). -/
def State.elapse (s : State) (dt : Nat) : State :=
  let busy (dk gid : Nat) : Nat := ((s.cores.filter fun c => s.dieKey c.coord == dk
      && ((c.crew.bind s.crewOf).map fun w => s.crewGid w) == some gid).map fun c => (c.strands.toList.filter fun t => t.life != .free).length).foldl (· + ·) 0
  ({ s with dies := s.dies.map fun d => { d with ctxs := d.ctxs.map fun x =>
      { x with strandTime := x.strandTime + dt * busy d.key x.gidOf
               energy := if x.valid then x.energy + Config.energy x.gidOf (s.sys.now + dt) else x.energy } } } : State).modSys fun y => { y with now := y.now + dt }

end Sys2Proof.Machine
end

