-- ==== Sys2Proof/Machine/Turn.lean ====
section
/-! DEFINITION. A turn: of one strand, of one event of a unit, or of the outside world; and what follows every turn. -/

namespace Sys2Proof.Machine

/-- The BREAKs that a monitor has left for the strands of the focused core, taken in ascending strand number (R391, R420). -/
def State.takeStops (s : State) : State :=
  let due (x : Strand) : Option Trap := if (x.life = .run || x.life = .wait) && !(x.task.any fun r => r.deferred.isSome) then x.stop else none
  ((List.range 16).foldl (fun s k => match due (vget s.core.strands k {}) with
    | some t => (({ s with k := k }.modSt fun x => { x with stop := none }).trapMember t).focus s.here k
    | none => s) s).focus s.here s.k

/-- A breakpoint at the focused strand's next instruction, or at that of a member of its gang (R422). -/
def State.stopHere (s : State) : Option State :=
  s.members.findSome? fun d => ((s.focus d s.k).atBreakpoint).map fun t => t.focus s.here s.k

/-- A strand's turn (R8, R53, R422): the BREAKs that a monitor left on its core, else its next instruction is fetched and executed. -/
noncomputable def runStrand (c k : Nat) (s0 : State) : Host.Outcome State Fault Refusal :=
  let s := s0.focus c k
  match s.st.stop with
  | some _ => .next s.takeStops
  | none =>
    if s.st.soft then .next ((s.modSt fun x => { x with soft := false }).trapMember { code := 0x16 })
    else match s.fetch with
    | (s, .wait) => .next s
    | (s, .fail why) => exec (.instructionFetchFailed why) s
    | (s, .word w) => match s.stopHere with
      | some s => .next s
      | none => match decode w with
        | .ok i => exec i { s with ir := w }
        | .error cls => exec (.unassignedEncoding w cls) s

/-- What the outside world does next. An instruction of a strand is none of it; while the device is held in reset only a firmware load, the mailbox, a
reset and the host's own memory are (R381). -/
noncomputable def runInput (s : State) : Host.Outcome State Fault Refusal :=
  match s.inputs with
  | [] => .next s
  | i :: rest =>
    let s := { s with inputs := rest }
    if (s.mod 0).fw then (if i.encode.isSome then .next s else exec i s)
    else match i with
      | .fwload a n => exec (.fwload a n) s
      | .deviceReset => exec .deviceReset s
      | .hostMemoryAccess w a d => if w = 2 then exec (.hostMemoryAccess w a d) s else .next s
      | .registerWrite d off v ctx => if ctx = 256 && d % 4 = 0 && 0x38000 ≤ off && off < 0x38018 then exec (.registerWrite d off v ctx) s else .next s
      | _ => .next s

/-- What a step makes of the state after its turn: drains end, 2 ns pass. -/
def finish : Host.Outcome State Fault Refusal → Host.Outcome State Fault Refusal
  | .next s => .next (s.tidy.elapse 2)
  | r => r

/-- Whether strand k of core c is still stalled after its turn (R8): it is in WAIT, and not for a trap it has deferred (R277). -/
def State.stalls (s : State) (c k : Nat) : Bool :=
  let t := (s.focus c k).st
  t.life == .wait && !((t.task.map fun r => r.deferred.isSome).getD false)

/-- Whether strand k of core c waits only for a page of code after its turn. -/
def State.unfetched (s : State) (c k : Nat) : Bool := let t := s.focus c k; t.st.life == .run && s.fetchWaits t.core k

/-- What strand k of core c waits for holds: it, and the other members of its gang, return to RUN, and issue when R305 chooses them (R8). -/
def State.ready (s : State) (c k : Nat) : State :=
  let t := s.focus c k
  (t.atAll t.members fun s => s.modSt fun x => if x.life = .wait then { x with life := .run, age := 0 } else x).focus s.here s.k

/-- What a strand's turn, whose outcome is given, makes of the state it began in. A strand in WAIT that is still stalled keeps what it noted;
one that no longer is returns to RUN, and nothing else happens. A strand in RUN that stalled, or whose fetch waits, has not issued; one that
has issued makes the strands it was issued ahead of a cycle older, on each core of its gang (R305). -/
noncomputable def afterTurn (c k : Nat) (s : State) : Host.Outcome State Fault Refusal → Host.Outcome State Fault Refusal
  | .next t =>
    if t.stalls c k then .next t
    else if (s.focus c k).st.life = .wait then .next (s.ready c k)
    else if s.unfetched c k then .next t
    else .next ((s.focus c k).members.foldl (fun t d => t.ageOthers d k) t)
  | r => r

/-- A turn. -/
noncomputable def runTurn (t : Turn) (s : State) : Host.Outcome State Fault Refusal :=
  match t with
  | .strand c k => finish (afterTurn c k s (runStrand c k s))
  | .event i => finish (exec i s)
  | .input => finish (runInput s)
  | .idle => finish (.next s)

end Sys2Proof.Machine
end

