-- ==== Sys2Proof/Machine/Step.lean ====
section
/-! DEFINITION. One step of the machine: one turn of one strand, one event of a unit, or one thing the outside world does. -/

namespace Sys2Proof.Machine

/-- One step of the machine. A device held in reset does nothing but what the outside world brings it (R381). -/
noncomputable def step (s : State) : Host.Outcome State Fault Refusal :=
  if (s.mod 0).fw then runTurn s.pick.1 s.pick.2
  else finish (runInput s)

/-- The instruction word that nbits bits give, placed as the code of a resident crew of one core, on the focused core, about to be executed
by strand 0 (log entry 21: this stands for the boot, the launch and the code stores that bring a program to run). -/
def State.withFetchWord (s : State) (nbits w : Nat) : State :=
  let id := s.sys.nextId
  let j : Job := { id := id, num := 0, gid := 0, die := s.dk, ctx := 0, queue := 0, ticket := 0, record := [] }
  let v : Crew := { id := id + 1, job := id, idx := 0, x0 := s.core.x, y0 := s.core.y, x1 := s.core.x, y1 := s.core.y }
  let s := if (s.mod 0).fw then s else s.modMod 0 fun m => { m with fw := true }
  let s := s.modSys fun y => { y with jobs := y.jobs ++ [j], crews := y.crews ++ [v], nextId := id + 2 }
  let s := s.modCore fun c => { c with crew := some (id + 1), istore := c.istore.wrN 0 4 (w % 2 ^ nbits) }
  { s with k := 0 }.modSt fun t => { t with life := .run, pc := 0 }

end Sys2Proof.Machine
end

