-- ==== Sys2Proof/Safety.lean ====
section
/-! DEFINITION. The vocabulary of the statements: when a strand can carry out an instruction, what an operand form reads and writes,
what leaves what unchanged, and the invariant every step keeps. Each is written from the rules it names, beside the meanings and
not from them. -/

namespace Sys2Proof.Machine

/-- A strand that carries out an instruction with guard g naming these general registers and ports: it exists, is in no gang, its guard is true
(R34), none of the registers has a pending load (R79), and q3 is not named (R29). -/
structure Ready (g : Nat) (regs : List Nat) (s : State) : Prop where
  strand : s.k < 16
  alone : s.st.csr.gangSize = 0
  guard : s.p g = true
  ports : regs.contains 31 = false
  free : s.st.pendingOn regs = none

/-- The same, of an instruction that may not run in a speculative task (R278). -/
structure ReadyPlain (g : Nat) (regs : List Nat) (s : State) : Prop extends Ready g regs s where
  plain : s.st.task = none

/-- What a source operand reads outside a gang, and the state with the port popped (R29): a general register, the next payload word in q0, the next
completion record in q2; an empty port answers 0 and sets p1. None while q2 waits or
the word lies in a gated bank (R346). -/
def readOf (i : Nat) (s : State) : Option (Word × State) :=
  if i < 28 then some (s.g i, s)
  else if i = 28 then
    match s.st.start with
    | some m =>
      if s.st.q0 < m.cap then
        (if s.q0Asleep m s.st.q0 = [] then some (s.q0Word m s.st.q0, s.modSt fun t => { t with q0 := t.q0 + 1 }) else none)
      else some (0, s.setP 1 true)
    | none => some (0, s.setP 1 true)
  else if i = 30 then
    match s.st.q2 with
    | w :: ws => some (w, s.modSt fun t => { t with q2 := ws })
    | [] => if s.st.ops.any (fun o => o.record && !o.complete) then none else some (0, s.setP 1 true)
  else none

/-- What source operands read, one after another in the order written (R30). -/
def sourcesOf : List Nat → State → Option (List Word × State)
  | [], s => some ([], s)
  | i :: is, s => match readOf i s with
    | none => none
    | some (x, s) => match sourcesOf is s with
      | none => none
      | some (xs, s) => some (x :: xs, s)

/-- The state with a result written to a destination operand outside a gang (R29): a general register, or q1 while fewer than 29 words are in
it. -/
def writeOf (d : Nat) (v : Word) (s : State) : Option State :=
  if d < 28 then some (s.setG d v)
  else if d = 29 then (if 29 ≤ s.st.q1.length then none else some (s.modSt fun t => { t with q1 := t.q1 ++ [v] }))
  else none

/-- An n-bit result in 64 bits (R109). -/
def resultOf (sgn : Bool) {n : Nat} (r : BitVec n) : Word := if sgn then r.signExtend 64 else r.setWidth 64

/-- Lane j of n bits of a wide register (R135). -/
def lane (n j : Nat) (w : Wide) : BitVec n := w.extractLsb' (j * n) n

/-- Nothing keeps an access of n bytes at an offset, which a region lets through, from the physical pieces ps: a write of a task stays in its frame
(R266), no failed copy it stalled on is to be reported (R79), no outstanding operation of the strand covers them (R79, R81, R220), no range
lock (R236), no race (R229), no uncorrectable error (R410), no gated bank (R346). -/
structure Unhindered (off n : Nat) (wr : Bool) (ps : List (Nat × Nat)) (s : State) : Prop where
  frame : wr = true → s.st.task.isSome = true → inFrame s.taskFrame off n = true
  fresh : s.st.stalledOn = none
  ranges : ∀ r ∈ s.core.ranges, r.strand = s.k → (wr = true ∨ r.write = true) → ∀ p ∈ ps, overlap p.1 p.2 r.lo (r.hi - r.lo + 1) = false
  order : s.behind s.sys.nextId s.here none ps = false
  locks : s.lockedBy s.cl s.me (scratchSide s.here) ps wr = none
  tags : s.racy = true → s.core.racing ps s.me s.st.det = none
  sound : ∀ p ∈ ps, s.core.softAt p.1 p.2 (wr && n < 80) = none
  banks : s.sleeping ps = []

/-- A region grants a local access (R63), and nothing else keeps it from its pieces. -/
structure LocalClear (off n : Nat) (rd wr : Bool) (ps : List (Nat × Nat)) (s : State) : Prop extends Unhindered off n wr ps s where
  region : ∃ k, s.st.regionFor off n rd wr = some k ∧ ps = pieces k off n

/-- One region grants both reads and writes of an accumulator's 80 bytes (R133), and nothing else keeps a read, or a write, from its pieces. -/
structure AccClear (off : Nat) (wr : Bool) (ps : List (Nat × Nat)) (s : State) : Prop extends Unhindered off 80 wr ps s where
  region : ∃ k, s.st.regionFor off 80 true true = some k ∧ ps = pieces k off 80

/-- Whether SEND takes the words of q1 as a message of a kind (R209): its length, its kind with its priority, channel and length, the alignment of its
handler, and for a remote store its length and its target. -/
def sendAllowed (pri ch flits kind : Nat) (h : Word) (s : State) : Bool :=
  let q := (s.st.q1.getD 0 0).toNat
  decide (s.st.q1.length ≤ 4 * flits - 3)
  && match kind with
    | 0 => h.toNat % 4 == 0
    | 1 => storeLen (q % 256) flits && decide (q < 256) && bits h.toNat 47 18 == 0 && h.toNat % min q 8 == 0
    | 3 => pri != 0 && decide (flits ≤ 4) && h.toNat % 4 == 0
    | 5 => flits == 2 && h.toNat % 4 == 0
    | 6 => ch != 3
    | _ => false

/-- Bytes have been stored at the pieces ps of the core's scratchpad by the focused strand, which goes on at the next word (R65, R66): the pieces read
back the bytes, every other byte reads as before, the doublewords written carry the strand's tag where the race detector checks them (R228), the
lines written are dirty (R407), a doubleword written whole holds no error any more (log entry 27), a recording notes the side effect
(R327), and nothing else has changed. -/
structure Stored (ps : List (Nat × Nat)) (bs : List Byte) (s t : State) : Prop where
  bytes : t.core.readPieces ps = bs
  others : ∀ a, (∀ p ∈ ps, a < p.1 ∨ p.1 + p.2 ≤ a) → t.core.scratch.rd a = s.core.scratch.rd a
  tags : ∀ w, (t.core.tags.find? fun x => x.1 == w) =
    if s.racy && ps.any (fun p => p.1 / 8 == w) then some (w, { writer := s.me, rc := s.st.det.rc, stamp := s.st.det.stamp })
    else s.core.tags.find? fun x => x.1 == w
  dirty : ∀ l, l ∈ t.core.dirty ↔ l ∈ s.core.dirty ∨ ∃ p ∈ ps, p.1 / 256 = l
  sound : ∀ w, w ∈ t.core.bad ↔ w ∈ s.core.bad ∧ ∀ p ∈ ps, ¬(p.1 ≤ w * 8 ∧ w * 8 + 8 ≤ p.1 + p.2)
  tape : t.core.tape = if s.core.tape.recording.isNone then s.core.tape else { s.core.tape with side := true }
  rest : (t.modCore fun c => { c with
      scratch := s.core.scratch
      tags := s.core.tags
      dirty := s.core.dirty
      bad := s.core.bad
      tape := s.core.tape }) = s.goTo (s.st.pc + 4)

/-- An operation of a kind has been issued (R22, R77): it is the newest of the strand, outstanding, with the pc and the FPCTL of its issue; the strand
goes on at the next word. -/
structure Issued (kind : OpKind) (s t : State) (o : Op) : Prop where
  ops : t.st.ops = s.st.ops ++ [o]
  kind_ : o.kind = kind
  pc_ : o.pc = s.st.pc
  ctl : o.fpctl = s.fpctl
  outstanding : o.complete = false
  goes : t.st.pc = (s.st.pc + 4) % 2 ^ 48
  runs : t.st.life = .run

/-- Operation o of the focused strand is outstanding, and its range locks are held (R235), so that the event of its unit may happen (R22, R77). -/
structure Waits (o : Op) (s : State) : Prop where
  mesh : s.inMesh s.here = true
  strand : s.k < 16
  there : s.st.opById o.id = some o
  outstanding : o.complete = false
  locked : (s.core.savedLocks.any fun e => e.op == o.id) = false

/-- Operation o has completed with a value and retired (R23, R77, R78): it is no longer among the operations of its strand, its completion record, where one
was asked for, stands last in q2, and its value is in its destination. -/
structure Retired (o : Op) (v : Option Word) (s t : State) : Prop where
  ops : t.st.ops = s.st.ops.filter fun p => p.id != o.id
  record : t.st.q2 = s.st.q2 ++ if o.record then [word (o.pc % 2 ^ 48 + o.kind.engine * 2 ^ 56)] else []
  value : ∀ d x, o.d = some d → v = some x → 0 < d → d < 28 → t.g d = x
  goes : t.st.pc = s.st.pc

/-- The module that serves operation o on a leaf: a store's home, a load's nearer copy (R368). -/
def TlbEntry.serves (e : TlbEntry) (o : Op) (s : State) : Nat := if o.kind = .gst then e.home s else e.readHome s (walkerModule s.cl)

/-- The translation that GLD and GST use is at hand and allows the access of operation o to memory: an entry of a type below 4 (R359) whose module
works, read or written as its bits say, no die on the way in a relock, no erased key, no error of the host, no range lock, no race detector, no
promotion that comes first (R72, R82, R96, R229, R236, R342, R384). -/
structure LeafClear (o : Op) (e : TlbEntry) (s : State) : Prop where
  pointer : bits o.a.toNat 53 48 = 0
  hit : s.cached (o.a.toNat % 2 ^ 48) = some e
  unblocked : s.accessBlocked o o.id = false
  stays : e.promotes = false
  memory : e.type < 4
  way : s.pathHeld (walkerDie s.cl) (e.dieIn s (e.serves o s) (o.a.toNat % 2 ^ 48)) = false
  keyed : e.type < 2 → s.keyless e.gid = false
  host : (e.onHost && Config.hostError s.draw) = false
  works : (s.mod (e.serves o s)).failed = false
  allowed : if o.kind = .gst then e.w = true ∧ e.dup = false else e.r = true
  locks : s.lockedBy s.cl s.me s.gid [(o.a.toNat % 2 ^ 48, o.n)] (o.kind == .gst) = none
  race : e.race = false

/-- Message i of the flight, m once its arrival is noted, may arrive at its destination core, which becomes the focused one in out: nothing of its sender and
channel is ahead of it, its core works and is at work for its job, and its sender is in the region of the context (R192, R198, R202). -/
structure Arrives (i : Nat) (m : Msg) (s out : State) : Prop where
  there : ∃ m0, s.sys.flight[i]? = some m0 ∧ m = { m0 with arrived := s.sys.now }
  turn : s.deliverable i = true
  mesh : s.inMesh m.dst = true
  at_ : out = (s.modSys fun y => { y with flight := y.flight.eraseIdx i }).focus m.dst 0
  sound : m.malformed = false
  unfenced : out.core.fenced = false
  works : (out.mod (out.moduleOf m.dst)).failed = false
  crew : out.core.crew.isSome = true
  job : (out.job.map (·.num)) = some m.job
  region : out.regionOk m out.gid = true

/-- How many ranges of the own scratchpad some address ranges reach (R81). -/
def State.ownRanges (s : State) (l : List (Nat × Nat)) : Nat :=
  ((l.flatMap fun r => s.sidesOf s.gid r.1 r.2).filter fun x => x.1 == scratchSide s.here).length

/-- Every operation of the focused strand has retired and no failure waits to be reported (R24, R78, R80). -/
def State.settled (s : State) : Prop := (∀ c, s.st.unretired c = 0) ∧ s.st.report (fun _ => 0) = none

/-- The strand goes on at the next word (R53). -/
def State.advance (s : State) : State := s.goTo (s.st.pc + 4)

/-- Nothing outside the focused strand has changed, but for the core's note of which strand issued last (R305): no memory, no scratchpad, no
tile, no unit, no other strand. -/
structure OnlyStrand (s t : State) : Prop where
  others : t.others = s.others
  clusters : t.clusters = s.clusters
  dies : t.dies = s.dies
  modules : t.modules = s.modules
  sys : t.sys = s.sys
  inputs : t.inputs = s.inputs
  strand : t.k = s.k
  ir : t.ir = s.ir
  core : { t.core with strands := s.core.strands, last := s.core.last } = s.core
  siblings : ∀ j, j ≠ s.k → vget t.core.strands j {} = vget s.core.strands j {}

/-- Nothing of a strand has changed but what its scheduling keeps: its pc, its life, its wait, its age (R305). -/
def SameStrand (a b : Strand) : Prop :=
  { b with pc := a.pc, life := a.life, waiting := a.waiting, age := a.age, passBp := a.passBp } = a

/-- Nothing of a strand has changed but its general registers and what its scheduling keeps. -/
def SameButG (a b : Strand) : Prop := SameStrand a { b with g := a.g }

/-- Nothing of a strand has changed but its predicates and what its scheduling keeps. -/
def SameButP (a b : Strand) : Prop := SameStrand a { b with p := a.p }

/-- Nothing of a strand has changed but its wide registers and what its scheduling keeps. -/
def SameButW (a b : Strand) : Prop := SameStrand a { b with w := a.w }

/-- The integer instructions that write a general register (R109 to R123): destination, sources, guard. -/
def integerForm : Instr → Option (Nat × List Nat × Nat)
  | .add d a b _ _ g => some (d, [a, b], g)
  | .sub d a b _ _ g => some (d, [a, b], g)
  | .and d a b _ _ g => some (d, [a, b], g)
  | .or d a b _ _ g => some (d, [a, b], g)
  | .xor d a b _ _ g => some (d, [a, b], g)
  | .andn d a b _ _ g => some (d, [a, b], g)
  | .orn d a b _ _ g => some (d, [a, b], g)
  | .xnor d a b _ _ g => some (d, [a, b], g)
  | .shl d a b _ _ g => some (d, [a, b], g)
  | .shr d a b _ _ g => some (d, [a, b], g)
  | .sra d a b _ _ g => some (d, [a, b], g)
  | .rol d a b _ _ g => some (d, [a, b], g)
  | .ror d a b _ _ g => some (d, [a, b], g)
  | .mul d a b _ _ g => some (d, [a, b], g)
  | .mulh d a b _ _ g => some (d, [a, b], g)
  | .div d a b _ _ g => some (d, [a, b], g)
  | .rem d a b _ _ g => some (d, [a, b], g)
  | .min d a b _ _ g => some (d, [a, b], g)
  | .max d a b _ _ g => some (d, [a, b], g)
  | .absd d a b _ _ g => some (d, [a, b], g)
  | .addi d a _ g => some (d, [a], g)
  | .andi d a _ g => some (d, [a], g)
  | .ori d a _ g => some (d, [a], g)
  | .xori d a _ g => some (d, [a], g)
  | .shli d a _ g => some (d, [a], g)
  | .shri d a _ g => some (d, [a], g)
  | .srai d a _ g => some (d, [a], g)
  | .addai d a _ g => some (d, [a], g)
  | .muli d a _ g => some (d, [a], g)
  | .clz d a _ _ g => some (d, [a], g)
  | .ctz d a _ _ g => some (d, [a], g)
  | .popc d a _ _ g => some (d, [a], g)
  | .brev d a _ _ g => some (d, [a], g)
  | .bswap d a _ _ g => some (d, [a], g)
  | .sel d a b _ g => some (d, [a, b], g)
  | .adda d a b g => some (d, [a, b], g)
  | .ptrSet d a b g => some (d, [a, b], g)
  | .coordPack d a b g => some (d, [a, b], g)
  | .coordAdd d a b g => some (d, [a, b], g)
  | .ptrGet d a g => some (d, [a], g)
  | .ptrClr d a g => some (d, [a], g)
  | .coordX d a g => some (d, [a], g)
  | .coordY d a g => some (d, [a], g)
  | .coordSelf d g => some (d, [], g)
  | .li d _ => some (d, [], 0)
  | .lui d _ => some (d, [], 0)
  | _ => none

/-- The scalar floating-point instructions that write a general register (R124 to R131): destination, sources, guard. -/
def floatForm : Instr → Option (Nat × List Nat × Nat)
  | .fadd d a b _ g => some (d, [a, b], g)
  | .fsub d a b _ g => some (d, [a, b], g)
  | .fmul d a b _ g => some (d, [a, b], g)
  | .fdiv d a b _ g => some (d, [a, b], g)
  | .fmin d a b _ g => some (d, [a, b], g)
  | .fmax d a b _ g => some (d, [a, b], g)
  | .fabs d a _ g => some (d, [a], g)
  | .fneg d a _ g => some (d, [a], g)
  | .fma d a b c g => some (d, [a, b, c], g)
  | .fms d a b c g => some (d, [a, b, c], g)
  | .fnma d a b c g => some (d, [a, b, c], g)
  | .fnms d a b c g => some (d, [a, b, c], g)
  | .fsqrt d a g => some (d, [a], g)
  | .rcp d a g => some (d, [a], g)
  | .rsqrt d a g => some (d, [a], g)
  | .exp2 d a g => some (d, [a], g)
  | .log2 d a g => some (d, [a], g)
  | .cvt d a _ _ g => some (d, [a], g)
  | .cvto d a _ _ g => some (d, [a], g)
  | .fli d _ => some (d, [], 0)
  | _ => none

/-- The invariant of R398: on a core that no relock stops (R341), no strand waits to be restarted or discarded once its operations have completed. -/
def State.Drained (s : State) : Prop := ∀ c k, k < 16 → s.stopped (s.coreAt c) = false → s.drainDue c k = false

/-- Every Mem of the state that holds bytes of memory is in its canonical form (log entry 3): the HBM, the focused core's scratchpad,
tiles and instruction store. -/
def State.memoryWf (s : State) : Bool :=
  s.sys.mem.wf && s.core.scratch.wf && s.core.tiles.wf && s.core.istore.wf

end Sys2Proof.Machine
end

