-- ==== Sys2Proof/Certificates/Slice0/Obligations.lean ====
section
/-! DEFINITION. The statements for the provers. Where a statement rests on a choice of the model, its docstring names the log entry. -/

open Sys2Proof Sys2Proof.Machine

/-- For a ready strand, whatever its sources (registers or ports) read and wherever the result can be written, add, sub, and, or, xor, andn,
orn, xnor (R110) complete at every size with the n-bit result, sign-extended for sgn = 1 and zero-extended for sgn = 0; nothing else
happens but what the reads and the write do, and the strand goes on at the next word. No flag is set. shl, shr, sra, rol and ror complete
with the shift of the n-bit value by b mod n; shli, shri and srai with the 64-bit shift by their immediate. (R109, R110, R30, R112) -/
def Obligations.IntegerArithmetic : Prop :=
  (∀ (d a b sz sgn g : Nat) (s s' t : State) (x y v : Word), sz < 4 → Ready g [d, a, b] s → sourcesOf [a, b] s = some ([x, y], s') →
    writeOf d v s' = some t →
    let X : BitVec (widthOf sz) := x.setWidth _
    let Y : BitVec (widthOf sz) := y.setWidth _
    (v = resultOf (sgn == 1) (X + Y) → exec (.add d a b sz sgn g) s = .next t.advance) ∧
    (v = resultOf (sgn == 1) (X - Y) → exec (.sub d a b sz sgn g) s = .next t.advance) ∧
    (v = resultOf (sgn == 1) (X &&& Y) → exec (.and d a b sz sgn g) s = .next t.advance) ∧
    (v = resultOf (sgn == 1) (X ||| Y) → exec (.or d a b sz sgn g) s = .next t.advance) ∧
    (v = resultOf (sgn == 1) (X ^^^ Y) → exec (.xor d a b sz sgn g) s = .next t.advance) ∧
    (v = resultOf (sgn == 1) (X &&& ~~~Y) → exec (.andn d a b sz sgn g) s = .next t.advance) ∧
    (v = resultOf (sgn == 1) (X ||| ~~~Y) → exec (.orn d a b sz sgn g) s = .next t.advance) ∧
    (v = resultOf (sgn == 1) (~~~(X ^^^ Y)) → exec (.xnor d a b sz sgn g) s = .next t.advance)) ∧
  ((∀ (d a b sz sgn g : Nat) (s s' t : State) (x y v : Word), sz < 4 → Ready g [d, a, b] s → sourcesOf [a, b] s = some ([x, y], s') →
    writeOf d v s' = some t →
    let X : BitVec (widthOf sz) := x.setWidth _
    let n : Nat := y.toNat % widthOf sz
    (v = resultOf (sgn == 1) (X <<< n) → exec (.shl d a b sz sgn g) s = .next t.advance) ∧
    (v = resultOf (sgn == 1) (X >>> n) → exec (.shr d a b sz sgn g) s = .next t.advance) ∧
    (v = resultOf (sgn == 1) (X.sshiftRight n) → exec (.sra d a b sz sgn g) s = .next t.advance) ∧
    (v = resultOf (sgn == 1) (X.rotateLeft n) → exec (.rol d a b sz sgn g) s = .next t.advance) ∧
    (v = resultOf (sgn == 1) (X.rotateRight n) → exec (.ror d a b sz sgn g) s = .next t.advance)) ∧
  (∀ (d a n g : Nat) (s s' t : State) (x v : Word), n < 64 → Ready g [d, a] s → sourcesOf [a] s = some ([x], s') → writeOf d v s' = some t →
    (v = x <<< n → exec (.shli d a n g) s = .next t.advance) ∧
    (v = x >>> n → exec (.shri d a n g) s = .next t.advance) ∧
    (v = x.sshiftRight n → exec (.srai d a n g) s = .next t.advance)))

/-- mul gives the low n bits of the product and mulh the high n bits, of signed numbers for sgn = 1 and of unsigned numbers for sgn = 0; min
and max choose by the same reading; absd gives the magnitude of the difference, zero-extended whatever sgn holds. (R114, R116) -/
def Obligations.IntegerProducts : Prop :=
  ∀ (d a b sz sgn g : Nat) (s s' t : State) (x y v : Word), sz < 4 → Ready g [d, a, b] s → sourcesOf [a, b] s = some ([x, y], s') →
    writeOf d v s' = some t →
    let X : BitVec (widthOf sz) := x.setWidth _
    let Y : BitVec (widthOf sz) := y.setWidth _
    let i : Int := if sgn = 1 then X.toInt else X.toNat
    let j : Int := if sgn = 1 then Y.toInt else Y.toNat
    (v = resultOf (sgn == 1) (X * Y) → exec (.mul d a b sz sgn g) s = .next t.advance) ∧
    (v = resultOf (sgn == 1) (BitVec.ofInt (widthOf sz) (i * j / 2 ^ widthOf sz)) → exec (.mulh d a b sz sgn g) s = .next t.advance) ∧
    (v = resultOf (sgn == 1) (if i ≤ j then X else Y) → exec (.min d a b sz sgn g) s = .next t.advance) ∧
    (v = resultOf (sgn == 1) (if i ≤ j then Y else X) → exec (.max d a b sz sgn g) s = .next t.advance) ∧
    (v = resultOf false (BitVec.ofNat (widthOf sz) (i - j).natAbs) → exec (.absd d a b sz sgn g) s = .next t.advance)

/-- div and rem complete with quotient and remainder truncated toward zero, modulo 2^n, where the divisor is not zero (the most negative
number by -1 gives itself and 0). A zero divisor gives all ones and the dividend, and sets FPFLAGS.DZ; there is no trap. (R115) -/
def Obligations.IntegerDivision : Prop :=
  ∀ (d a b sz sgn g : Nat) (s s' t : State) (x y v : Word), sz < 4 → Ready g [d, a, b] s → sourcesOf [a, b] s = some ([x, y], s') →
    let X : BitVec (widthOf sz) := x.setWidth _
    let Y : BitVec (widthOf sz) := y.setWidth _
    let i : Int := if sgn = 1 then X.toInt else X.toNat
    let j : Int := if sgn = 1 then Y.toInt else Y.toNat
    (Y ≠ 0 → writeOf d v s' = some t →
      (v = resultOf (sgn == 1) (BitVec.ofInt (widthOf sz) (i.tdiv j)) → exec (.div d a b sz sgn g) s = .next t.advance) ∧
      (v = resultOf (sgn == 1) (BitVec.ofInt (widthOf sz) (i.tmod j)) → exec (.rem d a b sz sgn g) s = .next t.advance)) ∧
    (Y = 0 → writeOf d v (s'.modCsr fun c => { c with fpflags := c.fpflags ||| 8 }) = some t →
      (v = resultOf (sgn == 1) (BitVec.allOnes (widthOf sz)) → exec (.div d a b sz sgn g) s = .next t.advance) ∧
      (v = resultOf (sgn == 1) X → exec (.rem d a b sz sgn g) s = .next t.advance))

/-- addi, andi, ori, xori and muli complete with the 64-bit operation on the sign-extended 12-bit immediate (muli the low 64 bits of the
product, addi wraps); li writes the sign-extended 20-bit constant and lui the constant shifted by 12 and sign-extended from bit 31,
whatever the predicates hold, since they have no guard. (R111) -/
def Obligations.Immediates : Prop :=
  (∀ (d a k g : Nat) (s s' t : State) (x v : Word), Ready g [d, a] s → sourcesOf [a] s = some ([x], s') → writeOf d v s' = some t →
    let c : Word := (BitVec.ofNat 12 k).signExtend 64
    (v = x + c → exec (.addi d a k g) s = .next t.advance) ∧
    (v = x &&& c → exec (.andi d a k g) s = .next t.advance) ∧
    (v = x ||| c → exec (.ori d a k g) s = .next t.advance) ∧
    (v = x ^^^ c → exec (.xori d a k g) s = .next t.advance) ∧
    (v = x * c → exec (.muli d a k g) s = .next t.advance)) ∧
  (∀ (d k : Nat) (s : State), d < 28 → k < 2 ^ 20 → Ready 0 [d] s →
    exec (.li d k) s = .next (s.setG d ((BitVec.ofNat 20 k).signExtend 64)).advance ∧
    exec (.lui d k) s = .next (s.setG d ((BitVec.ofNat 32 (k * 4096)).signExtend 64)).advance)

/-- Each of the six CMP forms, at every size, and each of the eight CMPI forms completes with the predicate d set to the comparison, of signed
numbers where the form is signed and of unsigned numbers where it is not; a write to p0 is discarded. (R117) -/
def Obligations.Comparisons : Prop :=
  (∀ (p a b sz sgn g : Nat) (s s' : State) (x y : Word), sz < 4 → Ready g [a, b] s → sourcesOf [a, b] s = some ([x, y], s') →
    let X : BitVec (widthOf sz) := x.setWidth _
    let Y : BitVec (widthOf sz) := y.setWidth _
    let i : Int := if sgn = 1 then X.toInt else X.toNat
    let j : Int := if sgn = 1 then Y.toInt else Y.toNat
    exec (.cmpEq p a b sz sgn g) s = .next (s'.setP p (decide (X = Y))).advance ∧
    exec (.cmpNe p a b sz sgn g) s = .next (s'.setP p (decide (X ≠ Y))).advance ∧
    exec (.cmpLt p a b sz sgn g) s = .next (s'.setP p (decide (i < j))).advance ∧
    exec (.cmpLe p a b sz sgn g) s = .next (s'.setP p (decide (i ≤ j))).advance ∧
    exec (.cmpGt p a b sz sgn g) s = .next (s'.setP p (decide (j < i))).advance ∧
    exec (.cmpGe p a b sz sgn g) s = .next (s'.setP p (decide (j ≤ i))).advance) ∧
  (∀ (p a k g : Nat) (s s' : State) (x : Word), Ready g [a] s → sourcesOf [a] s = some ([x], s') →
    let c : Word := (BitVec.ofNat 9 k).signExtend 64
    exec (.cmpiEq p a k g) s = .next (s'.setP p (decide (x = c))).advance ∧
    exec (.cmpiNe p a k g) s = .next (s'.setP p (decide (x ≠ c))).advance ∧
    exec (.cmpiLtS64 p a k g) s = .next (s'.setP p (decide (x.toInt < c.toInt))).advance ∧
    exec (.cmpiLeS64 p a k g) s = .next (s'.setP p (decide (x.toInt ≤ c.toInt))).advance ∧
    exec (.cmpiGtS64 p a k g) s = .next (s'.setP p (decide (c.toInt < x.toInt))).advance ∧
    exec (.cmpiGeS64 p a k g) s = .next (s'.setP p (decide (c.toInt ≤ x.toInt))).advance ∧
    exec (.cmpiLtZ64 p a k g) s = .next (s'.setP p (decide (x.toNat < c.toNat))).advance ∧
    exec (.cmpiGeZ64 p a k g) s = .next (s'.setP p (decide (c.toNat ≤ x.toNat))).advance)

/-- clz and ctz complete with the number of zeros above the highest and below the lowest 1 bit of the n-bit value (n for zero), popc with the
number of 1 bits, all zero-extended; brev with the n bits and bswap with the n/8 bytes in reverse order, extended by sgn; sel with the
source its predicate chooses, in 64 bits. (R118, R119) -/
def Obligations.BitCounts : Prop :=
  (∀ (d a sz sgn g : Nat) (s s' t : State) (x v : Word), sz < 4 → Ready g [d, a] s → sourcesOf [a] s = some ([x], s') → writeOf d v s' = some t →
    let n := widthOf sz
    ((∃ k, k ≤ n ∧ v = BitVec.ofNat 64 k ∧ (∀ i, n - k ≤ i → i < n → x.getLsbD i = false) ∧ (k < n → x.getLsbD (n - 1 - k) = true)) →
      exec (.clz d a sz sgn g) s = .next t.advance) ∧
    ((∃ k, k ≤ n ∧ v = BitVec.ofNat 64 k ∧ (∀ i, i < k → x.getLsbD i = false) ∧ (k < n → x.getLsbD k = true)) →
      exec (.ctz d a sz sgn g) s = .next t.advance) ∧
    (v = BitVec.ofNat 64 ((List.range n).filter fun i => x.getLsbD i).length → exec (.popc d a sz sgn g) s = .next t.advance) ∧
    ((∃ r : BitVec n, v = resultOf (sgn == 1) r ∧ ∀ i, i < n → r.getLsbD i = x.getLsbD (n - 1 - i)) →
      exec (.brev d a sz sgn g) s = .next t.advance) ∧
    ((∃ r : BitVec n, v = resultOf (sgn == 1) r ∧ ∀ i, i < n → r.getLsbD i = x.getLsbD (8 * (n / 8 - 1 - i / 8) + i % 8)) →
      exec (.bswap d a sz sgn g) s = .next t.advance)) ∧
  (∀ (d a b p g : Nat) (s s' t : State) (x y v : Word), Ready g [d, a, b] s → sourcesOf [a, b] s = some ([x, y], s') → writeOf d v s' = some t →
    v = (if s'.p p then x else y) → exec (.sel d a b p g) s = .next t.advance)

/-- adda and addai complete with the address field moved by the signed offset and bits 63:48 kept where the sum lies in 48 bits, and else trap
ADDR_OVF (code 4) with nothing of the instruction done; ptr.set, ptr.get and ptr.clr change pointer fields unchecked; the coord forms
pack, unpack and add coordinates modulo 4,096, bits 63:24 zero, and coord.self gives the core's own. (R121) -/
def Obligations.PointersAndCoordinates : Prop :=
  (∀ (d a b g : Nat) (s s' t : State) (x y v : Word), Ready g [d, a, b] s → sourcesOf [a, b] s = some ([x, y], s') →
    let sum : Int := (x.toNat % 2 ^ 48 : Nat) + y.toInt
    (0 ≤ sum → sum < 2 ^ 48 → writeOf d v s' = some t → v = word (x.toNat / 2 ^ 48 * 2 ^ 48 + sum.toNat) →
      exec (.adda d a b g) s = .next t.advance) ∧
    (sum < 0 ∨ 2 ^ 48 ≤ sum → exec (.adda d a b g) s = .next (s.takeTrap { code := 4 })) ∧
    (writeOf d v s' = some t → v = word (y.toNat % 2 ^ 16 * 2 ^ 48 + x.toNat % 2 ^ 48) → exec (.ptrSet d a b g) s = .next t.advance) ∧
    (writeOf d v s' = some t → v = word (x.toNat % 4096 + y.toNat % 4096 * 4096) → exec (.coordPack d a b g) s = .next t.advance) ∧
    (writeOf d v s' = some t →
      v = word ((x.toNat % 4096 + y.toNat % 4096) % 4096 + (x.toNat / 4096 % 4096 + y.toNat / 4096 % 4096) % 4096 * 4096) →
      exec (.coordAdd d a b g) s = .next t.advance)) ∧
  (∀ (d a k g : Nat) (s s' t : State) (x v : Word), Ready g [d, a] s → sourcesOf [a] s = some ([x], s') →
    let sum : Int := (x.toNat % 2 ^ 48 : Nat) + (BitVec.ofNat 12 k).toInt
    (0 ≤ sum → sum < 2 ^ 48 → writeOf d v s' = some t → v = word (x.toNat / 2 ^ 48 * 2 ^ 48 + sum.toNat) →
      exec (.addai d a k g) s = .next t.advance) ∧
    (sum < 0 ∨ 2 ^ 48 ≤ sum → exec (.addai d a k g) s = .next (s.takeTrap { code := 4 })) ∧
    (writeOf d v s' = some t → v = word (x.toNat / 2 ^ 48) → exec (.ptrGet d a g) s = .next t.advance) ∧
    (writeOf d v s' = some t → v = word (x.toNat % 2 ^ 48) → exec (.ptrClr d a g) s = .next t.advance) ∧
    (writeOf d v s' = some t → v = word (x.toNat % 4096) → exec (.coordX d a g) s = .next t.advance) ∧
    (writeOf d v s' = some t → v = word (x.toNat / 4096 % 4096) → exec (.coordY d a g) s = .next t.advance)) ∧
  (∀ (d g : Nat) (s t : State), Ready g [d] s →
    writeOf d (word (s.core.x % 4096 + s.core.y % 4096 * 4096)) s = some t → exec (.coordSelf d g) s = .next t.advance)

/-- The four predicate operations, pred.not, pred.fromg and pred.tog complete with the predicate or register the table gives (p0 reads true,
and a write to it is discarded); flags.get reads FPFLAGS, flags.clr clears and flags.set sets the flags whose bits are 1 in the source.
(R120) -/
def Obligations.PredicatesAndFlags : Prop :=
  (∀ (d a b g : Nat) (s : State), Ready g [] s →
    exec (.predAnd d a b g) s = .next (s.setP d (s.p a && s.p b)).advance ∧
    exec (.predOr d a b g) s = .next (s.setP d (s.p a || s.p b)).advance ∧
    exec (.predXor d a b g) s = .next (s.setP d (Bool.xor (s.p a) (s.p b))).advance ∧
    exec (.predAndn d a b g) s = .next (s.setP d (s.p a && !s.p b)).advance ∧
    exec (.predNot d a g) s = .next (s.setP d (!s.p a)).advance) ∧
  (∀ (d a g : Nat) (s s' : State) (x : Word), Ready g [a] s → sourcesOf [a] s = some ([x], s') →
    exec (.predFromg d a g) s = .next (s'.setP d (decide (x ≠ 0))).advance ∧
    exec (.flagsClr a g) s =
      .next (s'.modCsr fun c => { c with fpflags := (c.fpflags.setWidth 5 &&& ~~~(x.setWidth 5)).setWidth 64 }).advance ∧
    exec (.flagsSet a g) s = .next (s'.modCsr fun c => { c with fpflags := c.fpflags ||| (x.setWidth 5).setWidth 64 }).advance) ∧
  (∀ (d a g : Nat) (s t : State), Ready g [d] s →
    (writeOf d (if s.p a then 1 else 0) s = some t → exec (.predTog d a g) s = .next t.advance) ∧
    (writeOf d ((s.st.csr.fpflags.setWidth 5).setWidth 64) s = some t → exec (.flagsGet d g) s = .next t.advance))

/-- When an integer instruction of a ready strand reads general registers, writes a general register and does not trap, the general registers
but d are unchanged, with every predicate, wide register, port, accumulator and trap register, every control register (a division by zero
sets one flag of FPFLAGS), every other strand, every byte of every memory, and every unit; register d is unchanged too when d is 0. When a
scalar floating-point instruction of a ready strand reads general registers, writes a general register and does not trap, every other
general register, every predicate, wide register, port, trap register and control register but FPFLAGS, every other strand, every byte of
memory and every unit are unchanged; flags are only added to FPFLAGS. (R109, R110, R111, R112, R113, R114, R115, R116, R118, R119, R121,
R122) -/
def Obligations.ArithmeticFrame : Prop :=
  (∀ (i : Instr) (d g : Nat) (regs : List Nat) (s t : State), integerForm i = some (d, regs, g) → (∀ r ∈ regs, r < 28) → d < 28 →
    Ready g (d :: regs) s → (∀ k, exec i s ≠ .next (s.takeTrap { code := k })) → exec i s = .next t →
    OnlyStrand s t ∧ SameButG s.st { t.st with csr := { t.st.csr with fpflags := s.st.csr.fpflags } } ∧
    (t.st.csr.fpflags = s.st.csr.fpflags ∨ t.st.csr.fpflags = s.st.csr.fpflags ||| 8) ∧
    (∀ r, r ≠ d ∨ r = 0 → t.g r = s.g r) ∧ (∀ r, t.p r = s.p r) ∧ (∀ r, t.w r = s.w r) ∧ t.st.pc = (s.st.pc + 4) % 2 ^ 48) ∧
  (∀ (i : Instr) (d g : Nat) (regs : List Nat) (s t : State), floatForm i = some (d, regs, g) → (∀ r ∈ regs, r < 28) → d < 28 →
    Ready g (d :: regs) s → (∀ fl, exec i s ≠ .next ((s.orFlags fl).takeTrap { code := 0x15, info := word fl })) → exec i s = .next t →
    OnlyStrand s t ∧ SameButG s.st { t.st with csr := { t.st.csr with fpflags := s.st.csr.fpflags } } ∧
    (∃ fl, t.st.csr.fpflags = s.st.csr.fpflags ||| fl) ∧ (∀ r, r ≠ d ∨ r = 0 → t.g r = s.g r) ∧ t.st.pc = (s.st.pc + 4) % 2 ^ 48)

/-- For each of fadd, fsub, fmul, fdiv, fmin, fmax, fma, fms, fnma, fnms, fsqrt, rcp, rsqrt, exp2, log2, cvt and cvto, with the pattern and
the flags that the format's operation gives for the operands and the captured FPCTL: where no raised exception is enabled, the flags are
ORed into FPFLAGS, the pattern is written zero-extended, and the strand goes on; where one is enabled, no destination is written, the
flags are set, and the strand traps FP (code 0x15) with the raised exceptions in TRAPINFO bits 4:0. (R106, R107, R124) -/
def Obligations.FloatResults : Prop :=
  ∀ (d a b c fmt u t' g : Nat) (s : State),
    let done (i : Instr) (regs srcs : List Nat) (f : List Word → Nat × Nat) : Prop :=
      ∀ (s' : State) (xs : List Word), Ready g regs s → sourcesOf srcs s = some (xs, s') →
        let r := f xs
        (r.2 &&& enables s.fpctl = 0 → ∀ t, writeOf d (word r.1) (s'.orFlags r.2) = some t → exec i s = .next t.advance) ∧
        (r.2 &&& enables s.fpctl ≠ 0 → exec i s = .next ((s.orFlags r.2).takeTrap { code := 0x15, info := word r.2 }))
    let F := fmtOf fmt
    let low (n : Nat) (xs : List Word) (k : Nat) : Nat := (xs.getD k 0).toNat % 2 ^ n
    let two (op : Nat) (xs : List Word) : Nat × Nat := F.arith op s.fpctl (low F.width xs 0) (low F.width xs 1)
    let three (sub : Nat) (xs : List Word) : Nat × Nat := fmaRound sub s.fpctl (low 32 xs 0) (low 32 xs 1) (low 32 xs 2)
    done (.fadd d a b fmt g) [d, a, b] [a, b] (two 0) ∧ done (.fsub d a b fmt g) [d, a, b] [a, b] (two 1) ∧
    done (.fmul d a b fmt g) [d, a, b] [a, b] (two 2) ∧ done (.fdiv d a b fmt g) [d, a, b] [a, b] (two 3) ∧
    done (.fmin d a b fmt g) [d, a, b] [a, b] (two 4) ∧ done (.fmax d a b fmt g) [d, a, b] [a, b] (two 5) ∧
    done (.fma d a b c g) [d, a, b, c] [a, b, c] (three 0) ∧ done (.fms d a b c g) [d, a, b, c] [a, b, c] (three 1) ∧
    done (.fnma d a b c g) [d, a, b, c] [a, b, c] (three 2) ∧ done (.fnms d a b c g) [d, a, b, c] [a, b, c] (three 3) ∧
    done (.fsqrt d a g) [d, a] [a] (fun xs => sfuRound 0 s.fpctl (low 32 xs 0)) ∧
    done (.rcp d a g) [d, a] [a] (fun xs => sfuRound 1 s.fpctl (low 32 xs 0)) ∧
    done (.rsqrt d a g) [d, a] [a] (fun xs => sfuRound 2 s.fpctl (low 32 xs 0)) ∧
    done (.exp2 d a g) [d, a] [a] (fun xs => sfuRound 3 s.fpctl (low 32 xs 0)) ∧
    done (.log2 d a g) [d, a] [a] (fun xs => sfuRound 4 s.fpctl (low 32 xs 0)) ∧
    done (.cvt d a t' u g) [d, a] [a] (fun xs => convert 64 t' u s.fpctl (low (cvtWidth 64 u) xs 0)) ∧
    done (.cvto d a t' u g) [d, a] [a] (fun xs => convert 64 t' u (s.fpctl / 8 * 8 + 5) (low (cvtWidth 64 u) xs 0))

/-- fabs completes with the operand's sign cleared and fneg with it changed, in the format's low bits, no flag set and no trap; a NaN operand
gives the format's canonical NaN. fli completes with its immediate in bits 31:12 and zeros elsewhere, whatever the predicates hold. Each
of the five FCMP forms completes with the predicate its comparison gives, the flags ORed into FPFLAGS, where no raised exception is
enabled, and traps FP with the predicate unchanged where one is. With a NaN operand ne and un hold and eq, lt and le do not; lt and le of
a NaN raise NV. Two numbers that are no NaN are not unordered, and the comparison of two zeros of any sign is equal. (R125, R131, R128,
R107) -/
def Obligations.FloatSignsAndComparisons : Prop :=
  ((∀ (d a fmt g : Nat) (s s' : State) (x : Word), Ready g [d, a] s → sourcesOf [a] s = some ([x], s') →
    let F := fmtOf fmt
    let v := x.toNat % 2 ^ F.width
    let sign := 2 ^ (F.width - 1)
    ((F.value false v).isNan = false →
      (∀ t, writeOf d (word (v % sign)) s' = some t → exec (.fabs d a fmt g) s = .next t.advance) ∧
      (∀ t, writeOf d (word ((v + sign) % 2 ^ F.width)) s' = some t → exec (.fneg d a fmt g) s = .next t.advance)) ∧
    ((F.value false v).isNan = true → ∀ t, writeOf d (word F.nan) s' = some t →
      exec (.fabs d a fmt g) s = .next t.advance ∧ exec (.fneg d a fmt g) s = .next t.advance)) ∧
  (∀ (d k : Nat) (s : State), d < 28 → k < 2 ^ 20 → Ready 0 [d] s → exec (.fli d k) s = .next (s.setG d (word (k * 4096))).advance)) ∧
  ((∀ (p a b fmt g : Nat) (s s' : State) (x y : Word), Ready g [a, b] s → sourcesOf [a, b] s = some ([x, y], s') →
    let F := fmtOf fmt
    let done (i : Instr) (code : Nat) : Prop :=
      let r := F.compare code s.fpctl (x.toNat % 2 ^ F.width) (y.toNat % 2 ^ F.width)
      (r.2 &&& enables s.fpctl = 0 → exec i s = .next ((s'.orFlags r.2).setP p r.1).advance) ∧
      (r.2 &&& enables s.fpctl ≠ 0 → exec i s = .next ((s.orFlags r.2).takeTrap { code := 0x15, info := word r.2 }))
    done (.fcmpEq p a b fmt g) 0 ∧ done (.fcmpNe p a b fmt g) 1 ∧ done (.fcmpLt p a b fmt g) 2 ∧ done (.fcmpLe p a b fmt g) 3 ∧
    done (.fcmpUn p a b fmt g) 4) ∧
  (∀ (fmt ctl x y : Nat),
    let F := fmtOf fmt
    let nan := (F.value (fizOf ctl) x).isNan || (F.value (fizOf ctl) y).isNan
    (nan = true → (F.compare 0 ctl x y).1 = false ∧ (F.compare 1 ctl x y).1 = true ∧ F.compare 2 ctl x y = (false, flagNV) ∧
      F.compare 3 ctl x y = (false, flagNV) ∧ (F.compare 4 ctl x y).1 = true) ∧
    (nan = false → (F.compare 4 ctl x y).1 = false ∧ ∀ code, (F.compare code ctl x y).2 = 0) ∧
    (x % 2 ^ (F.width - 1) = 0 → y % 2 ^ (F.width - 1) = 0 → (F.compare 0 ctl x y).1 = true ∧ (F.compare 2 ctl x y).1 = false)))

/-- Each of vadd to vror completes with every lane of w[d] the lane width's result of the scalar operation on the same lanes of w[a] and w[b]
(shift counts modulo the lane width); vadds and vsubs saturate to the signed range for sgn = 1 and to the unsigned range for sgn = 0. No
flag changes. (R136) -/
def Obligations.VectorIntegers : Prop :=
  ∀ (d a b sz sgn g : Nat) (s : State), sz < 4 → d < 16 → Ready g [] s →
    let n := widthOf sz
    let lanewise (i : Instr) (f : BitVec n → BitVec n → BitVec n) : Prop :=
      ∃ r : Wide, exec i s = .next (s.setW d r).advance ∧ ∀ j, j < 512 / n → lane n j r = f (lane n j (s.w a)) (lane n j (s.w b))
    let clamp (v : Int) : BitVec n :=
      if sgn = 1 then BitVec.ofInt n (max (-(2 ^ (n - 1))) (min (2 ^ (n - 1) - 1) v)) else BitVec.ofInt n (max 0 (min (2 ^ n - 1) v))
    let num (x : BitVec n) : Int := if sgn = 1 then x.toInt else x.toNat
    lanewise (.vadd d a b sz sgn g) (fun x y => x + y) ∧ lanewise (.vsub d a b sz sgn g) (fun x y => x - y) ∧
    lanewise (.vand d a b sz sgn g) (fun x y => x &&& y) ∧ lanewise (.vor d a b sz sgn g) (fun x y => x ||| y) ∧
    lanewise (.vxor d a b sz sgn g) (fun x y => x ^^^ y) ∧ lanewise (.vandn d a b sz sgn g) (fun x y => x &&& ~~~y) ∧
    lanewise (.vorn d a b sz sgn g) (fun x y => x ||| ~~~y) ∧ lanewise (.vxnor d a b sz sgn g) (fun x y => ~~~(x ^^^ y)) ∧
    lanewise (.vshl d a b sz sgn g) (fun x y => x <<< (y.toNat % n)) ∧ lanewise (.vshr d a b sz sgn g) (fun x y => x >>> (y.toNat % n)) ∧
    lanewise (.vsra d a b sz sgn g) (fun x y => x.sshiftRight (y.toNat % n)) ∧
    lanewise (.vrol d a b sz sgn g) (fun x y => x.rotateLeft (y.toNat % n)) ∧
    lanewise (.vror d a b sz sgn g) (fun x y => x.rotateRight (y.toNat % n)) ∧
    lanewise (.vadds d a b sz sgn g) (fun x y => clamp (num x + num y)) ∧ lanewise (.vsubs d a b sz sgn g) (fun x y => clamp (num x - num y))

/-- For vfadd to vfneg, vfma to vfnms and vdot, with the patterns and flags the lane operation gives: where no lane raises an enabled
exception, the instruction completes with every lane of w[d] its pattern and all flags ORed into FPFLAGS; where a lane does, no lane is
written and the strand traps FP with the flags of all lanes. For vcvt and vcvto, with source width ws, destination width wd, n = 512 /
max(ws, wd) elements and a part k in range: where no enabled exception is raised the instruction completes, element j of part k of the
wider-count side converted as the scalar conversion does; a narrowing leaves the elements outside its part unchanged. An enabled exception
of any element traps FP with nothing written. (R135, R137, R142, R107, R141, R130) -/
def Obligations.VectorFloats : Prop :=
  (∀ (d a b c fmt g : Nat) (s : State), d < 16 → Ready g [] s →
    let done (i : Instr) (n : Nat) (f : Nat → Nat × Nat) : Prop :=
      let fl := (List.range (512 / n)).foldl (fun acc j => acc ||| (f j).2) 0
      (fl &&& enables s.fpctl = 0 → ∃ r : Wide, exec i s = .next ((s.orFlags fl).setW d r).advance ∧
        ∀ j, j < 512 / n → lane n j r = BitVec.ofNat n (f j).1) ∧
      (fl &&& enables s.fpctl ≠ 0 → exec i s = .next ((s.orFlags fl).takeTrap { code := 0x15, info := word fl }))
    let F := fmtOf fmt
    let at_ (n j r : Nat) : Nat := (lane n j (s.w r)).toNat
    let two (op j : Nat) : Nat × Nat := F.arith op s.fpctl (at_ F.width j a) (at_ F.width j b)
    let one (op j : Nat) : Nat × Nat := F.arith op s.fpctl (at_ F.width j a) (at_ F.width j a)
    let three (sub j : Nat) : Nat × Nat := fmaRound sub s.fpctl (at_ 32 j a) (at_ 32 j b) (at_ 32 j c)
    done (.vfadd d a b fmt g) F.width (two 0) ∧ done (.vfsub d a b fmt g) F.width (two 1) ∧ done (.vfmul d a b fmt g) F.width (two 2) ∧
    done (.vfdiv d a b fmt g) F.width (two 3) ∧ done (.vfmin d a b fmt g) F.width (two 4) ∧ done (.vfmax d a b fmt g) F.width (two 5) ∧
    done (.vfabs d a fmt g) F.width (one 6) ∧ done (.vfneg d a fmt g) F.width (one 7) ∧
    done (.vfma d a b c g) 32 (three 0) ∧ done (.vfms d a b c g) 32 (three 1) ∧ done (.vfnma d a b c g) 32 (three 2) ∧
    done (.vfnms d a b c g) 32 (three 3) ∧
    done (.vdot d a b fmt g) 32 (fun j => vdotLane fmt s.fpctl (at_ 32 j d) (at_ 32 j a) (at_ 32 j b))) ∧
  (∀ (d a k t u g : Nat) (s : State), d < 16 → t < 8 → u < 8 → vcvtPart t u k = true → Ready g [] s →
    let wd := cvtWidth 32 t
    let ws := cvtWidth 32 u
    let n := 512 / max ws wd
    let done (i : Instr) (ctl : Nat) : Prop :=
      let from_ (j : Nat) : Nat := if ws < wd then k * n + j else j
      let to_ (j : Nat) : Nat := if wd < ws then k * n + j else j
      let f (j : Nat) : Nat × Nat := convert 32 t u ctl (lane ws (from_ j) (s.w a)).toNat
      let fl := (List.range n).foldl (fun acc j => acc ||| (f j).2) 0
      (fl &&& enables s.fpctl = 0 → ∃ r : Wide, exec i s = .next ((s.orFlags fl).setW d r).advance ∧
        (∀ j, j < n → lane wd (to_ j) r = BitVec.ofNat wd (f j).1) ∧
        (∀ e, e < 512 / wd → (∀ j, j < n → e ≠ to_ j) → lane wd e r = lane wd e (s.w d))) ∧
      (fl &&& enables s.fpctl ≠ 0 → exec i s = .next ((s.orFlags fl).takeTrap { code := 0x15, info := word fl }))
    done (.vcvt d a k t u g) s.fpctl ∧ done (.vcvto d a k t u g) (s.fpctl / 8 * 8 + 5))

/-- For the integer types each of vcmp.eq, ne, lt, le, ltz and lez completes with each lane all ones where the signed comparison holds (with
the lane of w[b], or with zero) and zero elsewhere, no flag changed; for the floating types the lane is the scalar comparison's, its flags
ORed, unless an enabled exception is raised, which traps FP with no lane written. vsel completes with each lane of w[a] or w[b] by the top
bit of the old lane of w[d]. For the integer types vred.sum completes with the 64-bit sum of the sign-extended lanes, min and max with the
least and greatest lane as signed numbers, and, or and xor with the sign-extended bitwise result; for the floating types vred.sum
completes with one rounding of the exact sum of all lanes, and min and max with the fold, from lane 0 on, of the scalar minimum and
maximum, flags ORed, or traps FP where an enabled exception is raised. (R138, R128, R139, R124) -/
def Obligations.VectorComparisonsAndReductions : Prop :=
  (∀ (d a b t g : Nat) (s : State), d < 16 → Ready g [] s →
    (t < 4 →
      let n := widthOf t
      let lanewise (i : Instr) (f : BitVec n → BitVec n → Bool) : Prop :=
        ∃ r : Wide, exec i s = .next (s.setW d r).advance ∧
          ∀ j, j < 512 / n → lane n j r = if f (lane n j (s.w a)) (lane n j (s.w b)) then BitVec.allOnes n else 0
      lanewise (.vcmpEq d a b t g) (fun x y => x == y) ∧ lanewise (.vcmpNe d a b t g) (fun x y => x != y) ∧
      lanewise (.vcmpLt d a b t g) (fun x y => decide (x.toInt < y.toInt)) ∧
      lanewise (.vcmpLe d a b t g) (fun x y => decide (x.toInt ≤ y.toInt)) ∧
      lanewise (.vcmpLtz d a t g) (fun x _ => decide (x.toInt < 0)) ∧ lanewise (.vcmpLez d a t g) (fun x _ => decide (x.toInt ≤ 0)) ∧
      (∃ r : Wide, exec (.vsel d a b t g) s = .next (s.setW d r).advance ∧
        ∀ j, j < 512 / n → lane n j r = if (lane n j (s.w d)).msb then lane n j (s.w a) else lane n j (s.w b))) ∧
    (4 ≤ t → t < 7 →
      let F := fmtOf (t - 4)
      let done (i : Instr) (code : Nat) (second : Wide) : Prop :=
        let f (j : Nat) : Bool × Nat := F.compare code s.fpctl (lane F.width j (s.w a)).toNat (lane F.width j second).toNat
        let fl := (List.range (512 / F.width)).foldl (fun acc j => acc ||| (f j).2) 0
        (fl &&& enables s.fpctl = 0 → ∃ r : Wide, exec i s = .next ((s.orFlags fl).setW d r).advance ∧
          ∀ j, j < 512 / F.width → lane F.width j r = if (f j).1 then BitVec.allOnes F.width else 0) ∧
        (fl &&& enables s.fpctl ≠ 0 → exec i s = .next ((s.orFlags fl).takeTrap { code := 0x15, info := word fl }))
      done (.vcmpEq d a b t g) 0 (s.w b) ∧ done (.vcmpNe d a b t g) 1 (s.w b) ∧ done (.vcmpLt d a b t g) 2 (s.w b) ∧
      done (.vcmpLe d a b t g) 3 (s.w b))) ∧
  (∀ (d a t g : Nat) (s : State), Ready g [d] s →
    (t < 4 →
      let n := widthOf t
      let xs : List (BitVec n) := (List.range (512 / n)).map fun j => lane n j (s.w a)
      let done (i : Instr) (v : Word) : Prop := ∀ u, writeOf d v s = some u → exec i s = .next u.advance
      done (.vredSum d a t g) (BitVec.ofInt 64 ((xs.map BitVec.toInt).foldl (· + ·) 0)) ∧
      (∀ m ∈ xs, (∀ x ∈ xs, m.toInt ≤ x.toInt) → done (.vredMin d a t g) (m.signExtend 64)) ∧
      (∀ m ∈ xs, (∀ x ∈ xs, x.toInt ≤ m.toInt) → done (.vredMax d a t g) (m.signExtend 64)) ∧
      done (.vredAnd d a t g) ((xs.foldl (· &&& ·) (BitVec.allOnes n)).signExtend 64) ∧
      done (.vredOr d a t g) ((xs.foldl (· ||| ·) 0).signExtend 64) ∧ done (.vredXor d a t g) ((xs.foldl (· ^^^ ·) 0).signExtend 64)) ∧
    (4 ≤ t → t < 7 →
      let F := fmtOf (t - 4)
      let xs : List Nat := (List.range (512 / F.width)).map fun j => (lane F.width j (s.w a)).toNat
      let done (i : Instr) (r : Nat × Nat) : Prop :=
        (r.2 &&& enables s.fpctl = 0 → ∀ u, writeOf d (word r.1) (s.orFlags r.2) = some u → exec i s = .next u.advance) ∧
        (r.2 &&& enables s.fpctl ≠ 0 → exec i s = .next ((s.orFlags r.2).takeTrap { code := 0x15, info := word r.2 }))
      let fold (big : Bool) : Nat × Nat := (xs.drop 1).foldl (fun acc x => let r := F.minmax big s.fpctl acc.1 x; (r.1, acc.2 ||| r.2))
        (F.minmax big s.fpctl (xs.headD 0) (xs.headD 0))
      done (.vredSum d a t g) (F.sum s.fpctl (xs.map (F.value (fizOf s.fpctl)))) ∧ done (.vredMin d a t g) (fold false) ∧
      done (.vredMax d a t g) (fold true)))

/-- With n lanes: vshuf gives lane i of w[d] the lane of w[a] that lane i of w[b] names modulo n; vrotl moves lane i to lane (i + k) mod n for
k the general source modulo n; vzip interleaves the lower halves; vunzip takes the even lanes of the sequence a then b; vsplat gives lane
i the low bits of g[a] + i·k for the signed 10-bit k. Each holds also where d is a source. (R140, R143) -/
def Obligations.VectorPermutations : Prop :=
  (∀ (d a b l g : Nat) (s : State), l < 4 → d < 16 → Ready g [] s →
    let n := widthOf l
    let m := 512 / n
    (∃ r : Wide, exec (.vshuf d a b l g) s = .next (s.setW d r).advance ∧
      ∀ i, i < m → lane n i r = lane n ((lane n i (s.w b)).toNat % m) (s.w a)) ∧
    (∃ r : Wide, exec (.vzip d a b l g) s = .next (s.setW d r).advance ∧
      ∀ i, i < m → lane n i r = if i % 2 = 0 then lane n (i / 2) (s.w a) else lane n (i / 2) (s.w b)) ∧
    (∃ r : Wide, exec (.vunzip d a b l g) s = .next (s.setW d r).advance ∧
      ∀ i, i < m → lane n i r = if 2 * i < m then lane n (2 * i) (s.w a) else lane n (2 * i - m) (s.w b))) ∧
  (∀ (d a b l k g : Nat) (s s' : State) (x : Word), l < 4 → d < 16 → k < 1024 → Ready g [b] s → sourcesOf [b] s = some ([x], s') →
    let n := widthOf l
    let m := 512 / n
    (∃ r : Wide, exec (.vrotl d a b l g) s = .next (s'.setW d r).advance ∧
      ∀ i, i < m → lane n ((i + x.toNat % m) % m) r = lane n i (s'.w a)) ∧
    (∃ r : Wide, exec (.vsplat d b l k g) s = .next (s'.setW d r).advance ∧
      ∀ i, i < m → lane n i r = BitVec.ofInt n (x.toNat + i * (BitVec.ofNat 10 k).toInt)))

/-- A trap of a strand outside a speculative task sets TRAPPC, TRAPCODE and TRAPINFO when the trap state is clear and leaves them when it is
set. With the trap state clear, a vector that is neither 0 nor misaligned, and a trap that is neither WATCHDOG nor a precise debug stop,
the strand goes on RUN at the vector with the trap state set, and its general, predicate and wide registers and FPFLAGS are unchanged; in
every other case it is HALTED at its pc. In a speculative task the trap is deferred: the strand waits at its pc with the trap noted, a
trap noted before staying, and no trap register changes. (R389, R390, R277) -/
def Obligations.TrapEntry : Prop :=
  ∀ (s : State) (x : Trap), s.k < 16 →
    (s.st.task = none →
      (s.st.ts = false → (s.takeTrap x).st.csr.trappc = word s.st.pc ∧ (s.takeTrap x).st.csr.trapcode = word x.code ∧
        (s.takeTrap x).st.csr.trapinfo = x.info) ∧
      (s.st.ts = true → (s.takeTrap x).st.csr = s.st.csr ∧ (s.takeTrap x).st.life = .halted ∧ (s.takeTrap x).st.pc = s.st.pc) ∧
      (s.st.ts = false → x.code ≠ 0x14 → (x.code = 0x17 → bit x.info.toNat 8 = true) → s.st.csr.trapvec.toNat % 2 ^ 48 ≠ 0 →
        s.st.csr.trapvec.toNat % 4 = 0 →
        (s.takeTrap x).st.ts = true ∧ (s.takeTrap x).st.life = .run ∧ (s.takeTrap x).st.pc = s.st.csr.trapvec.toNat % 2 ^ 48 ∧
        (s.takeTrap x).st.g = s.st.g ∧ (s.takeTrap x).st.p = s.st.p ∧ (s.takeTrap x).st.w = s.st.w ∧
        (s.takeTrap x).st.csr.fpflags = s.st.csr.fpflags) ∧
      (x.code = 0x14 ∨ (x.code = 0x17 ∧ bit x.info.toNat 8 = false) ∨ s.st.csr.trapvec.toNat % 2 ^ 48 = 0 ∨
          s.st.csr.trapvec.toNat % 4 ≠ 0 →
        (s.takeTrap x).st.life = .halted ∧ (s.takeTrap x).st.pc = s.st.pc ∧ (s.takeTrap x).st.ts = s.st.ts)) ∧
    (∀ r, s.st.task = some r → (s.takeTrap x).st.life = .wait ∧ (s.takeTrap x).st.csr = s.st.csr ∧ (s.takeTrap x).st.pc = s.st.pc ∧
      (s.takeTrap x).st.task = some { r with deferred := r.deferred.or (some x) })

/-- trap #n takes the trap SWTRAP (code 0x18) with n in TRAPINFO. In the trap state, where TRAPPC is a multiple of 4, rft completes with the
trap state left and the strand at TRAPPC, rft.skip at TRAPPC + 4, no control register changed; where it is not, both trap ALIGN (code 3),
and outside the trap state both trap PRIV (code 2). unassignedEncoding, what step runs for a word that is no instruction, takes ILLEGAL
(code 1) with the word and its class in TRAPINFO. (R58, R59, R41, R35) -/
def Obligations.TrapInstructionAndReturn : Prop :=
  (∀ (n g : Nat) (s : State), Ready g [] s → exec (.trap n g) s = .next (s.takeTrap { code := 0x18, info := word n })) ∧
  (∀ (g : Nat) (s : State), Ready g [] s → s.st.ts = true → s.st.csr.trappc.toNat % 4 = 0 →
    (∃ t, exec (.rft g) s = .next t ∧ t.st.ts = false ∧ t.st.pc = s.st.csr.trappc.toNat % 2 ^ 48 ∧ t.st.life = .run ∧ t.st.csr = s.st.csr) ∧
    (∃ t, exec (.rftSkip g) s = .next t ∧ t.st.ts = false ∧ t.st.pc = (s.st.csr.trappc.toNat + 4) % 2 ^ 48 ∧ t.st.life = .run ∧
      t.st.csr = s.st.csr)) ∧
  (∀ (g : Nat) (s : State), Ready g [] s → s.st.ts = true → s.st.csr.trappc.toNat % 4 ≠ 0 →
    exec (.rft g) s = .next (s.takeTrap { code := 3 }) ∧ exec (.rftSkip g) s = .next (s.takeTrap { code := 3 })) ∧
  (∀ (g : Nat) (s : State), Ready g [] s → s.st.ts = false →
    exec (.rft g) s = .next (s.takeTrap { code := 2 }) ∧ exec (.rftSkip g) s = .next (s.takeTrap { code := 2 })) ∧
  (∀ (w cls : Nat) (s : State), s.st.csr.gangSize = 0 →
    exec (.unassignedEncoding w cls) s = .next (({ s with ir := w } : State).takeTrap { code := 1, info := word (w % 2 ^ 32 + cls * 2 ^ 32) }))

/-- In a strand outside a gang br and call complete at pc + 4·sext(off21), modulo 2^48, where the named predicate equals the sense, call with
g27 set to pc + 4 once no load of g27 is pending, and else at pc + 4 with nothing changed. jmp and callr complete at bits 47:0 of their
source and ret at those of g27, where the address is a multiple of 4, callr with g27 set to pc + 4; a misaligned address traps ALIGN (code
3) and leaves g27 unchanged. loop subtracts 1 from its counter, modulo 2^64, and branches by the signed word offset unless the result is
zero (log entry 28 names the pc's wrap at 48 bits). (R50, R72, R51, R52) -/
def Obligations.BranchesJumpsAndLoops : Prop :=
  (∀ (c sense off : Nat) (s : State), s.k < 16 → s.st.csr.gangSize = 0 →
    let target : Nat := ((s.st.pc + 4 * (BitVec.ofNat 21 off).toInt) % 2 ^ 48).toNat
    (s.p c = (sense == 1) → exec (.br c sense off) s = .next (s.goTo target) ∧
      (s.st.pendingOn [27] = none → exec (.call c sense off) s = .next ((s.setG 27 (word (s.st.pc + 4))).goTo target))) ∧
    (s.p c ≠ (sense == 1) → exec (.br c sense off) s = .next s.advance ∧ exec (.call c sense off) s = .next s.advance)) ∧
  ((∀ (a g : Nat) (s s' : State) (v : Word), Ready g [a, 27] s → Ready g [a] s → sourcesOf [a] s = some ([v], s') →
    (v.toNat % 4 = 0 → exec (.jmp a g) s = .next (s'.goTo (v.toNat % 2 ^ 48)) ∧
      exec (.callr a g) s = .next ((s'.setG 27 (word (s.st.pc + 4))).goTo (v.toNat % 2 ^ 48))) ∧
    (v.toNat % 4 ≠ 0 → exec (.jmp a g) s = .next (s.takeTrap { code := 3 }) ∧ exec (.callr a g) s = .next (s.takeTrap { code := 3 }))) ∧
  (∀ (g : Nat) (s : State), Ready g [27] s →
    ((s.g 27).toNat % 4 = 0 → exec (.ret g) s = .next (s.goTo ((s.g 27).toNat % 2 ^ 48))) ∧
    ((s.g 27).toNat % 4 ≠ 0 → exec (.ret g) s = .next (s.takeTrap { code := 3 }))) ∧
  (∀ (d off g : Nat) (s : State), Ready g [d] s →
    (s.g d = 1 → exec (.loop d off g) s = .next (s.setG d 0).advance) ∧
    (s.g d ≠ 1 → exec (.loop d off g) s = .next ((s.setG d (s.g d - 1)).goTo
      ((s.st.pc + 4 * (BitVec.ofNat 12 off).toInt) % 2 ^ 48).toNat))))

/-- Once every operation of a ready strand has retired with no failure to report, end completes with the strand FREE and out of the trap
state; yield, whose handler address is a multiple of 4, completes with the strand FREE; suspend then asks the queue, when the outbound
buffer has room, and waits at its pc, and completes with the strand FREE once the queue has answered with success. A misaligned handler
address traps ALIGN in yield and suspend. (R24, R54, R55, R56, R57) -/
def Obligations.StrandEnds : Prop :=
  (∀ (g : Nat) (s : State), Ready g [] s → s.settled → ∃ t, exec (.exitEnd g) s = .next t ∧ t.st.life = .free ∧ t.st.ts = false) ∧
  (∀ (b g : Nat) (s s' : State) (v : Word), ReadyPlain g [b, 3, 4, 5, 6, 7] s → sourcesOf [b] s = some ([v], s') →
    (v.toNat % 4 = 0 → s'.settled → ∃ t, exec (.yield b g) s = .next t ∧ t.st.life = .free) ∧
    (v.toNat % 4 ≠ 0 → exec (.yield b g) s = .next (s.takeTrap { code := 3 }))) ∧
  (∀ (a b g : Nat) (s s' : State) (h v : Word), ReadyPlain g [a, b, 3, 4, 5, 6, 7] s → sourcesOf [a, b] s = some ([h, v], s') →
    (v.toNat % 4 = 0 → s'.settled → s'.st.waiting = .none → s'.dropLease.outFull = false →
      ∃ t, exec (.suspend a b g) s = .next t ∧ t.st.life = .wait ∧ t.st.waiting = .answer 0 none 0 ∧ t.st.pc = s.st.pc) ∧
    (∀ n pay at_, v.toNat % 4 = 0 → s'.st.waiting = .answer n (some pay) at_ → (pay.getD 0 0).toNat = 0 →
      ∃ t, exec (.suspend a b g) s = .next t ∧ t.st.life = .free) ∧
    (v.toNat % 4 ≠ 0 → exec (.suspend a b g) s = .next (s.takeTrap { code := 3 })))

/-- sleep of a ready strand completes at once where REFTIME is at or past its source; else the strand is in WAIT with the deadline noted and
its pc unchanged. sleepWake puts such a strand back into RUN once REFTIME has reached the deadline and changes nothing before. (R60, R348) -/
def Obligations.SleepAndWake : Prop :=
  (∀ (a g : Nat) (s s' : State) (v : Word), Ready g [a] s → sourcesOf [a] s = some ([v], s') →
    (v.toNat ≤ s.sys.now → exec (.sleep a g) s = .next s'.advance) ∧
    (s.sys.now < v.toNat → ∃ t, exec (.sleep a g) s = .next t ∧ t.st.life = .wait ∧ t.st.waiting = .sleep v.toNat ∧ t.st.pc = s.st.pc)) ∧
  (∀ (k u : Nat) (s : State), k < 16 → s.inMesh s.here = true → s.k = k → s.st.waiting = .sleep u → s.st.life = .wait →
    (u ≤ s.sys.now → exec (.sleepWake s.here k) s = .next (s.modSt fun t => { t with life := .run, waiting := .none })) ∧
    (s.sys.now < u → exec (.sleepWake s.here k) s = .next s))

/-- csrr completes with the value of the register its immediate names: FPCTL, FPFLAGS, the core's coordinate with the strand in bits 27:24,
TASKID, JOBNO, the queue depth, NGETTIME, the porch, the run queues, the tile and accumulator geometries, TRAPVEC, TRAPINFO, TRAPPC,
TRAPCODE, the regions and REFTIME among them. csrw completes with FPCTL, FPFLAGS, TASKID or TRAPVEC set to the low bits the register has;
a rounding mode of 6 or 7 traps ILLEGAL class 2; a write to COORD, JOBNO, TRAPINFO, TRAPPC, TRAPCODE, CYCLES or REFTIME changes nothing.
(R31, R32, R61, R103) -/
def Obligations.ControlRegisters : Prop :=
  (∀ (d n g : Nat) (s t : State), Ready g [d] s →
    let reads (m : Nat) (v : Word) : Prop := n = m → writeOf d v s = some t → exec (.csrr d n g) s = .next t.advance
    reads 0x000 s.st.csr.fpctl ∧ reads 0x001 s.st.csr.fpflags ∧ reads 0x010 (word (s.here + s.k * 2 ^ 24)) ∧ reads 0x011 s.st.csr.taskid ∧
    reads 0x012 s.st.csr.jobno ∧ reads 0x020 s.core.lpqdepth ∧ reads 0x021 s.st.csr.ngettime ∧ reads 0x023 s.core.porchcfg ∧
    reads 0x025 s.core.runq0 ∧ reads 0x026 s.core.runq1 ∧ (∀ i, i < 8 → reads (0x030 + i) (vget s.core.tgeom i 0)) ∧
    (∀ i, i < 4 → reads (0x038 + i) (vget s.core.ageom i 0)) ∧ reads 0x040 s.st.csr.trapvec ∧ reads 0x041 s.st.csr.trapinfo ∧
    reads 0x042 s.st.csr.trappc ∧ reads 0x043 s.st.csr.trapcode ∧ (∀ i, i < 16 → reads (0x050 + i) (vget s.st.csr.region i 0)) ∧
    reads 0x071 (word s.sys.now)) ∧
  (∀ (a n g : Nat) (s s' : State) (v : Word), Ready g [a] s → sourcesOf [a] s = some ([v], s') →
    (n = 0x000 → v.toNat % 8 < 6 → exec (.csrw a n g) s = .next (s'.modCsr fun c => { c with fpctl := word (v.toNat % 2 ^ 10) }).advance) ∧
    (n = 0x000 → 6 ≤ v.toNat % 8 → exec (.csrw a n g) s = .next (s.takeTrap (s.illegal 2))) ∧
    (n = 0x001 → exec (.csrw a n g) s = .next (s'.modCsr fun c => { c with fpflags := word (v.toNat % 2 ^ 5) }).advance) ∧
    (n = 0x011 → exec (.csrw a n g) s = .next (s'.modCsr fun c => { c with taskid := word (v.toNat % 2 ^ 32) }).advance) ∧
    (n = 0x040 → exec (.csrw a n g) s = .next (s'.modCsr fun c => { c with trapvec := word (v.toNat % 2 ^ 48) }).advance) ∧
    (n = 0x010 ∨ n = 0x012 ∨ n = 0x041 ∨ n = 0x042 ∨ n = 0x043 ∨ n = 0x070 ∨ n = 0x071 → exec (.csrw a n g) s = .next s'.advance))

/-- lease of a ready strand outside a gang completes where the strand holds its cluster's lease, and else enters its request and waits;
unlease completes with the lease free of this strand. leaseGrant of a free lease gives it to the first waiting requester after the last
holder; leaseRunEnd of a run of 32 steps or 8 µs makes the holder wait again behind the others where there are others, and starts a new
run where there are none. (R164, R165) -/
def Obligations.LeaseOfTheArray : Prop :=
  (∀ (g : Nat) (s : State), ReadyPlain g [] s →
    let l := (s.cluster s.cl).lease
    (l.holds s.leaseMe (s.st.waiting == .lease) = true → exec (.lease g) s = .next s.recordSync.advance) ∧
    (l.key = none → l.want = [] → s.st.waiting = .none →
      ∃ t, exec (.lease g) s = .next t ∧ (t.cluster s.cl).lease.want = [s.leaseMe] ∧ t.st.life = .wait ∧ t.st.pc = s.st.pc) ∧
    (∃ t, exec (.unlease g) s = .next t ∧ (t.cluster s.cl).lease.key ≠ some s.leaseMe ∧ s.leaseMe ∉ (t.cluster s.cl).lease.want)) ∧
  (∀ (cl w : Nat) (s : State), (s.cluster cl).lease.holder = none → (s.cluster cl).lease.nextWant = some w →
    ∃ t, exec (.leaseGrant cl) s = .next t ∧ (t.cluster cl).lease.holder = some (w / 16) ∧ (t.cluster cl).lease.strand = w % 16 ∧
      (t.cluster cl).lease.since = s.sys.now ∧ w ∉ (t.cluster cl).lease.want) ∧
  (∀ (cl k : Nat) (s : State), (s.cluster cl).lease.key = some k →
    32 ≤ (s.cluster cl).lease.steps ∨ (s.cluster cl).lease.since + 8000 ≤ s.sys.now →
    ((s.cluster cl).lease.want ≠ [] → ∃ t, exec (.leaseRunEnd cl) s = .next t ∧ (t.cluster cl).lease.holder = none ∧
      (t.cluster cl).lease.want = (s.cluster cl).lease.want ++ [k]) ∧
    ((s.cluster cl).lease.want = [] → ∃ t, exec (.leaseRunEnd cl) s = .next t ∧ (t.cluster cl).lease.key = some k ∧
      (t.cluster cl).lease.steps = 0 ∧ (t.cluster cl).lease.since = s.sys.now))

/-- Where a load's offset is a multiple of its size and nothing keeps the access from its bytes (a region grants it, no outstanding operation,
lock, race or gated bank stands in the way), ld, ldx and ldw complete with the little-endian value of the bytes at the physical pieces,
sign- or zero-extended (ldw: 64 bytes into a wide register) and change no memory. The offset is the base's low 18 bits plus the scaled
immediate or index, modulo 2^18. A misaligned offset traps ALIGN (code 3); one that no region grants traps LOCAL_RANGE (code 5) with the
offset as the address. (R62, R65, R66, R67, R220) -/
def Obligations.LocalLoads : Prop :=
  ∀ (d a b imm sz z sgn sc g : Nat) (s s' s2 : State) (x y : Word) (ps : List (Nat × Nat)), sz < 4 → sc < 4 →
    let v : Nat := wordOfBytes (s'.core.readPieces ps)
    (Ready g [d, a] s → sourcesOf [a] s = some ([x], s') →
      let n := bytesOfSize sz
      let off := ((x.toNat % 2 ^ 18 + (BitVec.ofNat 9 imm).toInt * n) % 2 ^ 18).toNat
      (off % n = 0 → LocalClear off n true false ps s' → ∀ t, writeOf d (resultOf (z == 0) (BitVec.ofNat (8 * n) v)) s' = some t →
        exec (.ld d a imm sz z g) s = .next t.advance) ∧
      (off % n ≠ 0 → exec (.ld d a imm sz z g) s = .next (s.takeTrap { code := 3 })) ∧
      (off % n = 0 → s'.st.regionFor off n true false = none →
        exec (.ld d a imm sz z g) s = .next (s.takeTrap { code := 5, addr := word off }))) ∧
    (Ready g [a] s → sourcesOf [a] s = some ([x], s') →
      let off := ((x.toNat % 2 ^ 18 + (BitVec.ofNat 9 imm).toInt * 64) % 2 ^ 18).toNat
      (off % 64 = 0 → LocalClear off 64 true false ps s' → exec (.ldw d a imm g) s = .next (s'.setW d (BitVec.ofNat 512 v)).advance) ∧
      (off % 64 ≠ 0 → exec (.ldw d a imm g) s = .next (s.takeTrap { code := 3 }))) ∧
    (Ready g [d, a, b] s → sourcesOf [a, b] s = some ([x, y], s2) →
      let n := widthOf sz / 8
      let off := (x.toNat % 2 ^ 18 + y.toNat * 2 ^ sc) % 2 ^ 18
      (off % n = 0 → LocalClear off n true false ps s2 →
        ∀ t, writeOf d (resultOf (sgn == 1) (BitVec.ofNat (8 * n) (wordOfBytes (s2.core.readPieces ps)))) s2 = some t →
        exec (.ldx d a b sz sgn sc g) s = .next t.advance) ∧
      (off % n ≠ 0 → exec (.ldx d a b sz sgn sc g) s = .next (s.takeTrap { code := 3 })))

/-- Where a store's offset is a multiple of its size and nothing keeps the access from its bytes (a region grants it, no outstanding
operation, lock, race, error or gated bank stands in the way), st, stx and stw complete: the pieces of the offset (the same as a load's)
read back the low n bytes of the source (stw: the wide register's 64 bytes), little-endian; every other byte of the scratchpad reads as
before. In a scratchpad the race detector checks, each doubleword written is tagged with the strand, its clock and its stamp, every other
tag is as before; the lines written are dirty, a doubleword written whole holds no error any more (log entry 27), a recording notes a side
effect. Nothing else of the state changes but the pc: no register, no other memory, no unit, no other core. A misaligned offset traps
ALIGN (code 3); one that no region grants for writing traps LOCAL_RANGE (code 5) with the offset as the address; both store nothing. (R62,
R64, R65, R66, R67, R228, R407) -/
def Obligations.LocalStores : Prop :=
  ∀ (d a b imm sz sc g : Nat) (s s' : State) (x y v : Word) (ps : List (Nat × Nat)), sz < 4 → sc < 4 →
    let stores (i : Instr) (off n val : Nat) : Prop :=
      (off % n = 0 → LocalClear off n false true ps s' → ∃ t, exec i s = .next t ∧ Stored ps (bytesOfWord n val) s' t) ∧
      (off % n ≠ 0 → exec i s = .next (s.takeTrap { code := 3 })) ∧
      (off % n = 0 → s'.st.regionFor off n false true = none → exec i s = .next (s.takeTrap { code := 5, addr := word off }))
    (Ready g [a, d] s → sourcesOf [a, d] s = some ([x, v], s') →
      let n := bytesOfSize sz
      stores (.st d a imm sz g) ((x.toNat % 2 ^ 18 + (BitVec.ofNat 9 imm).toInt * n) % 2 ^ 18).toNat n v.toNat) ∧
    (Ready g [a] s → sourcesOf [a] s = some ([x], s') →
      stores (.stw d a imm g) ((x.toNat % 2 ^ 18 + (BitVec.ofNat 9 imm).toInt * 64) % 2 ^ 18).toNat 64 (s'.w d).toNat) ∧
    (Ready g [a, b, d] s → sourcesOf [a, b, d] s = some ([x, y, v], s') →
      stores (.stx d a b sz sc g) ((x.toNat % 2 ^ 18 + y.toNat * 2 ^ sc) % 2 ^ 18) (widthOf sz / 8) v.toNat)

/-- Under every swizzle code two different offsets have two different physical offsets, in the same 256-byte block, with the same byte within
the doubleword; code 0 is the identity. (R63, R64) -/
def Obligations.SwizzleIsAPermutation : Prop :=
  (∀ k o o' : Nat, swizzle k o = swizzle k o' → o = o') ∧
  (∀ k o : Nat, swizzle k o / 256 = o / 256 ∧ swizzle k o % 8 = o % 8) ∧ (∀ o : Nat, swizzle 0 o = o)

/-- Where the accumulator's offset is a multiple of 16 and nothing keeps the access from its 80 bytes: xacc adds the value of g[b], xaccp the
exact product of its two halves (an infinity, a NaN or a product that is not a number adds nothing and sets NV) and xmrg the second
accumulator, modulo 2^640 in units of 2^-266, xclr writes zero, and xrnd writes the accumulator rounded once; each completes with its
flags ORed where no enabled exception is raised. An enabled exception traps FP and writes nothing; a misaligned accumulator traps ALIGN.
(R132, R133) -/
def Obligations.ExactAccumulators : Prop :=
  ∀ (d a b fmt g : Nat) (s s' : State) (x y : Word) (ps qs : List (Nat × Nat)),
    let off := x.toNat % 2 ^ 18
    let old := wordOfBytes (s'.core.readPieces ps)
    let F := fmtOf fmt
    let clear : Prop := off % 16 = 0 ∧ AccClear off true ps s'
    let done (i : Instr) (r : Nat × Nat) : Prop :=
      (r.2 &&& enables s.fpctl = 0 → exec i s = .next ((s'.orFlags r.2).localWrite ps (bytesOfWord 80 r.1)).advance) ∧
      (r.2 &&& enables s.fpctl ≠ 0 → exec i s = .next ((s.orFlags r.2).takeTrap { code := 0x15, info := word r.2 }))
    (Ready g [a, b] s → sourcesOf [a, b] s = some ([x, y], s') →
      (clear →
        let e := accAddend (F.value (fizOf s.fpctl) (y.toNat % 2 ^ F.width))
        let r := accAdd old e.1
        done (.xacc a b fmt g) (r.1, r.2 ||| e.2)) ∧
      (clear →
        let e := (((F.value (fizOf s.fpctl) (y.toNat % 2 ^ 16)).mul (F.value (fizOf s.fpctl) (bits y.toNat 31 16))).map accAddend).getD (0, 16)
        let r := accAdd old e.1
        done (.xaccp a b fmt g) (r.1, r.2 ||| e.2)) ∧
      (clear → y.toNat % 16 = 0 → AccClear (y.toNat % 2 ^ 18) false qs s' →
        done (.xmrg a b g) (accAdd old (sext 640 (wordOfBytes (s'.core.readPieces qs))))) ∧
      (off % 16 ≠ 0 → exec (.xacc a b fmt g) s = .next (s.takeTrap { code := 3 }) ∧
        exec (.xaccp a b fmt g) s = .next (s.takeTrap { code := 3 }))) ∧
    (Ready g [a] s → sourcesOf [a] s = some ([x], s') →
      (clear → exec (.xclr a g) s = .next (s'.localWrite ps (List.replicate 80 0)).advance) ∧
      (off % 16 ≠ 0 → exec (.xclr a g) s = .next (s.takeTrap { code := 3 }))) ∧
    (Ready g [d, a] s → sourcesOf [a] s = some ([x], s') → off % 16 = 0 → AccClear off false ps s' →
      let r := accRound (if fmt = 3 then f64 else f32) s.fpctl old
      (r.2 &&& enables s.fpctl = 0 → ∀ t, writeOf d (word r.1) (s'.orFlags r.2) = some t → exec (.xrnd d a fmt g) s = .next t.advance) ∧
      (r.2 &&& enables s.fpctl ≠ 0 → exec (.xrnd d a fmt g) s = .next ((s.orFlags r.2).takeTrap { code := 0x15, info := word r.2 })))

/-- eset completes with the shadow register of its engine set to its source; CCTL, XCTL and ACTL keep only bit 0 (R3). wait completes when no
class has more unretired operations than its limit and no failure is to be reported, waits while a class has more, and else raises the
oldest failure and forgets its operation. twaitc completes when no matrix step that reads the tile is outstanding and no load of it, by
tld, qnt or an armed copy, is outstanding or failed; mxwaitb when no step of the batch is outstanding or failed. fence completes when no
outstanding operation and no message still to leave is in its scope, waits while one is, and traps ILLEGAL class 2 for a malformed scope.
(R73, R78, R79, R80, R171) -/
def Obligations.EngineRegistersAndWaits : Prop :=
  (∀ (a idx g : Nat) (s s' : State) (x : Word), Ready g [a] s → sourcesOf [a] s = some ([x], s') →
    let set (eng : Nat) (f : Shadow → Shadow) : Prop :=
      exec (.eset idx a eng g) s = .next (s'.modSt fun t => { t with shadow := f t.shadow }).advance
    let kept : Word := if idx = 7 then word (x.toNat % 2) else x
    set 0 (fun h => { h with copy := vset h.copy idx kept }) ∧ set 1 (fun h => { h with mx := vset h.mx idx x }) ∧
    set 2 (fun h => { h with idx := vset h.idx idx kept }) ∧ set 3 (fun h => { h with qnt := vset h.qnt idx x }) ∧
    set 4 (fun h => { h with att := vset h.att idx kept })) ∧
  (∀ (l st c t m g : Nat) (s : State), Ready g [] s →
    let lim (k : Cls) : Nat := match k with | .l => l | .s => st | .c => c | .t => t | .m => m
    ((∀ k, s.st.unretired k ≤ lim k) → s.st.report lim = none → exec (.wait l st c t m g) s = .next s.recordSync.advance) ∧
    ((∃ k, lim k < s.st.unretired k) → exec (.wait l st c t m g) s = .next s.park) ∧
    (∀ o f, (∀ k, s.st.unretired k ≤ lim k) → s.st.report lim = some o → o.fail = some f →
      exec (.wait l st c t m g) s = .next ((s.dropOp o.id).takeTrap f))) ∧
  (∀ (t n g : Nat) (s : State), ReadyPlain g [] s →
    ((∀ o ∈ s.core.allOps, o.kind = .mxstep → o.tiles.contains (t, false) = true → o.complete = true) →
      (∀ o ∈ s.st.ops, (o.kind = .tld ∧ o.n = t) ∨ (o.kind = .qnt ∧ o.n = t) ∨ (o.kind = .armed ∧ o.target = t) → o.complete = true ∧ o.fail = none) →
      exec (.twaitc t g) s = .next s.recordSync.advance) ∧
    ((∀ o ∈ s.st.ops, o.kind = .mxstep → o.op = n → o.complete = true ∧ o.fail = none) → exec (.mxwaitb n g) s = .next s.recordSync.advance)) ∧
  (∀ (a g : Nat) (s s' : State) (x : Word), ReadyPlain g [a] s → sourcesOf [a] s = some ([x], s') →
    let good : Prop := x.toNat < 2 ^ 49 ∧ bits x.toNat 11 0 ≤ bits x.toNat 35 24 ∧ bits x.toNat 23 12 ≤ bits x.toNat 47 36
    let out : Prop := (∃ o ∈ s'.st.ops, o.complete = false ∧ s'.fenced x.toNat o = true) ∨ ∃ m ∈ s'.core.ni.outb, m.strand = s'.k
    (good → ¬out → exec (.fence a g) s = .next s'.advance) ∧ (good → out → exec (.fence a g) s = .next s.park) ∧
    (¬good → exec (.fence a g) s = .next (s.takeTrap (s'.illegal 2))))

/-- gld and gst trap ADDR_OVF (code 4) where the offset leaves the 48-bit address, and ALIGN (code 3) where the address is no multiple of the
size. Else, where the class has room, the address lies in no busy tile, does not lie in another core's scratchpad, and no access to
another synchronisation engine is outstanding, they complete at once: the operation is outstanding with the address, the size, the
destination of a gld, the low n bytes of a gst, its pc and its FPCTL, and the strand goes on. Where it does, outside a task, they
complete, the strand going on at the next word, where the reply table and the outbound buffer have room or a kind-3 message started the
strand. pref and pref.tier complete and change no visible state. (R44, R70, R71, R77, R172, R222) -/
def Obligations.GlobalAccessIssue : Prop :=
  ∀ (d a imm sz z g : Nat) (s s' : State) (x v : Word), sz < 4 →
    let n := bytesOfSize sz
    let sum : Int := (x.toNat % 2 ^ 48 : Nat) + (BitVec.ofNat 9 imm).toInt * n
    let ptr : Word := word (sum.toNat + x.toNat / 2 ^ 48 * 2 ^ 48)
    let clear (wr : Bool) (c : Cls) : Prop := 0 ≤ sum ∧ sum < 2 ^ 48 ∧ sum % n = 0 ∧ s'.st.unretired c < 63 ∧
      (∀ e u, s'.leafNow ptr = some e → s'.ownTile e sum.toNat = some u → s'.core.tileBusy u.1 wr = none) ∧
      (∀ o ∈ s'.st.ops, o.complete = false → s'.syncOp o = true → o.target = s'.engineOf ptr)
    let far : Prop := s'.st.task = none ∧ bits x.toNat 53 48 = 0 ∧ ∃ e, s'.leafNow ptr = some e ∧ e.type = 4 ∧ e.scratchCore ≠ s'.here
    let sends (i : Instr) : Prop := s'.hpStarted = true ∨ (s'.replyFree = true ∧ s'.outFull = false) →
      ∃ t, exec i s = .next t ∧ t.st.pc = (s.st.pc + 4) % 2 ^ 48 ∧ t.st.life = .run
    let wild : Prop := sum < 0 ∨ 2 ^ 48 ≤ sum
    (Ready g [d, a] s → sourcesOf [a] s = some ([x], s') →
      (clear false .l → far → sends (.gld d a imm sz z g)) ∧
      (clear false .l → ¬far → ∃ t o, exec (.gld d a imm sz z g) s = .next t ∧ Issued .gld s t o ∧ o.cls = .l ∧ o.a = ptr ∧ o.n = n ∧
        o.d = destOf d ∧ o.sgn = (z == 0)) ∧
      (wild → exec (.gld d a imm sz z g) s = .next (s.takeTrap { code := 4 })) ∧
      (¬wild → sum % n ≠ 0 → exec (.gld d a imm sz z g) s = .next (s.takeTrap { code := 3 }))) ∧
    (Ready g [a, d] s → sourcesOf [a, d] s = some ([x, v], s') →
      (clear true .s → far → sends (.gst d a imm sz g)) ∧
      (clear true .s → ¬far → ∃ t o, exec (.gst d a imm sz g) s = .next t ∧ Issued .gst s t o ∧ o.cls = .s ∧ o.a = ptr ∧ o.n = n ∧
        o.b = word (v.toNat % 2 ^ (8 * n))) ∧
      (wild → exec (.gst d a imm sz g) s = .next (s.takeTrap { code := 4 })) ∧
      (¬wild → sum % n ≠ 0 → exec (.gst d a imm sz g) s = .next (s.takeTrap { code := 3 }))) ∧
    (Ready g [a] s → sourcesOf [a] s = some ([x], s') →
      exec (.pref a imm g) s = .next s'.advance ∧ exec (.prefTier a imm g) s = .next s'.advance)

/-- Where class C and the completion records have room, the cluster's range-lock table has an entry and the core's table of copy ranges has
room for the command's ranges in the own scratchpad, cpy, the armed cpy into a well-formed tile that no armed copy waits for, isect, part,
the bmpack forms, prune and msearch complete: the operation is outstanding with its pointers, all eight shadow registers of its engine and
the FPCTL of its issue, and the strand goes on at the next word. (R22, R75, R77, R81, R185) -/
def Obligations.CopyAndIndexIssue : Prop :=
  ∀ (cv n a b m u g : Nat) (s s' : State) (x y : Word),
    let room (w : State) (o : Op) (rd wr : List (Nat × Nat)) : Prop := w.st.unretired .c < 63 ∧ (o.record = true → w.st.promised < 16) ∧
      (w.cluster w.cl).locks.length < 64 ∧ w.core.ranges.length + w.ownRanges rd + w.ownRanges wr ≤ 16
    let copyRegs := s'.st.shadow.copy.toList
    let copyOp (kind : OpKind) : Op := { kind := kind, cls := .c, a := if kind = .copy then x else 0, b := y, op := n, sgn := cv == 1, regs := copyRegs, fpctl := s'.fpctl, record := bit (copyRegs.getD 7 0).toNat 0, target := if kind = .armed then u else 0, geoms := if kind = .armed then [word (s'.core.geomOf u)] else [], tiles := if kind = .armed then [(u, true)] else [] }
    (ReadyPlain g [a, b] s → sourcesOf [a, b] s = some ([x, y], s') →
      room s' (copyOp .copy) (copyOp .copy).copy.srcRange.toList (copyOp .copy).copy.dstRange.toList →
      ∃ t o, exec (.cpy cv n a b g) s = .next t ∧ Issued .copy s t o ∧ o.cls = .c ∧ o.a = x ∧ o.b = y ∧ o.regs = copyRegs) ∧
    (ReadyPlain g [b] s → sourcesOf [b] s = some ([y], s') → s'.core.tileOk u = true →
      (∀ o ∈ s'.core.allOps, o.kind = .armed → o.target = u → o.complete = true) →
      room s' (copyOp .armed) (copyOp .armed).copy.srcRange.toList [] →
      ∃ t o, exec (.cpyArm cv n b u g) s = .next t ∧ Issued .armed s t o ∧ o.cls = .c ∧ o.b = y ∧ o.target = u ∧ o.regs = copyRegs) ∧
    (ReadyPlain g [a, b] s →
      let regs := s.st.shadow.idx.toList
      let done (i : Instr) (cmd : Nat) (kind : OpKind) : Prop :=
        let o0 : Op := { kind := kind, cls := .c, a := s.g a, b := s.g b, regs := regs, op := cmd, record := bit (regs.getD 7 0).toNat 0 }
        let plan := idxPlan cmd (s.g a) (s.g b) regs (s.idxEnds (s.party o0) cmd (s.g b) regs)
        room s o0 ((rangesOf plan.rd).getD []) ((rangesOf plan.wr).getD []) →
        ∃ t o, exec i s = .next t ∧ Issued kind s t o ∧ o.cls = .c ∧ o.op = cmd ∧ o.a = s.g a ∧ o.b = s.g b ∧ o.regs = regs
      done (.isect a b g) 0 .isect ∧ done (.part a b g) 1 .part ∧ done (.bmpackP a b g) 2 .bmpack ∧ done (.bmpackX a b g) 3 .bmpack ∧
      done (.bmpackC a b g) 4 .bmpack ∧ done (.bmpackCt a b g) 5 .bmpack ∧ (m < 3 → done (.prune a b m g) (6 + m) .prune) ∧
      done (.msearch a b g) 9 .msearch)

/-- Where class T and the range-lock table have room and the tile's geometry is legal and the tile not busy, tld, tst, tzero, qnt and dqnt
complete with the operation outstanding, the tile and its geometry captured. A matrix step completes where the strand holds the lease in a
run that is not over, the geometries fit and the cluster's queue has room, with the command at the end of the cluster's queue. A step of a
strand without the lease traps NO_LEASE (code 9). (R22, R158, R164, R170, R172, R174) -/
def Obligations.TileAndMatrixIssue : Prop :=
  ∀ (u b g : Nat) (s s' : State) (y : Word),
    let ms := vget s.st.shadow.mx 0 0
    let room (w : State) : Prop := w.st.unretired .t < 63 ∧ (w.cluster w.cl).locks.length < 64
    (ReadyPlain g [b] s → sourcesOf [b] s = some ([y], s') → s'.core.tileOk u = true →
      (ptrBad y = true ∨ ptrDisagrees u (s'.core.geomOf u) y = false) → room s' →
      (s'.core.tileBusy u true = none →
        ∃ t o, exec (.tld u b g) s = .next t ∧ Issued .tld s t o ∧ o.cls = .t ∧ o.a = y ∧ o.n = u ∧ o.geoms = [word (s'.core.geomOf u)]) ∧
      (s'.core.tileBusy u false = none →
        ∃ t o, exec (.tst u b g) s = .next t ∧ Issued .tst s t o ∧ o.cls = .t ∧ o.a = y ∧ o.n = u ∧ o.geoms = [word (s'.core.geomOf u)])) ∧
    (ReadyPlain g [] s → s.core.tileOk u = true → s.core.tileBusy u true = none → room s →
      ∃ t o, exec (.tzero u g) s = .next t ∧ Issued .tzero s t o ∧ o.cls = .t ∧ o.n = u ∧ o.regs = [ms]) ∧
    (ReadyPlain g [b] s → sourcesOf [b] s = some ([y], s') → geomOk (s'.core.geomOf u) = true → fmtBlock (geomFmt (s'.core.geomOf u)) = true →
      room s' →
      (s'.core.tileBusy u true = none →
        ∃ t o, exec (.qnt u b g) s = .next t ∧ Issued .qnt s t o ∧ o.cls = .t ∧ o.a = y ∧ o.n = u ∧ o.regs = s'.st.shadow.qnt.toList) ∧
      (∃ t o, exec (.dqnt u b g) s = .next t ∧ Issued .dqnt s t o ∧ o.cls = .t ∧ o.a = y ∧ o.n = u ∧ o.regs = s'.st.shadow.qnt.toList)) ∧
    (∀ (a b batch acc g : Nat), ReadyPlain g [] s →
      let l := (s.cluster s.cl).lease
      let done (i : Instr) (kind : Nat) (zero : Bool) : Prop :=
        (l.holds s.leaseMe false = true → stepFail kind (s.core.geomOf a) (s.core.geomOf b) (s.core.geomOf (8 + acc)) = none →
          l.key = some s.leaseMe → l.over s.sys.now = false → (s.cluster s.cl).mxq.length < 16 → s.st.unretired .t < 63 →
          ∃ t o c, exec i s = .next t ∧ Issued .mxstep s t o ∧ o.op = batch ∧ o.n = acc ∧
            (t.cluster s.cl).mxq = (s.cluster s.cl).mxq ++ [c] ∧ c.id = o.id ∧ c.kind = kind ∧ c.zero = zero ∧ c.ta = a ∧ c.tb = b ∧
            c.acc = acc ∧ c.reg = ms ∧ c.fpctl = s.fpctl ∧ (t.cluster s.cl).lease.steps = l.steps + 1) ∧
        (l.holds s.leaseMe false = false → exec i s = .next (s.takeTrap { code := 9 }))
      done (.mxma a b batch acc g) 0 false ∧ done (.mxmaZ a b batch acc g) 0 true ∧ done (.mxmas a b batch acc g) 1 false ∧
      done (.mxmasZ a b batch acc g) 1 true ∧ done (.mxmt a b batch acc g) 2 false ∧ done (.mxmtZ a b batch acc g) 2 true)

/-- Outside a task, where a message of its kind, length and target is allowed, the outbound buffer has room, no earlier GLD or GST of the
strand is still to become a message, the target is reachable, and a kind that expects a reply finds a free reply entry and room for its
operation and is not sent by a handler that a kind-3 message started (a remote store also waits for accesses of the same scratchpad
doublewords), send and sendm complete: the message stands last in the outbound buffer with the header the fields give, the words of q1
padded with zeros as its payload and, for sendm, its rectangle, and q1 is empty. reply does the same to the source of the strand's
message, once. msg.len gives the capacity and the words read, msg.skip passes over the payload, msg.porch gives the porch segments; owner
gives the block's owner and offset, or sets p1. (R206, R207, R208, R209, R210, R211, R216, R217) -/
def Obligations.MessagesSent : Prop :=
  (∀ (pri ch fl h d kind g : Nat) (s : State), Ready g [h, d] s → s.st.task = none → sendAllowed pri ch (fl + 1) kind (s.g h) s = true →
    s.outFull = false → s.unsent s.sys.nextId = false →
    let rx := expects kind (s.g h)
    let dest := (s.g d).toNat % 2 ^ 24
    let cls : Cls := if kind = 1 then .s else .m
    let sent (t : State) (dst : Nat) (rc : Option Nat) (kd p c f : Nat) : Prop := ∃ e, t.core.ni.outb = s.core.ni.outb ++ [e] ∧ e.strand = s.k ∧ e.msg.rect = rc ∧
      e.msg.h0 = header0 kd p c f s.st.tron false ((s.g h).toNat % 2 ^ 48) ∧ e.msg.h1 = header1 dst s.here s.st.csr.jobno.toNat ∧
      e.msg.pay = padTo (4 * f - 3) s.st.q1 ∧ t.st.q1 = [] ∧ t.st.pc = (s.st.pc + 4) % 2 ^ 48
    (s.reaches dest = true → (rx = true → s.hpStarted = false ∧ s.replyFree = true ∧ s.st.unretired cls < 63 ∧ (kind = 6 → s.st.promised < 16)) →
      (kind = 1 → s.behind s.sys.nextId dest (some ch) [((s.g h).toNat % 2 ^ 18, (s.st.q1.getD 0 0).toNat % 256)] = false) →
      ∃ t, exec (.send pri ch fl h d kind g) s = .next t ∧ sent t dest none kind pri ch (fl + 1)) ∧
    (∀ w, s.crew = some w → kind = 0 ∨ kind = 1 → (kind = 0 → bit (s.g h).toNat 63 = false) →
      let r := (s.g d).toNat % 2 ^ 48
      bits r 11 0 ≤ bits r 35 24 → bits r 23 12 ≤ bits r 47 36 → inRect (pack (bits r 11 0) (bits r 23 12)) w.x0 w.y0 w.x1 w.y1 = true →
      inRect (pack (bits r 35 24) (bits r 47 36)) w.x0 w.y0 w.x1 w.y1 = true →
      (kind = 1 → s.hpStarted = false ∧ s.replyFree = true ∧ s.st.unretired .s < 63 ∧
        ∀ o ∈ s.st.ops, o.complete = false → s.scratchAny o = true → o.onChannel ch = true) →
      ∃ t, exec (.sendm pri ch fl h d kind g) s = .next t ∧ sent t (pack (bits r 11 0) (bits r 23 12)) (some r) kind pri ch (fl + 1))) ∧
  (∀ (fl h g : Nat) (s : State) (m : Msg), ReadyPlain g [h] s → s.st.start = some m → m.kind ≠ 3 → m.kind ≠ 7 → s.st.replied = false →
    s.st.q1.length ≤ 4 * (fl + 1) - 3 → fl < 4 → (s.g h).toNat % 4 = 0 → s.outFull = false → s.unsent s.sys.nextId = false →
    ∃ t e, exec (.reply fl h g) s = .next t ∧ t.core.ni.outb = s.core.ni.outb ++ [e] ∧ e.msg.h0 = header0 3 1 m.ch (fl + 1) s.st.tron false ((s.g h).toNat % 2 ^ 48) ∧
      e.msg.h1 = header1 m.src s.here s.st.csr.jobno.toNat ∧       e.msg.pay = padTo (4 * (fl + 1) - 3) s.st.q1 ∧ t.st.replied = true ∧ t.st.q1 = [] ∧ t.st.pc = (s.st.pc + 4) % 2 ^ 48) ∧
  (∀ (d g : Nat) (s : State), Ready g [d] s →
    exec (.msgLen d g) s = .next (s.setG d (word (s.st.capOf + min s.st.q0 s.st.capOf * 2 ^ 8))).advance ∧
    exec (.msgPorch d g) s = .next (s.setG d (word (s.core.porchSegments s.st.porchKey))).advance) ∧
  (∀ (g : Nat) (s : State), Ready g [] s →
    ∃ t, exec (.msgSkip g) s = .next t ∧ t.st.q0 = s.st.capOf ∧ t.st.pc = (s.st.pc + 4) % 2 ^ 48) ∧
  (∀ (d a b g : Nat) (s s' : State) (x y : Word) (ps : List (Nat × Nat)), Ready g [d, a, b] s → sourcesOf [a, b] s = some ([x, y], s') →
    y.toNat % 16 = 0 → LocalClear (y.toNat % 2 ^ 18) 16 true false ps s' →
    let v := wordOfBytes (s'.core.readPieces ps)
    let (x0, y0, x1, y1) := (bits v 11 0, bits v 23 12, bits v 35 24, bits v 47 36)
    let size := bits (v / 2 ^ 64) 23 0
    let blk := x.toNat / size
    let w := x1 - x0 + 1
    let n := w * (y1 - y0 + 1)
    let off := bits (v / 2 ^ 64) 43 26 + (blk / n * size + x.toNat % size) * 2 ^ bits (v / 2 ^ 64) 25 24
    let c := blk % n
    let cx := if v.testBit 48 then x0 + c / (y1 - y0 + 1) else x0 + c % w
    let cy := if v.testBit 48 then y0 + c % (y1 - y0 + 1) else y0 + c / w
    v % 2 ^ 64 < 2 ^ 49 → v / 2 ^ 64 < 2 ^ 44 → size ≠ 0 → x0 ≤ x1 → y0 ≤ y1 →
    (off < 2 ^ 18 → ∀ t, writeOf d (word (off * 2 ^ 32 + cy * 2 ^ 12 + cx)) (s'.setP 1 false) = some t →
      exec (.owner d a b g) s = .next t.advance) ∧
    (2 ^ 18 ≤ off → exec (.owner d a b g) s = .next (s'.setP 1 true).advance))

/-- rst, rld and the eight ramo forms trap ALIGN where the remote offset is no multiple of the size, (ramo.fadd where it is no multiple of 4)
and ILLEGAL class 2 in a handler that a kind-3 message started. Else, where a reply entry is free, the outbound buffer and the class have
room, no earlier GLD or GST of the strand is still to become a message and no earlier access touches the same doublewords of the target's
scratchpad, they complete: the operation is outstanding with its target core and offset, the reply entry is taken, and the request stands
last in the outbound buffer. (R213, R201) -/
def Obligations.RemoteAccessIssue : Prop :=
  ∀ (d a b sz sgn g : Nat) (s s' s2 : State) (x y v : Word), sz < 4 →
    let n := widthOf sz / 8
    let off := y.toNat % 2 ^ 18
    let room (c : Cls) (w : State) (m : Nat) : Prop := s.replyFree = true ∧ s.outFull = false ∧ s.st.unretired c < 63 ∧
      w.unsent w.sys.nextId = false ∧ w.behind w.sys.nextId (x.toNat % 2 ^ 24) (some 0) [(off, m)] = false
    let sent (i : Instr) (kind : OpKind) (k : Nat) : Prop :=
      ∃ t o e, exec i s = .next t ∧ Issued kind s t o ∧ o.target = x.toNat % 2 ^ 24 ∧ o.a = word off ∧ t.core.ni.outb = s.core.ni.outb ++ [e] ∧
        e.msg.h0 = header0 k 0 0 2 s.st.tron false off ∧ e.msg.h1 = header1 (x.toNat % 2 ^ 24) s.here s.st.csr.jobno.toNat ∧
        t.core.ni.reply.length = s.core.ni.reply.length + 1
    let three (i : Instr) (w : State) : Prop := (off % n ≠ 0 → exec i s = .next (s.takeTrap { code := 3 })) ∧
      (off % n = 0 → s.hpStarted = true → exec i s = .next (s.takeTrap (w.illegal 2)))
    (ReadyPlain g [a, b, d] s → sourcesOf [a, b, d] s = some ([x, y, v], s2) →
      three (.rst d a b sz g) s2 ∧ (off % n = 0 → s.hpStarted = false → room .s s2 n → sent (.rst d a b sz g) .rst 1)) ∧
    (ReadyPlain g [d, a, b] s → sourcesOf [a, b] s = some ([x, y], s') →
      three (.rld d a b sz sgn g) s' ∧ (off % n = 0 → s.hpStarted = false → room .l s' n → sent (.rld d a b sz sgn g) .rld 2) ∧
      (∀ i ∈ [Instr.ramoAdd d a b sz sgn g, .ramoMin d a b sz sgn g, .ramoMax d a b sz sgn g, .ramoAnd d a b sz sgn g, .ramoOr d a b sz sgn g,
          .ramoXor d a b sz sgn g, .ramoSwap d a b sz sgn g],
        three i s' ∧ (off % n = 0 → s.hpStarted = false → room .l s' n → sent i .ramo 4)) ∧
      (off % 4 ≠ 0 → exec (.ramoFadd d a b g) s = .next (s.takeTrap { code := 3 })) ∧
      (off % 4 = 0 → s.hpStarted = true → exec (.ramoFadd d a b g) s = .next (s.takeTrap (s'.illegal 2))) ∧
      (off % 4 = 0 → s.hpStarted = false → room .l s' 4 → sent (.ramoFadd d a b g) .ramo 4))

/-- Each of qenq, qenq.r, qclaim, qpub, qstat, qfreeze, qthaw and qskip, with nothing awaited, no earlier GLD or GST still to become a
message, and room for a reply, a message and an operation of class M, enters its request and waits at its pc. With an answer at hand that
is no trap it completes: qenq.r and qstat write the answer's value; qclaim loads the wide register with the entry and clears p1 and its
predicate, sets p1 and clears its predicate where the queue is empty, and where it is frozen sets both, or with p0 for a predicate traps
QUEUE_FROZEN (code 0x0E); qskip loads the entry and clears p1, or sets p1; a full queue makes qenq and qenq.r wait to ask again. (R262,
R263) -/
def Obligations.QueueInstructions : Prop :=
  ∀ (d a b p g : Nat) (s s' s2 : State) (h x : Word) (pay : List Word) (n at_ : Nat),
    let asks (w : State) (i : Instr) : Prop := w.st.waiting = .none → w.hpStarted = false → w.replyFree = true → w.outFull = false →
      w.unsent w.sys.nextId = false → w.st.unretired .m < 63 →
      ∃ t, exec i s = .next t ∧ t.st.waiting = .answer 0 none 0 ∧ t.st.life = .wait ∧ t.st.pc = s.st.pc ∧
        t.core.ni.outb.length = s.core.ni.outb.length + 1
    let answered : Prop := s'.st.waiting = .answer n (some pay) at_ ∧ answerTrap s' pay = none
    let answered2 : Prop := s2.st.waiting = .answer n (some pay) at_ ∧ answerTrap s2 pay = none
    let value := pay.getD 1 0
    let entry : Wide := answerEntry pay
    (ReadyPlain g [a] s → sourcesOf [a] s = some ([h], s') →
      asks s' (.qenq a b g) ∧ asks s' (.qclaim d a p g) ∧ asks s' (.qfreeze a g) ∧ asks s' (.qthaw a g) ∧ asks s' (.qskip d a g) ∧
      (answered → answerCode pay ≠ 1 → exec (.qenq a b g) s = .next s'.advance) ∧
      (answered → answerCode pay = 1 → ∃ t, exec (.qenq a b g) s = .next t ∧ t.st.life = .wait ∧
        t.st.waiting = .answer 0 none (s'.afterCycles 256)) ∧
      (answered → answerCode pay ≠ 2 → answerCode pay ≠ 3 → ∃ t, exec (.qclaim d a p g) s = .next t ∧ t.w d = (s'.setW d entry).w d ∧
        t.p 1 = false ∧ (p % 8 ≠ 0 → t.p p = false) ∧ t.st.claimed = some (h.toNat % 2 ^ 32, value.toNat, entry)) ∧
      (answered → answerCode pay = 2 → exec (.qclaim d a p g) s = .next ((s'.setP 1 true).setP p false).advance) ∧
      (answered → answerCode pay = 3 → p % 8 ≠ 0 → exec (.qclaim d a p g) s = .next ((s'.setP 1 true).setP p true).advance) ∧
      (answered → answerCode pay = 3 → p % 8 = 0 → exec (.qclaim d a p g) s = .next ((s.setP 1 true).takeTrap { code := 0x0E })) ∧
      (answered → exec (.qfreeze a g) s = .next s'.advance ∧ exec (.qthaw a g) s = .next s'.advance) ∧
      (answered → answerCode pay = 2 → exec (.qskip d a g) s = .next (s'.setP 1 true).advance) ∧
      (answered → answerCode pay ≠ 2 → exec (.qskip d a g) s = .next ((s'.setW d entry).setP 1 false).advance)) ∧
    (ReadyPlain g [d, a] s → sourcesOf [a] s = some ([h], s') →
      asks s' (.qenqR d a b g) ∧ asks s' (.qstat d a g) ∧
      (answered → answerCode pay = 1 → ∃ t, exec (.qenqR d a b g) s = .next t ∧ t.st.life = .wait ∧
        t.st.waiting = .answer 0 none (s'.afterCycles 256)) ∧
      (answered → answerCode pay ≠ 1 → exec (.qenqR d a b g) s = .next (s'.setG d value).advance) ∧
      (answered → exec (.qstat d a g) s = .next (s'.setG d value).advance)) ∧
    (ReadyPlain g [a, b] s → sourcesOf [a, b] s = some ([h, x], s2) →
      asks s2 (.qpub a b g) ∧ (answered2 → exec (.qpub a b g) s = .next s2.advance))

/-- Each atomic, compare-and-swap and reduction but the accumulator forms (FADDX, FRDX) traps ALIGN (code 3) where its address is no multiple
of the operation's width. Else each of them, and each accumulator form and barrier arrival at any address, completes where no access to
another synchronisation engine is outstanding and the class has room, with the operation outstanding, holding pointer and operands. With
no synchronisation access of the strand outstanding, on a barrier cell in scope, bar.wait completes where the cell's phase has passed its
argument and else waits, and bar.test completes with its predicate saying so; a waiting bar.wait completes once the phase has released it,
and traps once a store to the cell has (PROT). (R247, R248, R250, R253, R255) -/
def Obligations.SyncIssue : Prop :=
  ∀ (d a b c sz fmt g : Nat) (s s' s2 : State) (x y z : Word), sz < 4 → fmt < 3 →
    let n := widthOf sz / 8
    let w := (fmtOf fmt).width / 8
    let one : Prop := ∀ o ∈ s'.st.ops, o.complete = false → s'.syncOp o = true → o.target = s'.engineOf x
    let issues (i : Instr) (kind : OpKind) (k : Cls) (op m : Nat) : Prop := one → s.st.unretired k < 63 →
      ∃ t o, exec i s = .next t ∧ Issued kind s t o ∧ o.cls = k ∧ o.op = op ∧ o.a = x ∧ o.b = y ∧ o.n = m
    let whole (i : Instr) (kind : OpKind) (k : Cls) (op : Nat) : Prop :=
      (x.toNat % n = 0 → issues i kind k op n) ∧ (x.toNat % n ≠ 0 → exec i s = .next (s.takeTrap { code := 3 }))
    let float (i : Instr) (kind : OpKind) (k : Cls) (op : Nat) : Prop :=
      (x.toNat % w = 0 → issues i kind k op fmt) ∧ (x.toNat % w ≠ 0 → exec i s = .next (s.takeTrap { code := 3 }))
    (ReadyPlain g [d, a, b] s → sourcesOf [a, b] s = some ([x, y], s') →
      whole (.amoAdd d a b sz g) .amo .l 0 ∧ whole (.amoMin d a b sz g) .amo .l 1 ∧ whole (.amoMax d a b sz g) .amo .l 2 ∧
      whole (.amoMinz d a b sz g) .amo .l 3 ∧ whole (.amoMaxz d a b sz g) .amo .l 4 ∧ whole (.amoAnd d a b sz g) .amo .l 5 ∧
      whole (.amoOr d a b sz g) .amo .l 6 ∧ whole (.amoXor d a b sz g) .amo .l 7 ∧ whole (.amoSwap d a b sz g) .amo .l 8 ∧
      issues (.famoFaddx d a b fmt g) .famo .l 0 fmt ∧ float (.famoFmin d a b fmt g) .famo .l 1 ∧
      float (.famoFmax d a b fmt g) .famo .l 2 ∧ issues (.famoFrdx d a b fmt g) .famo .l 3 fmt) ∧
    (ReadyPlain g [a, b] s → sourcesOf [a, b] s = some ([x, y], s') →
      whole (.redAdd a b sz g) .red .s 0 ∧ whole (.redMin a b sz g) .red .s 1 ∧ whole (.redMax a b sz g) .red .s 2 ∧
      whole (.redMinz a b sz g) .red .s 3 ∧ whole (.redMaxz a b sz g) .red .s 4 ∧ whole (.redAnd a b sz g) .red .s 5 ∧
      whole (.redOr a b sz g) .red .s 6 ∧ whole (.redXor a b sz g) .red .s 7 ∧ issues (.redFaddx a b fmt g) .redf .s 0 fmt ∧
      float (.redFmin a b fmt g) .redf .s 1 ∧ float (.redFmax a b fmt g) .redf .s 2) ∧
    (ReadyPlain g [d, a, b, c] s → sourcesOf [a, b, c] s = some ([x, y, z], s') →
      (x.toNat % bytesOfSize sz ≠ 0 → exec (.amocas d a b c sz g) s = .next (s.takeTrap { code := 3 })) ∧
      (x.toNat % bytesOfSize sz = 0 → one → s.st.unretired .l < 63 →
        ∃ t o, exec (.amocas d a b c sz g) s = .next t ∧ Issued .amocas s t o ∧ o.cls = .l ∧ o.a = x ∧ o.b = y ∧ o.c = z ∧ o.d = destOf d ∧
          o.n = bytesOfSize sz)) ∧
    (ReadyPlain g [d, a] s → sourcesOf [a] s = some ([x], s') → one → s.st.unretired .l < 63 →
      (∃ t o, exec (.barArr d a g) s = .next t ∧ Issued .arrive s t o ∧ o.op = 0 ∧ o.a = x ∧ o.d = destOf d) ∧
      (∃ t o, exec (.barDrop d a g) s = .next t ∧ Issued .arrive s t o ∧ o.op = 1 ∧ o.a = x ∧ o.d = destOf d)) ∧
    (∀ key, ReadyPlain g [a, b] s → sourcesOf [a, b] s = some ([x, y], s') →
      (∀ o ∈ s'.st.ops, o.complete = false → s'.syncOp o = false) → s'.st.waiting = .none → s'.syncAt x true true = (s2, .cell key 0) → s2.cellType key = 2 → s2.scopeSpans (s2.physN (key + 8) 8) = false →
      let phase := s2.physN (key + 24) 8 % 2 ^ 32
      (phasePast phase (y.toNat % 2 ^ 32) = true →
        exec (.barWait a b g) s = .next (s2.phaseDone key (y.toNat % 2 ^ 32)).recordGate.advance ∧
        ∀ p, exec (.barTest p a b g) s = .next ((s2.phaseDone key (y.toNat % 2 ^ 32)).recordGate.setP p true).advance) ∧
      (phasePast phase (y.toNat % 2 ^ 32) = false →
        (∃ t, exec (.barWait a b g) s = .next t ∧ t.st.life = .wait ∧ t.st.waiting = .barrier key (y.toNat % 2 ^ 32) none ∧ t.st.pc = s.st.pc) ∧
        ∀ p, exec (.barTest p a b g) s = .next (s2.setP p false).advance)) ∧
    (∀ key m, ReadyPlain g [a, b] s → sourcesOf [a, b] s = some ([x, y], s') →
      (s'.st.waiting = .barrier key m (some true) → exec (.barWait a b g) s = .next (s'.phaseDone key m).recordGate.advance) ∧
      (s'.st.waiting = .barrier key m (some false) →
        exec (.barWait a b g) s = .next (s.takeTrap { s'.selfErr 2 6 with addr := word (x.toNat % 2 ^ 48) })))

/-- tspawn with at most five words in q1, an aligned handler and a timestamp no earlier than the running task's completes with the spawn
outstanding and q1 empty. task.gvt gives the job's last global virtual time, all ones where it has none, and in a task never more than its
own timestamp; task.ts gives the running task's timestamp and clears p1, or 0 with p1 set. gang forms when every other core of the aligned
row segment waits for it on a die in no relock, sets p1 where the crew's rectangle has no such segment or its 65,536 cycles have passed,
and else waits; disband leaves the gang. At its first try nget or nput of a target inside the crew that is ready reads its register or
scratchpad doubleword, or writes it, and clears p1, where nothing hinders the scratchpad access; it waits for 16 cycles to ask again where
the target is not ready, and sets p1 where it lies outside the crew. (R145, R149, R150, R268, R279) -/
def Obligations.TasksAndGangs : Prop :=
  (∀ (d a b g : Nat) (s : State), Ready g [d, a, b] s → s.st.q1.length ≤ 5 → (s.g a).toNat % 4 = 0 →
    (∀ r, s.st.task = some r → r.ts ≤ (s.g b).toNat) → s.st.unretired .s < 63 →
    ∃ t o, exec (.tspawn d a b g) s = .next t ∧ Issued .spawn s t o ∧ o.a = word ((s.g a).toNat % 2 ^ 48) ∧ o.b = s.g b ∧
      o.regs = padTo 5 s.st.q1 ∧ t.st.q1 = []) ∧
  (∀ (d g : Nat) (s : State), Ready g [d] s →
    let gvt : Nat := ((s.sys.gvts.find? fun e => e.1 == s.myJob).map (·.2)).getD (2 ^ 64 - 1)
    (∀ r, s.st.task = some r → exec (.taskTs d g) s = .next ((s.setG d (word r.ts)).setP 1 false).advance ∧
      exec (.taskGvt d g) s = .next (s.setG d (word (min gvt r.ts))).advance) ∧
    (s.st.task = none → exec (.taskTs d g) s = .next ((s.setG d 0).setP 1 true).advance ∧
      exec (.taskGvt d g) s = .next (s.setG d (word gvt)).advance)) ∧
  (∀ (g : Nat) (s : State), ReadyPlain g [] s →
    let forms (i : Instr) (n : Nat) : Prop :=
      (s.gangLeft n = none → exec i s = .next (s.setP 1 true).advance) ∧
      (∀ l m u, s.gangLeft n = some l → s.st.waiting = .gang m u → u ≤ s.sys.now → exec i s = .next (s.setP 1 true).advance) ∧
      (∀ l, s.gangLeft n = some l → s.st.waiting = .none →
        let others := ((List.range n).map fun j => pack (l + j) s.core.y).filter fun c => c != s.here
        let all := others.all fun c => (vget (s.coreAt c).strands s.k {}).wantsGang n s.sys.now && (s.die (s.dieKey c)).relock.isNone
        (all = true → exec i s = .next (s.formGang n l)) ∧
        (all = false →
          ∃ t, exec i s = .next t ∧ t.st.life = .wait ∧ t.st.waiting = .gang n (s.afterCycles 65536)))
    forms (.gang2 g) 2 ∧ forms (.gang4 g) 4 ∧ forms (.gang8 g) 8 ∧ exec (.disband g) s = .next s.ungang.advance) ∧
  (∀ (d a b g : Nat) (s : State) (w : Crew), s.crew = some w →
    let inside (x : Word) : Bool := inRect (x.toNat % 2 ^ 24) w.x0 w.y0 w.x1 w.y1
    let later (i : Instr) : Prop := ∃ t u, exec i s = .next t ∧ t.st.life = .wait ∧ t.st.waiting = .neighbour u (s.afterCycles 16) ∧ t.st.pc = s.st.pc
    (∀ (v : State) (x : Word), ReadyPlain g [d, a] s → sourcesOf [a] s = some ([x], v) → v.st.waiting = .none →
      let c := x.toNat % 2 ^ 24
      let u := v.setP 1 false
      (inside x = false → exec (.ngetG d a b g) s = .next (v.setP 1 true).advance) ∧
      (inside x = true → v.neighbourReady c = false → later (.ngetG d a b g)) ∧
      (inside x = true → v.neighbourReady c = true → exec (.ngetG d a b g) s = .next (u.setG d ((u.focus c u.k).g b)).advance)) ∧
    (∀ (v : State) (x y : Word), ReadyPlain g [d, a, b] s → sourcesOf [a, b] s = some ([x, y], v) → v.st.waiting = .none → y.toNat % 8 = 0 →
      let c := x.toNat % 2 ^ 24
      let off := y.toNat % 2 ^ 18
      let u := v.setP 1 false
      let free (wr : Bool) : Prop := u.behind u.sys.nextId c none [(off, 8)] = false ∧ u.lockedFor (u.clusterKey c) (scratchSide c) [(off, 8)] wr = none ∧
        ((u.coreAt c).racy = true → (u.coreAt c).racing [(off, 8)] u.me u.st.det = none) ∧ (u.coreAt c).softAt off 8 wr = none ∧
        (u.focus c u.k).sleeping [(off, 8)] = []
      (∀ i ∈ [Instr.ngetS d a b g, .nput d a b g], (inside x = false → exec i s = .next (v.setP 1 true).advance) ∧
        (inside x = true → v.neighbourReady c = false → later i)) ∧
      (inside x = true → v.neighbourReady c = true →
        (free false → exec (.ngetS d a b g) s = .next (u.setG d (word ((u.coreAt c).scratch.rdN off 8))).advance) ∧
        (free true → exec (.nput d a b g) s = .next (u.sideEffect.atCore c u.k fun q => q.modCore fun k =>
          if k.racy then (k.store off (bytesOfWord 8 (u.g d).toNat)).tagged [(off, 8)] u.me u.st.det
          else k.store off (bytesOfWord 8 (u.g d).toNat)).advance))))

/-- apass, asub, asub.nd, aunsub, trayput, trayget and aclose of a ready strand, where no scratchpad bank they read is gated, class C and the
completion records have room, and the lock and range tables have room, complete: one more operation of class C has been issued and the
strand goes on at the next word. (R282, R283, R285, R286, R290, R294) -/
def Obligations.AttentionIssue : Prop :=
  ∀ (a b g : Nat) (s : State),
    let regs := s.st.shadow.att.toList
    let op (kind : OpKind) (mod : Nat) (d : Option Nat) (a b : Nat) : Op := { kind := kind, cls := .c, a := s.g a, b := s.g b, op := mod, d := d, regs := regs, record := bit (regs.getD 7 0).toNat 0 }
    let goes (i : Instr) (o : Op) : Prop :=
      s.sleeping ((((s.attRanges o).1.flatMap fun r => (dwords r.1 (r.2 + 1 - r.1)).map fun d => (d * 8, 8)))) = [] →
      s.st.unretired .c < 63 → (o.record = true → s.st.promised < 16) → (s.cluster s.cl).locks.length < 64 →
      s.core.ranges.length + (s.attRanges o).1.length + (s.attRanges o).2.length + s.ownRanges o.attMemory.1 + s.ownRanges o.attMemory.2 ≤ 16 →
      ∃ t, exec i s = .next t ∧ t.st.issuedOf .c = s.st.issuedOf .c + 1 ∧ t.st.pc = (s.st.pc + 4) % 2 ^ 48 ∧ t.st.life = .run
    (ReadyPlain g [a] s → goes (.apass a g) (op .apass 0 (destOf a) 0 0) ∧ goes (.aclose a g) (op .aclose 0 none a 0)) ∧
    (ReadyPlain g [a, b] s →
      goes (.asub a b g) (op .asub 0 none a b) ∧ goes (.asubNd a b g) (op .asub 1 none a b) ∧ goes (.aunsub a b g) (op .aunsub 0 none a b) ∧
      goes (.trayput a b g) (op .trayput 0 none a b) ∧ goes (.trayget a b g) (op .trayget 0 none a b))

/-- trec completes with the recording begun and p1 clear where the core may record, and with p1 set where it may not; tend ends it. Outside a
recording tpatch and tguard do nothing; inside one they note a patch or a guard of an aligned address. treplay of a tape whose patch page
is a bad pointer reports it in its destination. trace sets the strand's trace bit, mark writes one trace record, dbg.set arms a slot of
the job with an aligned address, dbg.clr disarms it, and dbg.rd reads one of its two words. (R326, R327, R328, R329, R418, R423) -/
def Obligations.TapeAndDebug : Prop :=
  (∀ (a b g : Nat) (s s' s2 : State) (x y : Word),
    (ReadyPlain g [a] s → sourcesOf [a] s = some ([x], s') →
      (s'.mayRecord (x.toNat % 2 ^ 16) = none → exec (.trec a g) s = .next (s'.setP 1 true).advance) ∧
      (∀ w, s'.mayRecord (x.toNat % 2 ^ 16) = some w →
        exec (.trec a g) s = .next ((s'.beginRecording w (x.toNat % 2 ^ 16)).setP 1 false).advance) ∧
      (s'.core.tape.recording = none → exec (.tpatchA a g) s = .next s'.advance ∧ exec (.tpatchB a g) s = .next s'.advance) ∧
      (∀ n, s'.core.tape.recording = some n →
        let noted (i : Instr) (field : Nat) : Prop := ∃ t, exec i s = .next t ∧ t.core.tape.tpend = s'.core.tape.tpend ++ [(s.k, field, 0, x.toNat % 64)] ∧
          t.st.pc = (s.st.pc + 4) % 2 ^ 48
        noted (.tpatchA a g) 0 ∧ noted (.tpatchB a g) 1)) ∧
    (ReadyPlain g [a, b] s → sourcesOf [a, b] s = some ([x, y], s2) →
      (s2.core.tape.recording = none → exec (.tpatchE a b g) s = .next s2.advance ∧ exec (.tguard a b g) s = .next s2.advance ∧
        exec (.tguardEarly a b g) s = .next s2.advance) ∧
      (∀ n, s2.core.tape.recording = some n →
        (∃ t, exec (.tpatchE a b g) s = .next t ∧ t.core.tape.tpend = s2.core.tape.tpend ++ [(s.k, 2, y.toNat % 2 ^ 7, x.toNat % 64)]) ∧
        (x.toNat % 8 ≠ 0 → exec (.tguard a b g) s = .next (s.takeTrap { code := 3 })) ∧
        (x.toNat % 8 = 0 → ∀ i ∈ [Instr.tguard a b g, .tguardEarly a b g],
          ∃ t q, exec i s = .next t ∧ t.core.tape.guards = s2.core.tape.guards ++ [q] ∧ q.addr = x.toNat % 2 ^ 48 ∧ q.value = y))) ∧
    (∀ w, ReadyPlain g [a, b] s → s.crew = some w → sourcesOf [a, b] s = some ([x, y], s2) → ((s2.printOf s2.core).isSome = false ∨ s2.core.tape.fin = true) →
      s2.sys.prints = [] → bits y.toNat 53 48 ≠ 0 → ∀ t, writeOf a (word (0x0C + 4 * 2 ^ 8)) s2 = some t →
      exec (.treplay a b g) s = .next t.advance)) ∧
  (∀ (g : Nat) (s : State), ReadyPlain g [] s → exec (.tend g) s = .next s.endRecording.advance) ∧
  (∀ (a b slot h d g : Nat) (s s' s2 : State) (x y : Word),
    (Ready g [a] s → sourcesOf [a] s = some ([x], s') →
      exec (.trace a g) s = .next (s'.modSt fun t => { t with tron := x.toNat.testBit 0 }).advance) ∧
    (Ready g [a, b] s → sourcesOf [a, b] s = some ([x, y], s2) →
      exec (.mark a b g) s = .next (s2.trace 4 (x.toNat % 2 ^ 16) y).advance) ∧
    (∀ j, ReadyPlain g [a, b] s → sourcesOf [a, b] s = some ([x, y], s2) → s2.job = some j → bits x.toNat 60 48 = 0 → slot < 8 →
      (x.toNat % 4 = 0 → ∃ t, exec (.dbgSet slot a b g) s = .next t ∧ t.slotOf slot =
        { pc := x.toNat % 2 ^ 48, once := x.toNat.testBit 61, any := x.toNat.testBit 62, armed := true, task := y.toNat % 2 ^ 32, hits := 0 }) ∧
      (x.toNat % 4 ≠ 0 → exec (.dbgSet slot a b g) s = .next (s.takeTrap { code := 3 }))) ∧
    (∀ j, ReadyPlain g [] s → s.job = some j → slot < 8 → ∃ t, exec (.dbgClr slot g) s = .next t ∧ (t.slotOf slot).armed = false) ∧
    (ReadyPlain g [d] s → ∀ t, writeOf d (word ((s.slotOf slot).dw h)) s = some t → exec (.dbgRd d h slot g) s = .next t.advance))

/-- tlbinv and tlbinv.all trap PRIV (code 2) in a context without the invalidation right, tlbinv traps ALIGN for a range that is not made of
64 KiB pages and ADDR_OVF for one that leaves the address space, and completes at once for an empty range; else both wait for the
invalidation, and complete when it has ended. pgate.s gates exactly the scratchpad banks of its mask; pgate.w traps PRIV without its right
and else, where its bank holds no task's version, gates exactly the ways of its mask. ctxload and ctxsave trap PRIV without their right
and ALIGN for a misaligned address, complete with status 1 for context 0 and status 0x0406 for a bad pointer, and else, where the page is
at hand, load the descriptor they read, completing with its status (of a darkroom context only after a wait for its sealing, which a
security event turns into status 7), or write the context's descriptor, completing with status 0. (R345, R346, R366, R376) -/
def Obligations.SystemInstructions : Prop :=
  (∀ (a b g : Nat) (s s' : State) (x y : Word), ReadyPlain g [a, b] s → sourcesOf [a, b] s = some ([x, y], s') →
    let lo := x.toNat % 2 ^ 48
    let ok : Prop := s'.myCtx.right 8 = true ∧ lo % 65536 = 0 ∧ y.toNat % 65536 = 0 ∧ lo + y.toNat ≤ 2 ^ 48
    (s'.myCtx.right 8 = false → exec (.tlbinv a b g) s = .next (s.takeTrap { code := 2 })) ∧
    (s'.myCtx.right 8 = true → lo % 65536 ≠ 0 ∨ y.toNat % 65536 ≠ 0 → exec (.tlbinv a b g) s = .next (s.takeTrap { code := 3 })) ∧
    (s'.myCtx.right 8 = true → lo % 65536 = 0 → y.toNat % 65536 = 0 → 2 ^ 48 < lo + y.toNat →
      exec (.tlbinv a b g) s = .next (s.takeTrap { code := 4 })) ∧
    (ok → y = 0 → exec (.tlbinv a b g) s = .next s'.advance) ∧
    (ok → y ≠ 0 → s.st.waiting = .none → ∃ t, exec (.tlbinv a b g) s = .next t ∧ t.st.life = .wait ∧
      t.st.waiting = .inval lo (lo + y.toNat) false false) ∧
    (∀ p q r, ok → y ≠ 0 → s.st.waiting = .inval p q r true → exec (.tlbinv a b g) s = .next s'.advance)) ∧
  (∀ (g : Nat) (s : State), ReadyPlain g [] s →
    (s.myCtx.right 8 = false → exec (.tlbinvAll g) s = .next (s.takeTrap { code := 2 })) ∧
    (s.myCtx.right 8 = true → s.st.waiting = .none → ∃ t, exec (.tlbinvAll g) s = .next t ∧ t.st.life = .wait ∧
      t.st.waiting = .inval 0 (2 ^ 48) true false) ∧
    (∀ p q r, s.myCtx.right 8 = true → s.st.waiting = .inval p q r true → exec (.tlbinvAll g) s = .next s.advance)) ∧
  (∀ (a g : Nat) (s s' : State) (x : Word), ReadyPlain g [a] s → sourcesOf [a] s = some ([x], s') →
    (s'.core.gate < 2 ^ 32 → ∃ t, exec (.pgateS a g) s = .next t ∧ t.core.gate = x.toNat % 2 ^ 32 ∧ t.st.pc = (s.st.pc + 4) % 2 ^ 48) ∧
    (s'.myCtx.right 10 = false → exec (.pgateW a g) s = .next (s.takeTrap { code := 2 })) ∧
    (s'.myCtx.right 10 = true → (∀ v ∈ s.sys.versions, v.bank ≠ s.cl) → ∃ t, exec (.pgateW a g) s = .next t ∧ t.st.pc = (s.st.pc + 4) % 2 ^ 48 ∧
      ∀ w, (∃ c, (w, c) ∈ (t.cluster s.cl).ways) ↔ (1 ≤ w ∧ w < 16 ∧ x.toNat.testBit w = true))) ∧
  (∀ (d a b g : Nat) (s s' : State) (x p : Word), ReadyPlain g [d, a, b] s → sourcesOf [a, b] s = some ([x, p], s') →
    ∀ i ∈ [Instr.ctxload d a b g, .ctxsave d a b g],
      (s'.myCtx.right 11 = false → exec i s = .next (s.takeTrap { code := 2 })) ∧
      (s'.myCtx.right 11 = true → p.toNat % 64 ≠ 0 → exec i s = .next (s.takeTrap { code := 3 })) ∧
      (s'.myCtx.right 11 = true → p.toNat % 64 = 0 → x.toNat % 256 = 0 → ∀ t, writeOf d 1 s' = some t → exec i s = .next t.advance) ∧
      (s'.myCtx.right 11 = true → p.toNat % 64 = 0 → x.toNat % 256 ≠ 0 → bits p.toNat 53 48 ≠ 0 → ∀ t, writeOf d 0x406 s' = some t →
        exec i s = .next t.advance)) ∧
  (∀ (d a b g : Nat) (s s' : State) (x p : Word), ReadyPlain g [d, a, b] s → sourcesOf [a, b] s = some ([x, p], s') →
    s'.myCtx.right 11 = true → p.toNat % 64 = 0 → bits p.toNat 53 48 = 0 → x.toNat % 256 ≠ 0 →
    let dk := s'.dk / 4 * 4 + bits x.toNat 9 8
    (∀ w bs, s'.engineRead (s'.partyNow 0) (p.toNat % 2 ^ 48) 64 = (w, .ok bs) →
      let desc := (toWords 8 (wordOfBytes bs)).map (·.toNat)
      let r := w.ctxLoad dk (x.toNat % 256) desc
      let seals : Prop := r.2 = 0 ∧ desc.getD 0 0 % 4 = 3
      let goes : Prop := ∀ t, writeOf d (word r.2) r.1 = some t → exec (.ctxload d a b g) s = .next t.advance
      (s'.st.waiting = .none → ¬seals → goes) ∧ (s'.st.waiting = .seal false → goes) ∧
      (s'.st.waiting = .none → seals → ∃ t, exec (.ctxload d a b g) s = .next t ∧ t.st.life = .wait ∧ t.st.waiting = .seal false ∧ t.st.pc = s.st.pc) ∧
      (s'.st.waiting = .seal true → ∀ t, writeOf d 7 w = some t → exec (.ctxload d a b g) s = .next t.advance)) ∧
    (∀ w z, s'.engineWrite (s'.partyNow 1) (p.toNat % 2 ^ 48) ((s'.ctxSaved dk (x.toNat % 256)).flatMap (bytesOfWord 8)) = (w, .ok z) →
      ∀ t, writeOf d 0 w = some t → exec (.ctxsave d a b g) s = .next t.advance))

/-- treplay of a print that has not failed starts its core's stream with the strand as driver, or completes with status 0 where the core has
no stream, its part in the print over. REPLAY_ENTRY of a running stream performs its next entry. A GEOM entry sets a tile geometry; an
EREG entry sets a copy register (of CCTL bit 0) to the recorded value, or to its patch word where a declaration names the command that
follows it; a CMD entry that holds tzero issues it without a record; a DEP entry waits until the sender's stream has issued its count or
ended; at FINAL, with everything drained, treplay completes with status 0 and the stream is over; a reserved type fails the print with
ILLEGAL class 2. In a print that has failed the stream ends and treplay traps with the code of the failure. Only the pos of the stream and
what the entry names change: the registers and the pc of the driver stay. (R23, R24, R329, R332, R335, R337) -/
def Obligations.TapeReplay : Prop :=
  (∀ (a b g : Nat) (s s2 : State) (x y : Word) (w : Crew) (p : Print), ReadyPlain g [a, b] s → sourcesOf [a, b] s = some ([x, y], s2) →
    s2.crew = some w → (s2.printOf s2.core = none ∨ s2.core.tape.fin = true) →
    (s2.sys.prints.find? fun q => q.crew == w.id && q.num == x.toNat % 2 ^ 16 && !q.launch) = some p → s2.here ∉ p.ended → p.failed = none →
    ((s2.die p.die).negStream p.entry (w.uvOf s2.here) = none → ∀ t, writeOf a 0 (s2.endPart p w) = some t → exec (.treplay a b g) s = .next t.advance) ∧
    (∀ o, (s2.die p.die).negStream p.entry (w.uvOf s2.here) = some o → exec (.treplay a b g) s = .next (s2.drive p.id a))) ∧
  (∀ (s : State) (p : Print) (w : Crew) (off n : Nat), s.inMesh s.here = true → s.k < 16 → s.printOf s.core = some p → s.crew = some w →
    s.core.tape.driver = s.k → s.core.tape.fin = false →
    let pos := s.core.tape.pos
    let entry (i : Nat) : TapeEntry := (s.die p.die).negEntry p.entry off i
    let e := entry pos
    let run := exec (.replayEntry s.here s.k) s
    (p.failed = none → (s.die p.die).negStream p.entry (w.uvOf s.here) = some (off, n) → pos < n →
      (∀ i, i < 8 → e.kind = 4 → e.word = 0x30 + i → ∃ t : State, run = .next t ∧ vget t.core.tgeom i 0 = word (e.value.toNat % 2 ^ 26) ∧
        t.core.tape.pos = pos + 1 ∧ t.st = s.st) ∧
      (∀ i c, i < 8 → e.kind = 3 → bits e.word 15 8 = 0 → bits e.word 7 0 = i → pos < c → c < pos + 64 →
        (∀ j, pos ≤ j → j < c → (entry j).kind = 3) → (entry c).kind ≠ 3 →
        let v := s.patched p w 2 i c e.value
        ∃ t : State, run = .next t ∧ vget t.st.shadow.copy i 0 = (if i = 7 then word (v.toNat % 2) else v) ∧ t.core.tape.pos = pos + 1 ∧
          t.st.g = s.st.g ∧ t.st.pc = s.st.pc) ∧
      (∀ u, u < 12 → e.kind = 1 → e.word = 0x6C * 2 ^ 25 + 2 * 2 ^ 18 + u * 2 ^ 13 → s.core.tileOk u = true → s.core.tileBusy u true = none →
        s.st.unretired .t < 63 → ∃ (t : State) (o : Op), run = .next t ∧ t.st.ops = s.st.ops ++ [o] ∧ o.kind = .tzero ∧ o.n = u ∧ o.record = false ∧
          t.core.tape.pos = pos + 2 + e.arg ∧ t.st.g = s.st.g ∧ t.st.pc = s.st.pc) ∧
      (∀ q ended, e.kind = 6 → s.streamAt p w (e.value.toNat % 2 ^ 24) = some (q, ended) →
        (ended = true ∨ e.value.toNat / 2 ^ 32 ≤ q → run = .next (s.modCore fun c => { c with tape := { c.tape with pos := pos + 1 } })) ∧
        (ended = false → q < e.value.toNat / 2 ^ 32 → run = .next s)) ∧
      (e.kind = 9 → p.launch = false → 0 < s.core.tape.dest → s.core.tape.dest < 28 → s.settled →
        ∃ t : State, run = .next t ∧ t.g s.core.tape.dest = 0 ∧ t.st.life = .run ∧ t.st.pc = (s.st.pc + 4) % 2 ^ 48 ∧ t.core.tape.fin = true) ∧
      (e.kind = 0 ∨ 10 < e.kind → ∃ (t : State) (q : Print) (f : Trap), run = .next t ∧ t.printOf t.core = some q ∧ q.failed = some f ∧ f.code = 1 ∧
        f.info = word (e.word % 2 ^ 32 + 2 * 2 ^ 32) ∧ t.core.tape.pos = pos)) ∧
    (∀ f, p.failed = some f → p.launch = false → ∃ u : State, run = .next ((u.takeTrap { code := f.code, info := f.info, sub := f.sub, addr := f.addr }).focus s.here s.k) ∧
      u.st = s.st ∧ u.core.tape.fin = true))

/-- Where the translation is at hand and allows it, a GLD completes with the extended bytes of the page, changing no memory, and a GST
completes having written its bytes. A GST of a task, with an entry free at the home bank, writes a version and no memory. A page walk in
flight, or one with room among the 64 of its cluster, that reaches a leaf puts it first in both translation buffers and asks for the
promotion it wants, one that finds nothing mapped fails the access with sub-code 1, and one that finds the page absent is tried again
after 10 microseconds. A fault record that waits in the buffer stays there while no queue is routed for it, and leaves it when the queue
takes its entries (R70, R71, R72, R78, R272, R363, R364, R395) -/
def Obligations.AccessesComplete : Prop :=
  (∀ (o : Op) (e : TlbEntry) (s : State), Waits o s → o.started = false → LeafClear o e s → s.st.task = none →
    (∀ bs, o.kind = .gld → s.readFrame e (e.serves o s) (o.a.toNat % 2 ^ 48) o.n = some bs →
      ∃ t, exec (.globalAccessComplete s.here s.k o.id) s = .next t ∧
        Retired o (some (extend (8 * o.n) o.sgn (wordOfBytes bs))) s t ∧ t.sys.mem = s.sys.mem) ∧
    (o.kind = .gst → ∃ t, exec (.globalAccessComplete s.here s.k o.id) s = .next t ∧ Retired o none s t ∧
      t.sys.mem = (s.writeFrame e (o.a.toNat % 2 ^ 48) (bytesOfWord o.n o.b.toNat)).sys.mem)) ∧
  (∀ (o : Op) (e : TlbEntry) (s : State) (r : TaskRef), Waits o s → o.started = false → LeafClear o e s → s.st.task = some r → e.type < 2 →
    s.pathHeld s.dk (e.leafDie s (o.a.toNat % 2 ^ 48)) = false →
    let va := o.a.toNat % 2 ^ 48
    let key := memKey e.type (e.home s) (e.pa va) / 8
    s.versionAt s.myJob key = none →
    (o.kind = .gst → (∀ x ∈ s.sys.readers, x.addr ≠ key / 8) →
      (s.sys.versions.filter fun v => v.bank == e.homeCluster s va).length < s.versionRoom (e.homeCluster s va) →
      ∃ t v, exec (.versionedAccess s.here s.k o.id) s = .next t ∧ Retired o none s t ∧ t.sys.mem = s.sys.mem ∧
        v ∈ t.sys.versions ∧ v.addr = key ∧ v.job = s.myJob ∧ v.task = (r.ts, r.id) ∧ v.mask = (2 ^ o.n - 1) * 2 ^ (va % 8)) ∧
    (∀ bs, o.kind = .gld → s.readFrame e (e.readHome s (s.cl / 144)) (va / 8 * 8) 8 = some bs →
      ∃ t x, exec (.versionedAccess s.here s.k o.id) s = .next t ∧
        Retired o (some (extend (8 * o.n) o.sgn (wordOfBytes bs / 2 ^ (8 * (va % 8))))) s t ∧ t.sys.mem = s.sys.mem ∧
        x ∈ t.sys.readers ∧ x.addr = key / 8 ∧ x.job = s.myJob ∧ x.task = (r.ts, r.id))) ∧
  (∀ (o : Op) (s : State), Waits o s → o.walks = true →
    let va := o.a.toNat % 2 ^ 48
    let done (i : Instr) (u : State) : Prop :=
      (∀ w e, u.walkIn s.gid va s.cl = (w, .leaf e) →
        ∃ t, exec i s = .next t ∧ t.core.dtlb = (e :: s.core.dtlb).take 64 ∧ (t.cluster s.cl).tlb2 = (e :: (w.cluster s.cl).tlb2).take 2048 ∧
          t.sys = (if e.promotes then w.wants e else w).sys ∧ t.st.ops.length = s.st.ops.length) ∧
      (∀ w, u.walkIn s.gid va s.cl = (w, .unmapped) →
        ∃ t p, exec i s = .next t ∧ p ∈ t.st.ops ∧ p.id = o.id ∧ p.complete = true ∧ p.fail = some (o.trapOf (copyErr 1 va))) ∧
      (∀ w, u.walkIn s.gid va s.cl = (w, .absent) →
        ∃ t p, exec i s = .next t ∧ p ∈ t.st.ops ∧ p.id = o.id ∧ p.complete = false ∧ p.absentAt = s.sys.now + 10000)
    (o.absentAt = 0 → s.cached va = none → o.walking = true ∨ s.walkRoom s.gid va s.cl = true →
      done (.pageWalkComplete s.here s.k o.id) (s.setWalking o false)) ∧
    (o.absentAt ≠ 0 → o.absentAt ≤ s.sys.now →
      done (.absentWalkRetry s.here s.k o.id) ((s.modOp o.id fun _ => { o with absentAt := 0 }).setWalking o false))) ∧
  (∀ (d : Nat) (s : State), s.isDie d = true → (∀ r ∈ (s.die d).faultBuf, s.faultRoute d ((r.getD 8 0).toNat % 256) = none) →
    ∃ t, exec (.faultBufferRetry d) s = .next t ∧ (t.die d).faultBuf = (s.die d).faultBuf ∧ t.sys = s.sys) ∧
  (∀ (d q i : Nat) (s w : State) (r : List Word), s.isDie d = true → (s.die d).faultBuf = [r] → s.faultRoute d ((r.getD 8 0).toNat % 256) = some (q, i) →
    let r := (r.take 7 ++ [(r.getD 7 0) + word (min (s.die d).lost 65535 * 2 ^ 32)]) ++ r.drop 8
    s.publishAll q i ((List.range ((r.length - 1) / 8)).map fun j =>
      ((r.drop (if j = 0 then 0 else 8 * j + 1)).take 8).flatMap fun x => bytesOfWord 8 x.toNat) = (w, true) →
    exec (.faultBufferRetry d) s = .next (w.modDie d fun x => { x with faultBuf := [], lost := 0 }))

/-- Where no older sync access of the strand is outstanding and the pointer names a sound cell that may be accessed, an atomic on a variable
of a plain cell writes the result of its operation, a compare and exchange the new value where the old one matches, and completes with the
old value; a floating-point minimum or maximum writes its result and marks the flags it raises. An arrival at a barrier with parties to
come counts itself and completes with the phase; the last one starts the next phase, expecting as many parties less those that dropped out
(R78, R244, R246, R247, R248, R249, R251, R252, R254, R256) -/
def Obligations.SyncAccessesComplete : Prop :=
  (∀ (o : Op) (s w : State) (key off : Nat), Waits o s → s.syncBehind o = false → o.absentAt ≤ s.sys.now →
    s.syncAt o.a (o.cls == .l) true = (w, .cell key off) → w.poisonedAt key 128 = false → w.cellType key = 0 → 16 ≤ off →
    let old := w.physN (key + off) o.n
    let done (v : Nat) : Prop := ∃ t, exec (.syncAccessPerformed s.here s.k o.id) s = .next t ∧ Retired o (some (word old)) s t ∧
      t.sys.mem = (w.setPhysN (key + off) o.n v).sys.mem
    ((o.kind = .amo ∨ o.kind = .red) → done (amoApply o.op (8 * o.n) old (o.b.toNat % 2 ^ (8 * o.n)))) ∧
    (o.kind = .amocas → done (if old = o.b.toNat % 2 ^ (8 * o.n) then o.c.toNat % 2 ^ (8 * o.n) else old))) ∧
  (∀ (o : Op) (s w : State) (key off : Nat), Waits o s → s.syncBehind o = false → o.absentAt ≤ s.sys.now →
    s.syncAt o.a (o.cls == .l) true = (w, .cell key off) → w.poisonedAt key 128 = false → w.cellType key = 0 → 16 ≤ off → (o.kind = .famo ∨ o.kind = .redf) → (o.op = 1 ∨ o.op = 2) →
    let f := fmtOf o.n
    let n := f.width / 8
    let old := w.physN (key + off) n
    let r := f.minmax (o.op = 2) 0 old (o.b.toNat % 2 ^ f.width)
    r.2 &&& enables o.fpctl = 0 →
    ∃ t, exec (.syncAccessPerformed s.here s.k o.id) s = .next t ∧ Retired o (some (word old)) s t ∧
      t.sys.mem = ((w.setPhysN (key + off) n r.1).cellFlags key r.2).sys.mem) ∧
  (∀ (o : Op) (s w : State) (key : Nat), Waits o s → s.syncBehind o = false → o.absentAt ≤ s.sys.now → o.kind = .arrive →
    s.syncAt o.a true true = (w, .cell key 0) → w.cellType key = 2 →
    let d2 := w.physN (key + 16) 8
    let d3 := w.physN (key + 24) 8
    let expect := d2 % 2 ^ 32
    let arrived := d2 / 2 ^ 32 + 1
    let drops := d3 / 2 ^ 32 + if o.op = 1 then 1 else 0
    let phase := d3 % 2 ^ 32
    let done (x y : Nat) : Prop := ∃ t, exec (.barrierArrival s.here s.k o.id) s = .next t ∧ Retired o (some (word phase)) s t ∧
      t.sys.mem = ((w.setPhysN (key + 16) 8 x).setPhysN (key + 24) 8 y).sys.mem
    expect ≠ 0 →
    (arrived = expect → done ((expect + 2 ^ 32 - drops % 2 ^ 32) % 2 ^ 32) ((phase + 1) % 2 ^ 32)) ∧
    (arrived ≠ expect → done (expect + arrived % 2 ^ 32 * 2 ^ 32) (phase + drops % 2 ^ 32 * 2 ^ 32)))

/-- A copy in range goes forward piece by piece and retires after its last; an empty one retires at once. An armed copy starts when no older
use of its tile is outstanding and puts its converted runs in the tile. TZERO clears a tile, TLD puts the rows of memory in it, TST writes
its rows to memory, QNT puts the image of the quantised blocks in it and DQNT writes its values to memory; each retires, and a written
tile is no longer poisoned. Said where no check fails and no enabled flag rises (R75, R80, R156, R160, R161, R162, R174, R176, R177) -/
def Obligations.CopiesAndTilesComplete : Prop :=
  ∀ (o : Op) (s : State), Waits o s → o.absentAt ≤ s.sys.now →
    let p := s.party o
    let g := (o.geoms.getD 0 0).toNat
    let va := o.a.toNat % 2 ^ 48
    let quiet (fl : Nat) : Prop := fl &&& enables o.fpctl = 0
    let move := exec (.copyPiece s.here s.k o.id) s
    let tile := exec (.tileCommandComplete s.here s.k o.id) s
    let quant := exec (.quantiseComplete s.here s.k o.id) s
    (o.kind = .copy → o.copy.check o.a o.b none = some none → ∃ t, move = .next t ∧ Retired o none s t ∧ t.sys.mem = s.sys.mem) ∧
    (∀ w d, o.kind = .copy → o.copy.check o.a o.b none = none → s.copyPiece p o.copy o.copied = (w, .ok d) → d.fail = none →
      (o.copy.total ≤ d.i → quiet d.fl → ∃ t, move = .next t ∧ Retired o none s t ∧ t.sys.mem = w.sys.mem) ∧
      (d.i < o.copy.total → ∃ t q, move = .next t ∧ q ∈ t.st.ops ∧ q.id = o.id ∧ q.complete = o.complete ∧ q.done = [d.i, d.fl, 0, d.i * o.copy.us] ∧
        q.fail = none ∧ t.sys.mem = w.sys.mem)) ∧
    (o.kind = .armed → o.started = false → s.core.tileBlocked o = false →
      ∃ t q, exec (.armedCopyStart s.here s.k o.id) s = .next t ∧ q ∈ t.st.ops ∧ q.id = o.id ∧ q.started = true) ∧
    (∀ w ws fl, o.kind = .armed → o.started = true → o.copy.check o.a o.b o.arm = none →
      armedRuns p o.copy (o.copy.runs * o.copy.planes) 0 s = (w, .ok ws fl) → blockCheck g (ws.flatMap (·.2)) = none → quiet fl →
      ∃ t, move = .next t ∧ Retired o none s t ∧ t.core.tiles =
        (if fmtDense (geomFmt g) then ws.foldl (fun c x => c.tilePut o.target (x.1 * rowPitch g) x.2) w.core
         else w.core.tilePut o.target 0 (ws.flatMap (·.2))).tiles) ∧
    (s.core.tileBlocked o = false →
      (o.kind = .tzero → ∃ t, tile = .next t ∧ Retired o none s t ∧ t.core.tiles = s.core.tiles.put (4096 * o.n) (List.replicate 4096 0) ∧
        t.core.poison = dropKey (·.1) o.n s.core.poison) ∧
      (let r := tileRows o.n g (o.regs.getD 0 0);
        ptrBad o.a = false → (boundRuns va r.stride r.n r.len).isSome = true →
        (∀ w bs, o.kind = .tld → readRows p va r r.n 0 s = (w, .ok bs) → (o.n < 8 → blockCheck g bs = none) →
          ∃ t, tile = .next t ∧ Retired o none s t ∧ t.core.tiles = (w.core.tileRowsPut o.n r bs).tiles ∧ t.core.poison = dropKey (·.1) o.n w.core.poison) ∧
        (∀ w x, o.kind = .tst → writeRows p va r r.n 0 (rowsOf r (s.core.tileBytes o.n)) s none = (w, .ok x) →
          ∃ t, tile = .next t ∧ Retired o none s t ∧ t.sys.mem = w.sys.mem)) ∧
      (let r := quantRows g (quantSize o.a) (o.regs.getD 1 0);
        let f := if quantSize o.a = 4 then f32 else bf16;
        ptrBad o.a = false → (ptrFmt o.a = 8 ∨ ptrFmt o.a = 10) → (boundRuns va r.stride r.n r.len).isSome = true →
        (∀ w bs img, o.kind = .qnt → 1 ≤ (o.regs.getD 0 0).toNat % 8 → (o.regs.getD 0 0).toNat % 8 ≤ 6 → readRows p va r r.n 0 s = (w, .ok bs) →
          let blocks := (chunks (2 ^ geomBlen g) 4096 (lanes (8 * quantSize o.a) (geomRows g * geomK g) (wordOfBytes bs))).map
            (quantBlock (quantSize o.a) g ((o.regs.getD 0 0).toNat % 8) o.fpctl)
          quantImage g blocks (w.core.tileBytes o.n) = .ok img → quiet (blocks.foldl (fun a b => a ||| b.flags) 0) →
          ∃ t, quant = .next t ∧ Retired o none s t ∧ t.core.tiles = w.core.tiles.put (4096 * o.n) img) ∧
        (∀ w x, o.kind = .dqnt → blockCheck g (s.core.tileBytes o.n) = none →
          let vals := (tileVals g (fizOf o.fpctl) false (s.core.tileBytes o.n)).flatten.map fun v => let y := f.pack o.fpctl v.1; (y.1, y.2 ||| v.2)
          writeRows p va r r.n 0 (bytesOfWord (quantSize o.a * vals.length) (ofLanes (8 * quantSize o.a) (vals.map (·.1)))) s none = (w, .ok x) →
          quiet (vals.foldl (fun a v => a ||| v.2) 0) → ∃ t, quant = .next t ∧ Retired o none s t ∧ t.sys.mem = w.sys.mem)))

/-- The oldest matrix step that does not execute yet, once no older use of its tiles is outstanding, executes: where no tile is poisoned and
no block is wrong, its sums and flags are those of the step over the two tiles and the accumulator. The one that executes completes: its
sums are in the accumulator's rows and its operation retires. An index command that no older one precedes, while no other of its cluster
is under way, writes all its results and retires. Said where no check fails and no enabled flag rises (R164, R165, R170, R182, R184, R186) -/
def Obligations.MatrixAndIndexComplete : Prop :=
  (∀ (cl : Nat) (m : MxCmd) (o : Op) (s : State), (s.cluster cl).mxq.find? (fun m => !m.executing) = some m → s.inMesh s.here = true → s.here = m.core → s.k = m.strand →
    s.st.opById m.id = some o → s.core.tileBlocked o = false →
    let a := s.core.tileBytes m.ta
    let b := s.core.tileBytes m.tb
    s.core.stepPoison m = none → tileCheck m.tgeomA.toNat a = none → tileCheck m.tgeomB.toNat b = none →
    ∃ t x, exec (.matrixStepExecute cl) s = .next t ∧ x ∈ (t.cluster cl).mxq ∧ x.id = m.id ∧ x.executing = true ∧
      (x.out, x.flags) = matrixStep m.kind m.fpctl m.tgeomA.toNat m.tgeomB.toNat m.ageom.toNat m.zero a b (s.core.tileBytes (8 + m.acc))) ∧
  (∀ (cl : Nat) (m : MxCmd) (o : Op) (s : State), (s.cluster cl).mxq.find? (fun m => m.executing) = some m → s.here = m.core → s.k = m.strand →
    s.st.opById m.id = some o → o.d = none → m.status = none → (m.flags % 32) &&& enables o.fpctl = 0 →
    ∃ t, exec (.matrixStepComplete cl) s = .next t ∧ Retired o none s t ∧ t.core.tiles = (s.core.tileRowsPut (8 + m.acc) (accRows m.ageom.toNat) m.out).tiles ∧
      (t.cluster cl).mxq = (s.cluster cl).mxq.filter fun x => x.id != m.id) ∧
  (∀ (o : Op) (s u w : State) (r : IdxOut) (x : List Byte), Waits o s → o.kind.engine = 2 → o.absentAt ≤ s.sys.now →
    (∀ q ∈ s.st.ops, q.kind.engine = 2 → q.complete = false → o.id ≤ q.id) → s.idxBusy o.id = false →
    (idxPlan o.op o.a o.b o.regs (s.idxNow (s.party o) o)).check = none → s.idxRun (s.party o) o = (u, .ok r) → r.fail = none →
    r.fl &&& enables o.fpctl = 0 → writeAll (s.party o) r.ws u none = (w, .ok x) →
    ∃ t, exec (.indexCommandComplete s.here s.k o.id) s = .next t ∧ Retired o none s t ∧ t.sys.mem = w.sys.mem)

/-- A request that arrives at the copy agent or the array agent, by its own event or as an engine command handed over, while it has room
stands last in the agent's queue, and one to an engine without an agent, or to the queue controller at a core that is not at its die's
corner, is answered with status 2 and the trap ILLEGAL, sub-code of the kind. The oldest request of the array agent first takes one of the
four places and an entry of the range locks, then loads its guest tiles, then, with the lease and the array idle, computes its step into
the guest accumulator, then stores its rows, and is answered with status 0 and its flags; the oldest of the copy agent takes its locks and
then copies piece by piece until it is answered so (R83, R164, R165, R178, R179, R205) -/
def Obligations.EngineAgents : Prop :=
  (∀ (i : Nat) (m : Msg) (s out : State), Arrives i m s out → m.kind = 6 →
    let cl := out.clusterKey m.dst
    (m.target = 1 → (out.cluster cl).agent.length < 64 → ∀ e ∈ [Instr.arrayAgentRequest i, .engineCommandHandoff i],
      ∃ t, exec e s = .next t ∧ (t.cluster cl).agent = (out.cluster cl).agent ++ [{ msg := m }] ∧ t.sys = out.sys) ∧
    (m.target = 3 → (out.cluster cl).copyAgent.length < 16 → ∀ e ∈ [Instr.copyAgentRequest i, .engineCommandHandoff i],
      ∃ t, exec e s = .next t ∧ (t.cluster cl).copyAgent = (out.cluster cl).copyAgent ++ [{ msg := m }] ∧ t.sys = out.sys) ∧
    (m.target ≠ 1 → m.target ≠ 3 → (m.target = 2 → s.dieCorner (s.dieKey m.dst) ≠ m.dst) →
      ∃ t, exec (.engineCommandHandoff i) s = .next t ∧ t.sys.flight = out.sys.flight ++ [(agentReply m 2 (some (plainTrap 1)) 0 0 .ni).stamped out.sys.now])) ∧
  (∀ (cl : Nat) (s : State) (r : AgentReq) (rest : List AgentReq), (s.cluster cl).copyAgent = r :: rest → r.op.absentAt ≤ s.sys.now → r.msg.copyOk = true →
    r.msg.copyOf.check (r.msg.word 1) (r.msg.word 2) none = none →
    (r.stage = 0 → (s.cluster cl).locks.length < 64 →
      ∃ t r' l, exec (.copyAgentReply cl) s = .next t ∧ (t.cluster cl).copyAgent = r' :: rest ∧ r'.stage = 1 ∧ r'.msg = r.msg ∧
        (t.cluster cl).locks = (s.cluster cl).locks ++ [l] ∧ l.issuer = r.msg.who) ∧
    (∀ w d, r.stage ≠ 0 → s.copyPiece (r.msg.party cl) r.msg.copyOf r.op.copied = (w, .ok d) → d.fail = none →
      (d.i < r.msg.copyOf.total → ∃ t r', exec (.copyAgentReply cl) s = .next t ∧ (t.cluster cl).copyAgent = r' :: rest ∧ r'.msg = r.msg ∧
        r'.op.done = [d.i, d.fl, 0, d.i * r.msg.copyOf.us] ∧ t.sys.mem = w.sys.mem) ∧
      (r.msg.copyOf.total ≤ d.i → d.fl &&& enables (r.msg.word 10).toNat = 0 →
        ∃ t, exec (.copyAgentReply cl) s = .next t ∧ (t.cluster cl).copyAgent = (w.cluster cl).copyAgent.drop 1 ∧ t.sys.mem = w.sys.mem ∧
          t.sys.flight = w.sys.flight ++ [(agentReply r.msg 0 none d.fl 0 .copyAgent).stamped w.sys.now]))) ∧
  (∀ (cl : Nat) (s : State) (r : AgentReq) (rest : List AgentReq), (s.cluster cl).agent = r :: rest → r.op.absentAt ≤ s.sys.now →
    let m := r.msg
    let ga := (m.word 1).toNat
    let gb := (m.word 2).toNat
    let gc := (m.word 3).toNat
    let n := r.op.n
    let fl := r.op.done.headD 0
    let g := (s.cluster cl).guest
    let run := exec (.arrayAgentReply cl) s
    (∀ j, r.stage = 0 → m.stepOk = true → stepFail m.stepKind ga gb gc = none → m.stepPtrs = none → (s.cluster cl).agentPlace = some j →
      (s.cluster cl).locks.length < 64 →
      ∃ t r' l, run = .next t ∧ (t.cluster cl).agent = r' :: rest ∧ r'.stage = 1 ∧ r'.msg = m ∧ r'.op.n = j ∧ t.sys.mem = s.sys.mem ∧
        (t.cluster cl).locks = (s.cluster cl).locks ++ [l] ∧ l.issuer = m.who) ∧
    (∀ w x, r.stage = 1 → s.agentLoad cl m n = (w, .ok x) → tileCheck ga ((w.cluster cl).guest.get (guestTile n 0) 4096) = none →
      tileCheck gb ((w.cluster cl).guest.get (guestTile n 1) 4096) = none →
      ∃ t r', run = .next t ∧ (t.cluster cl).agent = (w.cluster cl).agent.set 0 r' ∧ r'.stage = 2 ∧ r'.msg = m ∧ (t.cluster cl).guest = (w.cluster cl).guest) ∧
    (r.stage = 2 → (s.cluster cl).lease.key = some agentKey → (s.cluster cl).lease.over s.sys.now = false → (s.cluster cl).mxq.any (·.executing) = false →
      let x := matrixStep m.stepKind (m.word 8).toNat ga gb gc (!m.loadC) (g.get (guestTile n 0) 4096) (g.get (guestTile n 1) 4096) (g.get (guestAcc n) 4096)
      ∃ t r', run = .next t ∧ (t.cluster cl).agent = r' :: rest ∧ r'.stage = 3 ∧ r'.msg = m ∧ r'.op.done = [x.2] ∧
        (t.cluster cl).guest = g.put (guestAcc n) (layRows (agentRows 8 gc) x.1)) ∧
    (let rows := agentRows 8 gc;
      ∀ w y, r.stage = 3 → writeRows (m.party cl) ((m.word 7).toNat % 2 ^ 48) rows rows.n 0 (rowsOf rows (g.get (guestAcc n) 4096)) s none = (w, .ok y) →
        ∃ t r', run = .next t ∧ (t.cluster cl).agent = (w.cluster cl).agent.set 0 r' ∧ r'.stage = 4 ∧ r'.msg = m ∧ r'.op.fail = none ∧
          r'.op.done = [fl] ∧ t.sys.mem = w.sys.mem) ∧
    (r.stage = 4 → r.op.fail = none → fl &&& enables (m.word 8).toNat = 0 →
      ∃ t, run = .next t ∧ (t.cluster cl).agent = rest ∧ t.sys.flight = s.sys.flight ++ [(agentReply m 0 none fl 0 .arrayAgent).stamped s.sys.now]))

/-- A handler message goes last in its queue while there is room, else last in the cellar. A remote store writes its bytes in the scratchpad
and is answered; a remote load is answered with the bytes; an atomic writes its result and is answered with the old value; a code store
writes the instruction store and is answered. A message to a place outside the mesh comes back with cause 4. Each leaves the flight. Said
where the words are well-formed and no check of the network interface fails (R195, R198, R202, R215, R307, R308) -/
def Obligations.MessagesServed : Prop :=
  (∀ (i : Nat) (m : Msg) (s out : State), Arrives i m s out →
    let c := out.core
    let off := m.target % 2 ^ 18
    let n := 2 ^ ((m.word 0).toNat % 4)
    let after (e : Instr) (good : State → Core → Prop) : Prop := ∃ t, exec e s = .next t ∧ good t (t.coreAt m.dst)
    let answered (t : State) (group st : Nat) (v : Word) : Prop := t.sys.flight = out.sys.flight ++ [(replyTo m group [word st, v, 0, 0] .ni).stamped out.sys.now]
    let keyed : Msg := { m with key := s.sys.nextId + 1 }
    ((m.kind = 0 ∨ m.kind = 5) → m.porchLen = 0 → c.ni.cellar = [] → c.ni.infrz = false → c.ni.lpq.length < c.lpDepth →
      after (.messageDelivery i) fun t d => d.ni.lpq = c.ni.lpq ++ [keyed] ∧ d.ni.cellar = [] ∧ t.sys.flight = out.sys.flight) ∧
    ((m.kind = 0 ∨ m.kind = 5) → (c.lpDepth ≤ c.ni.lpq.length ∨ c.ni.infrz = true ∨ c.ni.cellar ≠ []) → c.ni.cellar.length < c.cellarRoom →
      after (.messageDelivery i) fun t d => d.ni.cellar = c.ni.cellar ++ [{ keyed with celled := true }] ∧ d.ni.lpq = c.ni.lpq ∧
        t.sys.flight = out.sys.flight) ∧
    (m.rect = none →
      (m.kind = 1 → bit m.target 47 = false →
        let len := (m.word 0).toNat
        let ps := if len ≤ 8 then [(off, len)] else (List.range (len / 8)).map fun i => (off + 8 * i, 8)
        len < 256 → storeLen len m.flits = true → m.target < 2 ^ 18 → off % min len 8 = 0 → off + len ≤ 2 ^ 18 →
        (out.chargeNow m).niChecks m off len true false = none → out.sleeping ps = [] →
        after (.remoteStore i) fun t d => d.scratch = c.scratch.put off (((m.pay.drop 1).flatMap fun w => bytesOfWord 8 w.toNat).take len) ∧
          answered t 0 0 (word m.target)) ∧
      (m.kind = 2 → (m.word 0).toNat < 4 → m.target < 2 ^ 18 → off % n = 0 → (out.chargeNow m).niChecks m off n false false = none →
        out.sleeping [(off, n)] = [] →
        after (.remoteLoad i) fun t d => d.scratch = c.scratch ∧ answered t 1 0 (word (c.scratch.rdN off n))) ∧
      (m.kind = 4 → (m.word 0).toNat < 2 ^ 7 → bits (m.word 0).toNat 5 2 < 7 → m.target < 2 ^ 18 → off % n = 0 →
        (out.chargeNow m).niChecks m off n true true = none → out.sleeping [(off, n)] = [] →
        let old := c.scratch.rdN off n
        let new := (ramoApply (bits (m.word 0).toNat 5 2) (8 * n) (bit (m.word 0).toNat 6) 0 old ((m.word 1).toNat % 2 ^ (8 * n))).1
        after (.remoteAtomic i) fun t d => d.scratch = c.scratch.put off (bytesOfWord n new) ∧ answered t 1 0 (word old))) ∧
    (m.rect = none → m.kind = 1 → bit m.target 47 = true → bits m.target 46 15 = 0 →
      let len := (m.word 0).toNat
      let at_ := m.target % 2 ^ 15
      len < 256 → len % 8 = 0 → storeLen len m.flits = true → at_ % 8 = 0 → at_ + len ≤ 2 ^ 15 →
      after (.instructionStoreWrite i) fun t d => d.istore = c.istore.put at_ (((m.pay.drop 1).flatMap fun w => bytesOfWord 8 w.toNat).take len) ∧
        answered t 0 0 (word m.target))) ∧
  (∀ (i : Nat) (m : Msg) (s : State), s.sys.flight[i]? = some m → s.deliverable i = true → s.inMesh m.dst = false → m.kind ≠ 3 →
    ∃ t, exec (.routerBounce i) s = .next t ∧ t.sys.flight = s.sys.flight.eraseIdx i ++ [({ bounceOf m 4 with mark := .router } : Msg).stamped s.sys.now])

/-- A completion without a trap retires the operation of its reply entry, a load's and an atomic's with the extended value; a reply to a
handler retires it too and goes last in the high-priority queue; a bounce fails it with the trap of its cause. The entry leaves the reply
table. A start message stands in the start slot, a freeze message freezes the incoming queue, and a preempt or fault message stops the
core of a crew that is being preempted, so that it parks, and changes nothing else of it but its sender table (R78, R203, R204, R309,
R322) -/
def Obligations.RepliesAndUnitMessages : Prop :=
  ∀ (i : Nat) (m : Msg) (s out : State), Arrives i m s out →
    let c := out.core
    let after (e : Instr) (good : State → Core → Prop) : Prop := ∃ t, exec e s = .next t ∧ good t (t.coreAt m.dst)
    (∀ (e : ReplyEntry) (rest : List ReplyEntry) (o : Op), m.kind = 3 → m.sub = 0 → m.rect = none → e.strand < 16 →
      let u := vget c.strands e.strand {}
      u.opById e.op = some o → o.complete = false →
      let gone (d : Core) : Prop := d.ni.reply = rest ∧ (vget d.strands e.strand {}).ops = u.ops.filter fun p => p.id != o.id
      let group := bits m.target 3 1
      (bit m.target 0 = true → group < 2 → c.ni.match_ group m.ch m.src (if group = 0 then some (m.word 1).toNat else none) = some (e, rest) →
        (m.word 0).toNat % 256 = 0 → (bits (m.word 0).toNat 20 16 &&& enables o.fpctl = 0 ∨ group = 0) →
        after (.completionReply i) fun _ d => gone d ∧ (group = 1 → ∀ x, o.d = some x → 0 < x → x < 28 →
          vget (vget d.strands e.strand {}).g x 0 = extend (8 * o.n) o.sgn (m.word 1).toNat)) ∧
      (bit m.target 0 = false → c.ni.match_ 3 m.ch m.src none = some (e, rest) →
        after (.handlerReply i) fun t d => gone d ∧ d.ni.hpq = c.ni.hpq ++ [{ m with key := s.sys.nextId + 1 }] ∧ t.sys.flight = out.sys.flight) ∧
      (let q : Msg := { h0 := m.word 1, h1 := m.word 2 };
        bit m.target 0 = true → group = 4 → c.ni.match_ (groupOf q.kind) q.ch q.dst none = some (e, rest) → o.kind ≠ .qop →
        after (.bounceReceive i) fun _ d => d.ni.reply = rest ∧ ∃ p ∈ (vget d.strands e.strand {}).ops, p.id = o.id ∧ p.complete = true ∧
          p.fail = some (o.trapOf (bounceTrap o ((m.word 0).toNat % 256))))) ∧
    (m.kind = 7 →
      (m.sub = 0 → after (.startMessage i) fun t d => d.ni.startSlot = some { m with release := none } ∧ t.sys.flight = out.sys.flight) ∧
      (m.sub = 2 → after (.freezeMessage i) fun _ d => d.ni.infrz = true) ∧
      (∀ w, out.crew = some w → w.life = .preempting →
        (m.sub = 1 → after (.preemptMessage i) fun _ d => d = { c with parking := true, sender := d.sender }) ∧
        (m.sub = 3 → after (.faultMessage i) fun _ d => d = { c with parking := true, sender := d.sender })))

/-- With a strand free, the next message, from the start slot, else from the high-priority queue, else from the low-priority one, starts the
lowest free strand at the pc it names with its header words and its first words in registers, and leaves its place. The oldest message of
the cellar goes last in the low-priority queue when there is room. The oldest outgoing message that may go leaves the outbound queue for
the flight, with its time. An instruction that cannot be fetched raises the fault of its reason (R20, R199, R212, R215, R307, R308) -/
def Obligations.DispatchAndInjection : Prop :=
  (∀ (m : Msg) (k : Nat) (s : State), s.inMesh s.here = true → s.core.freeStrandNo = some k → m.run = none → m.target % 4 = 0 →
    let ni := s.core.ni
    let up (i : Nat) : Word := if i = 1 then m.h1 else if i = 2 then m.h2 else m.word (i - 3)
    let started (t : State) : Prop :=
      let u := vget t.core.strands k {}
      u.pc = m.target ∧ u.life = .run ∧ (∀ i, 1 ≤ i → i ≤ 7 → vget u.g i 0 = up i) ∧ u.csr.taskid = word m.task ∧ u.csr.jobno = word m.job ∧
        u.start = some { m with seq := ni.inseq } ∧ u.q0 = 5 ∧ u.q1 = [] ∧ u.q2 = [] ∧ u.ops = []
    let go := exec (.dispatch s.here) s
    (s.core.nextUp = some (.start m) → ∃ t, go = .next t ∧ started t ∧ t.core.ni.startSlot = none ∧ t.core.ni.inseq = (ni.inseq + 1) % 2 ^ 32) ∧
    (s.core.nextUp = some (.hp m) → ∃ t, go = .next t ∧ started t ∧ t.core.ni.hpq = ni.hpq.drop 1) ∧
    (s.core.nextUp = some (.lp m) → ∃ t, go = .next t ∧ started t ∧ t.core.ni.lpq = ni.lpq.drop 1)) ∧
  (∀ (m : Msg) (rest : List Msg) (s : State), s.inMesh s.here = true → s.core.ni.cellar = m :: rest →
    s.core.ni.lpq.length < s.core.lpDepth → m.porchLen = 0 →
    ∃ t, exec (.cellarDrain s.here) s = .next t ∧ t.core.ni.cellar = rest ∧ t.core.ni.lpq = s.core.ni.lpq ++ [m]) ∧
  (∀ (o : Outgoing) (s : State), s.inMesh s.here = true → s.core.ni.outb.find? (fun o => o.held.isNone) = some o → o.msg.rect = none →
    ∃ t, exec (.messageInject s.here) s = .next t ∧ t.core.ni.outb = s.core.ni.outb.erase o ∧
      t.sys.flight = s.sys.flight ++ [{ o.msg with h2 := word (o.msg.task * 2 ^ 32 + s.sys.now % 2 ^ 32) }]) ∧
  (∀ s : State, s.st.csr.gangSize = 0 →
    exec (.instructionFetchFailed 1) s = .next (s.takeTrap { code := 0x16, addr := word s.st.pc }) ∧
    exec (.instructionFetchFailed 0) s = .next (s.takeTrap { code := 0x0C, info := failInfo s.st.pc 0x0B 5, sub := 0x0B, addr := word s.st.pc }))

/-- A refused enqueue and a neighbour read are tried again when their time has come; a neighbour read or a gang that waited too long goes on
with p1 set. TLBINV completes when nothing uses its range, a bank wakes, a breakpoint is claimed, a deferred trap of the earliest task is
entered, a ready task is sent to a core that takes it and has no claim to make, a spawn with room in its unit is accepted, each epoch sets
the bound of every job, the queue controller answers, and a core with nothing to do takes a continuation from its run queue (R149, R150,
R261, R262, R268, R270, R271, R274, R277, R346, R366, R422) -/
def Obligations.WaitsAndTasksGoOn : Prop :=
  (∀ s : State, s.inMesh s.here = true → s.k < 16 →
    let at_ (e : Nat → Nat → State → Host.Outcome State Fault Refusal) := e s.here s.k s
    (∀ e r, s.st.waiting = .answer e none r → r ≠ 0 → r ≤ s.sys.now →
      at_ (fun c k => exec (.qenqRetry c k)) = .next (s.modSt fun t => { t with waiting := .none })) ∧
    (∀ u a, s.st.waiting = .neighbour u a → (a ≤ s.sys.now →
        at_ (fun c k => exec (.ngetRetry c k)) = .next (s.modSt fun t => { t with waiting := .neighbour u 0 })) ∧
      (u ≤ s.sys.now → s.st.life = .wait → s.st.csr.gangSize = 0 →
        ∃ t, at_ (fun c k => exec (.ngetTimeout c k)) = .next t ∧ t.p 1 = true ∧ t.st.pc = (s.st.pc + 4) % 2 ^ 48 ∧ t.st.life = .run)) ∧
    (∀ n u, s.st.waiting = .gang n u → s.st.life = .wait → u ≤ s.sys.now →
      ∃ t, at_ (fun c k => exec (.gangTimeout c k)) = .next t ∧ t.p 1 = true ∧ t.st.pc = (s.st.pc + 4) % 2 ^ 48 ∧ t.st.life = .run) ∧
    (∀ lo hi all, s.st.waiting = .inval lo hi all false → s.usesRange s.gid lo hi = false →
      ∃ t, at_ (fun c k => exec (.tlbinvComplete c k)) = .next t ∧ t.st.waiting = .inval lo hi all true ∧
        (∀ e ∈ t.core.dtlb, e.inRange s.gid lo hi = false) ∧ (∀ e ∈ t.core.itlb, e.inRange s.gid lo hi = false) ∧
        (∀ u ∈ t.clusters, ∀ e ∈ u.tlb2, e.inRange s.gid lo hi = false)) ∧
    (∀ n, s.st.waiting = .claim n none → s.job.isSome = true → n < 8 →
      let b := s.slotOf n
      let hit := b.stops s.st.pc s.st.csr.taskid.toNat
      (hit = true → ∃ t, at_ (fun c k => exec (.breakpointClaim c k)) = .next t ∧ t.st.waiting = .claim n (some true) ∧
        ((t.slotOf n).armed = if b.once then false else true)) ∧
      (hit = false → ∃ t, at_ (fun c k => exec (.breakpointClaim c k)) = .next t ∧ t.st.waiting = .none ∧ t.st.life = .run ∧ t.slotOf n = b)) ∧
    (∀ r x, s.st.task = some r → r.deferred = some x → s.isEarliest s.myJob (r.ts, r.id) = true →
      at_ (fun c k => exec (.deferredTrapTaken c k)) = .next ((s.modSt fun t => { t with task := some { r with deferred := none } }).enterTrap x))) ∧
  (∀ s : State, s.inMesh s.here = true →
    (∃ t, exec (.bankWakeComplete s.here) s = .next t ∧ t.core.waking = s.core.waking.filter fun w => s.sys.now < w.2) ∧
    (∀ jk cl x, s.coreJob s.core = some jk → s.core.freeStrandNo.isSome = true → s.core.ni.lpq = [] → s.core.ni.cellar = [] → s.core.ni.startSlot = none →
      (∀ m ∈ s.sys.flight, m.run.isSome = true → m.dst ≠ s.here) → s.pollDue = false → s.core.ni.claiming = none → s.core.draining = false → s.readyUnit jk = some cl → (s.cluster cl).task.specn < 64 →
      firstKey TaskRec.key ((s.cluster cl).task.tasks.filter fun t => t.life == .ready && t.spill.isNone) = some x →
      ∃ t m, exec (.taskRequest s.here) s = .next t ∧ t.sys.flight = s.sys.flight ++ [m] ∧ m.h1 = header1 s.here s.here (jk % 2 ^ 16) ∧ m.target = x.handler % 2 ^ 48 ∧ m.task = x.id % 2 ^ 32 ∧
        m.pay = padTo 5 x.args ∧ m.run = some (x.ts, cl) ∧ (∀ y ∈ (t.cluster cl).task.tasks, y.id = x.id → y.life = .running ∧ y.core = s.here))) ∧
  (∀ (o : Op) (s : State), Waits o s → o.kind = .spawn →
    let u := (s.cluster o.target).task
    let id := (s.crew.map fun w => s.clusterIndex w o.target).getD 0 % 256 * 2 ^ 24 + u.counter % 2 ^ 24
    u.serves s.myJob = true → (∀ t ∈ s.tasksOf s.myJob, t.2.id ≠ id) → (o.n = 0 → keyBefore (s.lastCommitted s.myJob) (o.b.toNat, id) = true) → u.tasks.length < 256 → (s.die (o.target / 36)).relock = none →
    let accepted (e : Instr) : Prop := ∃ t x, exec e s = .next t ∧ Retired o none s t ∧ x ∈ (t.cluster o.target).task.tasks ∧ x.id = id ∧ x.ts = o.b.toNat ∧
      x.handler = o.a.toNat ∧ x.args = o.regs ∧ (t.cluster o.target).task.counter = (u.counter + 1) % 2 ^ 24
    (o.started = false → accepted (.taskSpawnAccept s.here s.k o.id)) ∧ (o.started = true → o.absentAt ≤ s.sys.now → accepted (.spawnRetry s.here s.k o.id))) ∧
  (∀ s : State, s.sys.gvtAt ≤ s.sys.now →
    ∃ t, exec .gvtEpoch s = .next t ∧ t.sys.gvtAt = (s.sys.now / 2000 + 1) * 2000 ∧ (s.taskJobs = [] → t.sys = { s.sys with gvtAt := (s.sys.now / 2000 + 1) * 2000 }) ∧
      (∀ jk, s.taskJobs = [jk] → s.tasksOf jk = [] →
        t.sys.gvts = putKey (·.1) (jk, ((s.gvtOf jk).map (·.1)).getD (2 ^ 64 - 1)) s.sys.gvts)) ∧
  (∀ (i : Nat) (x : Msg) (s w : State) (r : QRes) (p : Option (Nat × Nat)), s.sys.flight[i]? = some x → s.deliverable i = true → x.kind = 6 → x.target = 2 →
    s.inMesh x.dst = true → s.dieCorner (s.dieKey x.dst) = x.dst → x.mark = .queueReq → (x.word 0).toNat < 512 →
    let dk := s.dieKey x.dst
    let out := s.modSys fun y => { y with flight := y.flight.eraseIdx i }
    let h := (x.word 1).toNat % 2 ^ 32
    (out.die dk).fenced 4 = false → out.qCheck dk h ((out.die dk).ctxOfGid x.gid) = none → out.qServe dk (x.word 0).toNat h ((x.pay.drop 2).take 8) x.release = (w, r, p) → r ≠ .wait →
    (w.die dk).faultBuf = [] →
    ∃ t m, exec (.queueControllerRequest i) s = .next t ∧ t.sys.flight = w.sys.flight ++ [m] ∧ m.kind = 3 ∧ m.pay = padTo 13 (answerWords r) ∧ m.release = p) ∧
  (∀ s w : State, s.inMesh s.here = true → s.k = 0 → s.core.ni.claiming = none → s.pollDue = true → bit (s.core.runq 0) 32 = true →
    s.pollOne (s.core.runq 0 % 2 ^ 32) (fun s => s.runqOff 0) = (w, .placed) → w.here = s.here →
    ∃ t, exec (.runQueuePoll s.here) s = .next t ∧ t.core = { w.core with ni := { w.core.ni with claiming := none } } ∧ t.sys = w.sys)

/-- APASS opens the lowest free pass of the die with the page list it reads and completes with the handle. A window that runs out, with no
subscription held, starts the pass. The one held subscription of a die, its core at hand, joins the pass that takes it and its descriptor
says so. A started pass begins its next page with a free buffer of each subscriber, reads the page, and has no more to do with it once all
have it. TRAYGET completes with the merged result in memory and ACLOSE with the pass closed. Said where no check fails and, where commands
that wait at a distributor would be tried again, none waits there, and where held subscriptions would join first, none is held (R78, R280,
R283, R285, R287, R288, R292, R294) -/
def Obligations.AttentionEvents : Prop :=
  (∀ (o : Op) (s w : State) (n : Nat) (bs : List Byte), Waits o s → o.kind = .apass → o.absentAt ≤ s.sys.now → s.passBad o.regs = false →
    let r (i : Nat) : Nat := (o.regs.getD i 0).toNat
    bits (r 0) 53 48 = 0 → r 0 % 4 = 0 → (List.range 64).find? (fun n => !(s.passAt s.dk n).isOpen) = some n →
    s.engineRead (s.party o) (r 0 % 2 ^ 48) (4 * (r 1 % 2 ^ 13)) = (w, .ok bs) →
    ∃ t p, exec (.passOpen s.here s.k o.id) s = .next t ∧ Retired o (some (word (p.handle s.dk))) s t ∧ p ∈ (t.die s.dk).passes ∧ p.slot = n ∧
      p.isOpen = true ∧ p.started = false ∧ p.pages = words32 (r 1 % 2 ^ 13) bs ∧ p.layer = r 5 % 2 ^ 32 ∧ p.expect = bits (r 6) 15 0 ∧ p.subs = []) ∧
  (∀ (d n x : Nat) (s : State), let p := s.passAt d n
    p.deadline = some x → p.isOpen = true → p.started = false → x ≤ s.sys.now → (s.die d).held = [] →
    exec (.passWindowExpiry d n) s = .next (s.setPass d { p with started := true })) ∧
  (∀ (d n i : Nat) (b : Sub) (p : Pass) (s : State), d < 4 * s.sys.mx * s.sys.my → (s.die d).held = [(b, i)] → (∀ c ∈ s.cores, ∀ o ∈ c.allOps, o.untaken = false) → s.joinable d b = some p → s.subscriberHere b = true → (s.focus b.core 0).sleeping [(b.desc + 32, 8)] = [] →
    b.slot < p.count → (∃ j ∈ b.refs, j < p.pages.length) → (∀ x ∈ p.subs, x.live = true → x.slot ≠ b.slot) →
    s.entriesUsed d + (b.refs.filter fun j => j < p.pages.length).length ≤ 16384 →
    ∃ t, exec (.heldSubscriptionJoin d n) s = .next t ∧ (t.die d).held = [] ∧
      p.join { b with refs := b.refs.filter fun j => j < p.pages.length } ∈ (t.die d).passes ∧
      (t.coreAt b.core).scratch = (s.coreAt b.core).scratch.put (b.desc + 32) (bytesOfWord 8 (2 + p.handle d * 2 ^ 32))) ∧
  (∀ (d n j : Nat) (s : State), let p := s.passAt d n
    p.isOpen = true → p.started = true → p.closing = false →
    (List.range p.pages.length).find? (fun j => p.next ≤ j && p.subs.any fun b => b.live && b.refs.contains j) = some j →
    (∀ b ∈ p.subs, b.live = true → b.refs.contains j = true → b.freeBuffers ≠ []) → p.occupied + p.subs.length ≤ p.count →
    ∃ t v, exec (.pageDeliveryBegin d n) s = .next t ∧ (t.passAt d n).next = j + 1 ∧ (t.passAt d n).deliver = p.deliver ++ [v] ∧ v.idx = j ∧ v.read = false) ∧
  (∀ (d n : Nat) (v : Delivery) (rest : List Delivery) (s w : State), let p := s.passAt d n
    let va := p.base.toNat % 2 ^ 48 + 32768 * p.pages.getD v.idx 0
    p.isOpen = true → p.deliver = v :: rest →
    (∀ bs, v.read = false → bits p.base.toNat 53 48 = 0 → va + 32768 ≤ 2 ^ 48 →
      s.engineRead { gid := p.gid, cl := engineWalker d, job := p.job, me := 2 ^ 40 + d, quiet := true } va 32768 = (w, .ok bs) →
      (w.die d).passes = (s.die d).passes →
      ∃ t, exec (.pageReady d n) s = .next t ∧ (t.passAt d n).deliver = { v with read := true, data := bs } :: rest) ∧
    (v.read = true → v.left = [] → (∀ c ∈ s.cores, ∀ o ∈ c.allOps, o.untaken = false) → ∃ t, exec (.pageReady d n) s = .next t ∧ (t.passAt d n).deliver = rest)) ∧
  (∀ (o : Op) (s w : State) (p : Pass) (b : Sub) (acc : List Nat) (x : List Byte), Waits o s → o.kind = .trayget → o.op = 1 → o.absentAt ≤ s.sys.now →
    s.trayOf o = .ok (p, b) → b.nextPage = none → b.acc = some acc →
    s.engineWrite (s.party o) (o.a.toNat % 2 ^ 48) (trayResult acc).1 = (w, .ok x) → (b.flags ||| (trayResult acc).2) &&& enables o.fpctl = 0 →
    ∃ t, exec (.traygetComplete s.here s.k o.id) s = .next t ∧ Retired o none s t ∧ t.sys.mem = w.sys.mem) ∧
  (∀ (o : Op) (s : State) (p : Pass), Waits o s → o.kind = .aclose → o.op = 1 → s.passOf o.a.toNat = .ok p → p.deliver = [] →
    (∀ c ∈ s.cores, ∀ o ∈ c.allOps, o.untaken = false) → (s.die (s.handlePass o.a.toNat)).held = [] →
    let dk := s.handlePass o.a.toNat
    ∃ t, exec (.acloseComplete s.here s.k o.id) s = .next t ∧ (∀ q ∈ t.st.ops, q.id ≠ o.id) ∧ (t.passAt dk p.slot).isOpen = false ∧
      (t.passAt dk p.slot).gen = (p.gen + 1) % 2 ^ 16)

/-- Of the commands of R398 from the owner of the crew, while none waits for a drain: THAW and FREEZE clear and set the freezing of the
incoming queue, RESUME and, with no operation outstanding, RESTART and DISCARD act on a halted strand, CORE_PREEMPT requests the pre-
emption of the crew and KILL kills its job; the status becomes 0. A doorbell that waits behind no write of the host publishes a ticket, a
queue is created and destroyed, a sender table is cleared, a trace session opens, and closes once its records are written, a monitor
starts, a tape directory entry and a fault route are written, and any register write that succeeds has its effect, of the host the writes
of its register window other than to MBCMD (R264, R330, R396, R397, R398, R399, R401, R412, R414, R419) -/
def Obligations.OwnerCommands : Prop :=
  (∀ (s : State) (w : Crew) (j : Job) (ctx : Nat), s.inMesh s.here = true → s.k = 0 → ctx < 256 → s.crew = some w → s.jobOf w.job = some j → s.core.draining = false →
    s.crewGid w = (if ctx = 0 then 0 else ((s.die (s.dieKey s.here)).ctx ctx).gidOf) →
    let c := s.here
    let after (i : Instr) (good : State → Prop) : Prop := ∃ t, exec i s = .next t ∧ t.core.ctlStatus = 0 ∧ good t
    after (.thaw c ctx) (fun t => t.core.ni = { s.core.ni with infrz := false }) ∧
    after (.freeze c ctx) (fun t => t.core.ni = { s.core.ni with infrz := true }) ∧
    (∀ k, k < 16 → let u := vget s.core.strands k {}
      u.life = .halted →
      (∀ skip, after (.resume c k skip ctx) fun t => let v := vget t.core.strands k {}
        v.life = .run ∧ v.waiting = .none ∧ v.ts = false ∧ v.pc = (u.csr.trappc.toNat + if skip = 1 then 4 else 0) % 2 ^ 48 ∧ v.g = u.g) ∧
      ((∀ o ∈ u.ops, o.complete = true) →
        (∀ m, u.start = some m → m.target % 4 = 0 → after (.restart c k ctx) fun t => let v := vget t.core.strands k {}
          v.life = .run ∧ v.pc = m.target ∧ v.ops = [] ∧ v.q0 = 5) ∧
        after (.discard c k ctx) fun t => (vget t.core.strands k {}).life = .free)) ∧
    (∀ t, s.requestPreempt w.id = (t, true) → t.here = c → t.k = 0 →
      exec (.corePreempt c ctx) s = .next (t.modCore fun x => { x with ctlStatus := 0 })) ∧
    (let t := s.killJob w.job 1 0x14 1;
      t.here = c → t.k = 0 → exec (.kill c ctx) s = .next (t.modCore fun x => { x with ctlStatus := 0 }))) ∧
  (∀ (d q v : Nat) (s : State), s.isDie d = true → q < 2 ^ 14 → (s.die d).faultBuf = [] →
    let x := (s.die d).queue q
    (s.writesHeld s.sys.held.length = false → exec (.doorbell d q v) s = .next (s.setQueue d (x.doorbell (v % 2 ^ 32)))) ∧
    (x.valid = false → v < 2 ^ 64 → bit v 0 = true → s.queueRight d (bits (v % 2 ^ 64) 15 8) hostWho = true →
      exec (.queueCreate d q v) s = .next (s.setQueue d (x.take0 (v % 2 ^ 64)).create)) ∧
    (x.valid = true → s.queueRight d x.owner hostWho = true →
      ∃ t, exec (.queueDestroy d q) s = .next t ∧ ((t.die d).queue q).valid = false ∧ ((t.die d).queue q).gen = (x.gen + 1) % 2 ^ 16)) ∧
  (∀ (c : Nat) (s : State), s.inMesh c = true → c < 2 ^ 24 → ∃ t, exec (.senderTableClear c) s = .next t ∧ (t.coreAt c).sender = []) ∧
  (∀ (d n v : Nat) (s : State), s.isDie d = true → n < 16 →
    let x := vget (s.die d).sessions n {}
    (x.en = false → bit v 0 = true → 12 ≤ x.rlog → x.rlog ≤ 40 → s.sessionRight d (bits (v % 2 ^ 64) 63 32) hostWho = true →
      (∀ e ∈ s.dies, ∀ y ∈ e.sessions.toList, y.en = true → y.job ≠ bits v 31 16) →
      ∃ t, exec (.traceSessionOpen d n v) s = .next t ∧ let y := vget (t.die d).sessions n {}
        y.en = true ∧ y.seq = 0 ∧ y.job = bits v 31 16 ∧ y.queue = bits (v % 2 ^ 64) 63 32) ∧
    (s.sessionRight d (bits ({ x with en := false }.dw 0) 63 32) hostWho = true →
      ∃ t, exec (.traceSessionClose d n) s = .next t ∧ let y := vget (t.die d).sessions n {}
        (y.en = false ∨ y.closing = true) ∧ (x.pending = [] → y.en = false))) ∧
  (∀ (d n v : Nat) (s : State), s.isDie d = true → n < 32 →
    let m := vget (s.die d).monitors n {}
    let e := vget (s.die d).sessions (bits v 10 7) {}
    let x : Monitor := { m with rel := bits v 3 1, act := bits v 6 4, sess := bits v 10 7, qa := bits v 13 11, qb := bits v 16 14 }
    bit v 0 = true → m.en = false → s.sessionRight d e.queue hostWho = true → x.rel ≤ 5 → x.act ≤ 4 →
    (s.quantity d e.gid x.qa x.opa.toNat).isSome = true → (s.quantityB d e.gid x).isSome = true →
    ∃ t, exec (.monitorEnable d n v) s = .next t ∧ vget (t.die d).monitors n {} = { x with en := true, prev := none }) ∧
  (∀ (d n v : Nat) (s : State), s.isDie d = true → n < 256 → (s.die d).dirState n = 0 → (s.die d).dirActive n = 0 →
    exec (.tapeDirectoryWrite d n 1 v) s =
      .next (s.setDie ((s.die d).setDir n ((s.die d).dirNumber n) 0 0 ((s.die d).dirReason n) 0 (v % 2 ^ 22 / 64 * 64) (bits v 43 22)))) ∧
  (∀ (d n v : Nat) (s : State), s.isDie d = true → n < 256 → (s.die d).faultBuf = [] →
    (bit v 32 = true ∨ s.handleLive d (v % 2 ^ 64) = true → handleDie (d / 4) (v % 2 ^ 64) = d ∧ ((s.die d).queue (handleIdx (v % 2 ^ 64))).owner = n) →
    ∃ t, exec (.faultRouteWrite d n v) s = .next t ∧ (n, v % 2 ^ 33) ∈ (t.die d).routes) ∧
  (∀ (d off v ctx r : Nat) (s w : State), s.isDie d = true → ctx ≤ 256 → (ctx = 256 → off < 0x1000000 ∧ (d % 4 = 0 → off / 8 * 8 ≠ 0x38000)) →
    s.writeReg d (off / 8 * 8) 8 (v % 2 ^ 64) (if ctx = 256 then hostWho else { gid := if ctx = 0 then 0 else ((s.die d).ctx ctx).gidOf, dk := d }) = .ok w r →
    exec (.registerWrite d off v ctx) s = .next w)

/-- The launch unit of each module takes its next record; one that passes its checks becomes a waiter. A waiter of a placed job with a free
rectangle, cellars and routes, that no record or crew goes before, gets its next crew placed. One that has waited 50 microseconds ages. A
crew whose work is done is released, its job counting it; a killed crew is released when no core of it is still stopping; a parked one
that may resume does. A crew that ran for its limit is asked to park, one that was asked and did not in time has its job killed, and one
killed whose cores do not stop is fenced and released (R312, R313, R314, R315, R316, R317, R321, R322, R324, R399, R400, R401) -/
def Obligations.LaunchAndWatchdog : Prop :=
  (∀ s : State, exec .launchClaim s = .next ((List.range (s.sys.mx * s.sys.my)).foldl (fun s m => match s.nextRecord m with
    | some (dk, i) => s.claimNext m dk i
    | none => s) s)) ∧
  (∀ (m dk i : Nat) (s w x : State) (bs code routing : List Byte) (patch : List Word), s.headRecord dk i = (w, .ok bs) →
    let q := (w.die dk).queue i
    let r := toWords 8 (wordOfBytes bs)
    let w' := w.modMod m fun y => { y with turn := putKey (·.1) (q.prio, dk * 2 ^ 14 + i) y.turn }
    w'.recordOk r = true → (∀ j ∈ w.sys.jobs, j.ended = false → j.gid = w.ownerGid dk q.owner → j.num ≠ recJob r) →
    w'.readImages (w.ownerGid dk q.owner) (engineWalker dk) r = (x, .ok code routing patch) →
    s.claimNext m dk i = x.modSys fun y => { y with waiters := y.waiters ++
      [{ die := dk, queue := i, ticket := q.head, since := y.now, w := recW r, h := recH r }] }) ∧
  (∀ (n x0 y0 : Nat) (v : Waiter) (j : Job) (s w u : State) (cs : List (Nat × Nat)) (code routing : List Byte) (patch : List Word) (gates : List (Nat × Nat × Nat)) (g : Guards),
    s.sys.waiters[n]? = some v → v.job.bind s.jobOf = some j → v.job.bind u.jobOf = some j → v.aged = false →
    let q := (s.die v.die).queue v.queue
    let owner := (s.die v.die).ctx q.owner
    let used := w.poolUsed (s.ownerGid v.die q.owner)
    let r := toWords 8 (wordOfBytes (j.record.flatMap fun x => bytesOfWord 8 x.toNat))
    s.freePlace owner v.w v.h (some n) = some (x0, y0) → s.blocked (v.die / 4) q.prio (some n) = false → s.resumes (v.die / 4) q.prio = false → s.outranked (v.die / 4) q.prio = false →
    cellarsIn owner.pool.1 owner.pool.2 (cellarBytes (bits (rec_ r 0) 33 31)) (v.w * v.h) used = some cs →
    s.readImages (s.ownerGid v.die q.owner) (engineWalker v.die) r = (w, .ok code routing patch) →
    (placeIn owner.pool.1 owner.pool.2 (2 ^ 21) (2 ^ 21 * (1 + v.w * v.h)) (cs ++ used)).isSome = true →
    routesOf routing (owner.dw 4) x0 y0 (x0 + v.w - 1) (y0 + v.h - 1) = some gates →
    (bit (rec_ r 0) 24 = true → w.wrapWorks x0 y0 (x0 + v.w - 1) (y0 + v.h - 1) = true) →
    let rect : Crew := { id := 0, job := 0, idx := v.crew, x0 := x0, y0 := y0, x1 := x0 + v.w - 1, y1 := y0 + v.h - 1 }
    (if recTape r != 0 && !bit (rec_ r 0) 26 then w.checkGuards rect (s.ownerGid v.die q.owner) (recTape r) patch else (w, .ok 0)) = (u, g) → g ≠ .wait →
    exec (.launchPlace n) s = .next (u.placeCrew n v j x0 y0 cs gates code patch g)) ∧
  (∀ (n : Nat) (v : Waiter) (s : State), s.sys.waiters[n]? = some v → v.aged = false → v.since + 50000 ≤ s.sys.now →
    ∃ t x, exec (.launchAged n) s = .next t ∧ t.sys.waiters[n]? = some { v with aged := true, target := x }) ∧
  (∀ (n : Nat) (w : Crew) (s : State), s.crewOf n = some w →
    (w.life = .killed → (∀ c ∈ s.cores, c.crew = some n → c.stopping = false) → exec (.crewComplete n) s = .next
      (((s.modJob w.job fun j => { j with dead := j.dead ++ [(pack w.x0 w.y0, w.discarded)] }).releaseCrew w).endKilled w.job)) ∧
    (w.life ≠ .killed → s.crewDone w = true → s.jobOf w.job = none → exec (.crewComplete n) s = .next (s.releaseCrew w)) ∧
    (∀ j, w.life ≠ .killed → s.crewDone w = true → s.jobOf w.job = some j → j.completed + 1 < recCrews j.record → (∀ p ∈ s.sys.prints, p.crew ≠ n) →
      ∃ t, exec (.crewComplete n) s = .next t ∧ (∀ v ∈ t.sys.crews, v.id ≠ n) ∧ (∀ x, t.jobOf j.id = some x → x.completed = j.completed + 1)) ∧
    (∀ j, s.jobOf w.job = some j → s.mayResume w = true →
      (∀ q ∈ s.launchQueues (s.crewDie w / 4), s.prioOf q.1 q.2 ≤ s.prioOf j.die (handleIdx j.queue)) → s.blocked (s.crewDie w / 4) (s.prioOf j.die (handleIdx j.queue) + 1) none = false →
      exec (.crewResume n) s = .next (s.resumeCrew w)) ∧
    (∀ j, s.jobOf w.job = some j → let l := s.limits j
      (w.life = .running → w.asked = none → w.since + l.1 ≤ s.sys.now →
        exec (.watchdogPreemptRequest n) s = .next ((s.requestPreempt n).1.modCrew n fun w => { w with asked := some s.sys.now })) ∧
      (∀ a, w.asked = some a → (w.life = .running ∨ w.life = .preempting) → a + l.2.1 ≤ s.sys.now →
        exec (.watchdogKill n) s = .next (s.killJob w.job 0 0x14 0)) ∧
      (w.life = .killed → w.killed + l.2.2 ≤ s.sys.now →
        exec (.watchdogFence n) s = .next (((s.cores.filter fun c => c.crew == some n && c.stopping).foldl
          (fun s c => s.fenceCore c.coord 0x14 3) s).buryCrew w))))

/-- A frame that a tier offers starts its page's move down; a marked page starts its move up; a move that nothing hinders puts the page's
bytes in a frame of the free ring, writes its entry and puts the old frame in its own free ring where that has an empty slot. A scrub that
fails poisons a memory line, fences a core, or logs a unit and fences the cache way or the link it names, and a corrected error is
counted; a link whose flit failed eight times is fenced; a failed module fences the links to it, empties the cores of the crews that have
one on it, asks the other crews of its jobs to park, and holds them all. A relock ends with a new step in the log; a power step and a
written target start one; time is set once, ports send keep-alives, neighbours exchange time by at most 20 ns; every 100 ns the monitors
of a die, in ascending number, read their two quantities of the state before any has acted, note whether their relation holds, and fire
where it has come to fail (R340, R341, R344, R365, R374, R409, R410, R420, R427, R435) -/
def Obligations.RecoveryAndTime : Prop :=
  (∀ (d n slot frame : Nat) (e : TlbEntry) (s : State), s.isDie d = true → n < 3 →
    ((s.ringSlots d n 0).filter fun k => s.physN k 8 != 0).length < s.tierReg d n 0 → s.ringFirst (s.ringSlots d n 1) = some (slot, frame) →
    let w := s.setPhysN slot 8 0
    (((0 :: w.liveCtxs.map Ctx.gidOf).eraseDups.flatMap fun g => (w.items g).filterMap fun i => match i with
      | .page e => if e.type = n && e.home w = d / 4 && e.dw0 / 2 ^ 16 = frame / 2 ^ 16 && !e.dup then some e else none
      | .table _ _ => none).head?) = some e → w.moving e.gid e.base = false →
    exec (.tierDemotion (4 * d + n)) s = .next (w.startMove e d (n + 1))) ∧
  (∀ (c k id : Nat) (e : TlbEntry) (s : State), s.inMesh c = true →
    let w := s.modSys fun y => { y with wanted := y.wanted.filter s.leafCurrent }
    ((s.coreAt c).dtlb ++ (s.cluster (s.clusterKey c)).tlb2 ++ s.sys.wanted).find? (fun e => e.promotes && w.leafCurrent e && !w.moving e.gid e.base) = some e →
    exec (.tierPromotion c k id) s = .next (w.startMove e (e.home w * 4 + w.dieKey c % 4) 0)) ∧
  (∀ (n slot frame : Nat) (m : PageMove) (s : State), s.sys.moves[n]? = some m → s.usesRange m.gid m.va (m.va + m.size) = false →
    s.ringFirst (s.ringSlots m.die m.toTier 0) = some (slot, frame) →
    let at_ := frame / 2 ^ 16 * 2 ^ 16
    let old := memKey m.fromTier m.module m.oldFrame
    let new := memKey m.toTier m.module at_
    let taken := s.setPhysN slot 8 0
    let moved := taken.moveFrame old new m.size (m.size + if bits m.dw0 12 11 != 0 && !bit m.dw0 13 then m.size / 256 else 0)
    let entry := (moved.setTableN m.gid (m.entry + 8) (if m.toTier = 0 then m.dw1 - bits m.dw1 30 30 * 2 ^ 30 else m.dw1)).setTableN m.gid m.entry
      (at_ + (m.dw0 % 2 ^ 16 - bits m.dw0 4 2 * 4 + m.toTier * 4))
    let freed := match entry.ringEmpty (entry.ringSlots m.die m.fromTier 0) with
      | some k => entry.setPhysN k 8 m.oldFrame
      | none => entry
    (∀ i, i < m.size → moved.sys.mem.rd (new + i) = taken.sys.mem.rd (old + i)) ∧
    ∃ t, exec (.pageMoveComplete n) s = .next t ∧ t.sys.moves = s.sys.moves.eraseIdx n ∧ t.sys.mem = freed.sys.mem) ∧
  (∀ (x : Nat) (s : State),
    (exec (.scrub 0 x) s = .next (s.modSys fun y => { y with poisonLines := (x / 64 * 64) :: y.poisonLines.filter fun l => l / 64 != x / 64 })) ∧
    (s.inMesh x = true → exec (.scrub 1 x) s = .next ((s.fenceCore x 0x16 5).logUnit (s.dieKey x) 1 x)) ∧
    (let d := x % 2 ^ 24
      let i := x / 2 ^ 24
      s.isDie d = true → (∀ u ∈ [3, 4, 5, 6, 8], exec (.scrub u x) s = .next (s.logUnit d u i)) ∧
        exec (.scrub 7 x) s = .next ((s.logUnit d 7 i).modSys fun y => { y with fencedLinks := ((d / 4 * 12 + i % 12) :: y.fencedLinks).eraseDups }) ∧
        (s.sys.versions = [] → exec (.scrub 2 x) s = .next ((s.logUnit d 2 i).modCluster (36 * d + i / 16 % 36) fun c =>
          { c with badWays := (i % 16 :: c.badWays).eraseDups })) ∧
        exec (.scrub 9 x) s = .next (s.modDie d fun y => { y with corrected := y.corrected + 1 })) ∧
    (x / 12 < s.sys.mx * s.sys.my → s.neighbour (x / 12) (x % 12 / 3) = none → ∀ f, 8 ≤ f → exec (.flitReplay x f) s =
      .next ((s.modSys fun y => { y with fencedLinks := x :: y.fencedLinks.filter (· != x) }).logUnit (x / 12 * 4) 7 x)) ∧
    (x < s.sys.mx * s.sys.my → 1 < s.sys.mx * s.sys.my → (s.mod x).failed = false →
      let u := (s.modMod x fun y => { y with failed := true }).modSys fun y => { y with fencedLinks := (s.linksTo x ++ y.fencedLinks).eraseDups }
      let hold (v : State) (w : Crew) : State :=
        let v := v.modCrew w.id fun y => { y with hold := true, touched := if y.life = .parked then y.touched ++ [2 ^ 24] else y.touched }
        if w.life = .parked ∨ w.life = .killed then v
        else if w.coords.any (fun c => v.moduleOf c == x) then
          w.coords.foldl (fun v c => v.atCore c 0 fun v =>
              if v.core.crew = some w.id then v.handlersKilled.modCore fun k => { k.emptied with crew := some w.id } else v)
            (v.modCrew w.id fun y => if y.life = .running then { y with life := .preempting, asked := none } else y)
        else ((v.modCrew w.id fun y => { y with valid := false }).requestPark 3 w.id).1
      (u.mod x).failed = true ∧ exec (.moduleFailure x) s = .next ((s.sys.crews.filter fun w => u.jobThrough w.job x).foldl hold u)) ∧
    (∀ l, x < 4 * s.sys.mx * s.sys.my → exec (.ageingUpdate x l) s =
      .next (s.modDie x fun y => { y with ageing := (List.range 3).map fun i => word (l.getD i 0 % 2 ^ 48) })) ∧
    (s.sys.keepAt ≤ s.sys.now →
      let ports := (List.range (12 * s.sys.mx * s.sys.my)).filter fun p => !(s.mod (p / 12)).failed && !s.sys.fencedLinks.contains p && !s.receives p
      exec .keepaliveSend s = .next (s.modSys fun y => { y with
        keepAt := y.now + 100000, keeps := (ports.map fun p => (p, y.now)) ++ y.keeps.filter fun k => !ports.contains k.1 })) ∧
    (s.sys.flitAt ≤ s.sys.now → exec (.timeFlitExchange x) s =
      .next (s.modSys fun y => { y with now := y.now + (if y.mx * y.my ≤ 1 then 0 else min x 20), flitAt := y.now + 100000 })) ∧
    ((∀ m ∈ s.modules, m.timeset = false) → ∃ t, exec (.timeset x) s = .next t ∧ t.sys.now = x % 2 ^ 64 ∧ (t.mod 0).timeset = true) ∧
    (s.isDie x = true → (s.die x).sampleAt ≤ s.sys.now →
      let one (u : State) (n : Nat) : State :=
        let m := vget (u.die x).monitors n {}
        let g := (vget (s.die x).sessions m.sess {}).gid
        let at_ : State := { s with draw := s.draw + n }
        match m.en, at_.quantity x g m.qa m.opa.toNat, at_.quantityB x g m with
        | true, some a, some b =>
          let v := u.modDie x fun d => { d with monitors := vset d.monitors n { m with prev := some (relHolds m.rel a b), last := min a (2 ^ 32 - 1) } }
          if relHolds m.rel a b = false ∧ m.prev ≠ some false then v.fire x n a else v
        | _, _, _ => u
      exec (.monitorSample x) s = .next ({ (List.range 32).foldl one s with draw := s.draw + 32 }.modDie x fun d =>
        { d with sampleAt := (s.sys.now / 100 + 1) * 100 }))) ∧
  (∀ (d f : Nat) (s : State), d < 4 * s.sys.mx * s.sys.my → let x := s.die d
    (∀ r, x.relock = some r → x.queued = [] → exec (.relockEnd d) s =
      .next (s.modDie d fun x => { x with steps := x.steps ++ [{ r with tstart := min s.sys.now (r.tstop + 2000) }], relock := none, queued := [] })) ∧
    (x.relock = none → x.queued = [] →
      let step (g : Nat) (t : State) : Prop := (t.die d).relock = some { tstop := s.sys.now, cstep := x.cycles s.sys.now, fold := x.fnow, fnew := g }
      (8 ≤ f → f ≤ 20 → x.ftarget ≠ f → x.fnow ≠ f → ∃ t, exec (.ftarget d f) s = .next t ∧ (t.die d).ftarget = f ∧ step f t) ∧
      ((s.mod (d / 4)).powerAt ≤ s.sys.now → x.plimit < f → 8 < x.fnow → ∃ t, exec (.powerLimitStep d f) s = .next t ∧ step (x.fnow - 1) t) ∧
      ((s.mod (d / 4)).powerAt ≤ s.sys.now → f ≤ x.plimit → x.throttled = 0 → x.fnow < x.ftarget → ∃ t, exec (.powerLimitStep d f) s = .next t ∧ step (x.fnow + 1) t)))

/-- A packet of one whole message with its extension header, come by a fabric port that is not fenced, enters the flight with every bit as it
was; a media packet of a stream that listens lands while its frame is not overdue, or waits for a page, and a frame past its deadline
ends. A level-1 alarm is logged, a level-2 one halts the darkroom contexts too, a level-3 one resets the device with its keys erased; a
device reset gives the reset state but for memory. The host's accesses through a module's window read and write memory as accesses of its
context, its snoop changes nothing. The mailbox of the first module, when no command of it runs, loads firmware that the boot ROM's checks
pass and refuses the rest with the status of the first step that fails, answers a quote and a certificate, imports what it can unseal and
exports sealed pages of a darkroom context, loads and saves a context, sets a breakpoint, releases or kills a held job, restores a fenced
core, and pre-empts a crew (R11, R377, R379, R381, R382, R384, R424, R429, R430, R431, R433, R434) -/
def Obligations.HostAndBoundary : Prop :=
  (∀ (port : Nat) (ws : List Nat) (m : Msg) (s : State), packetMsgs 17 ws = [m] → 7 + m.pay.length = ws.length →
    s.receives port = false → s.sys.fencedLinks.contains port = false →
    exec (.fabricPacketReceive (port :: ws)) s = .next (s.modSys fun y => { y with flight := y.flight ++ [m] })) ∧
  (∀ (port stream sn ts mk pl : Nat) (data : List Nat) (x : Stream) (s : State), s.streamOf port stream = some x →
    (x.overdue s.sys.now 1 = false → bit (x.dw 0) 63 = true → s.receives port = true → x.live = true → ts % 2 ^ 32 = x.frame →
      s.packetHeld s.sys.held.length port stream = false →
      let r := s.landPacket x (sn % 2 ^ 16) mk pl (data.map fun b => BitVec.ofNat 8 b)
      exec (.st2110Packet port stream sn ts mk pl data) s = .next (if r.2 then r.1 else r.1.hold (.packet port stream sn ts mk pl data))) ∧
    (x.live = true → x.dw 4 / 2 ^ 32 ≠ 0 → x.first + 1000 * (x.dw 4 / 2 ^ 32) ≤ s.sys.now → exec (.frameDeadline port stream) s = .next (s.endFrame x 2))) ∧
  (∀ (x : Nat) (s : State), let d := x % 2 ^ 24; s.isDie d = true →
    let level := (s.die d).alarmLevel (bits x 39 24) (lanes 32 255 (x / 2 ^ 40))
    (level = 0 → exec (.securityAlarm x) s = .next s) ∧ (level = 1 → exec (.securityAlarm x) s = .next (s.logAlarm d 1)) ∧
    (level = 2 → exec (.securityAlarm x) s = .next (s.logAlarm d 2).haltDark) ∧
    (level = 3 → ∃ t, exec (.securityAlarm x) s = .next t ∧ t.core = State.reset.core ∧ t.others = State.reset.others ∧ t.clusters = State.reset.clusters ∧
      (t.mod (d / 4)).keyErased = true)) ∧
  (∀ s : State, (∃ t, exec .deviceReset s = .next t ∧ t.sys.mem = s.sys.mem ∧ t.core = State.reset.core ∧ t.others = State.reset.others ∧
      t.dies = State.reset.dies ∧ t.clusters = State.reset.clusters ∧ t.modules = State.reset.modules) ∧
    (∀ a, exec (.hostSnoop a) s = .next s) ∧
    ((s.mod 0).mbstat % 4 ≠ 1 → ∃ t, exec .cert s = .next t ∧ (t.mod 0).mbstat = 2) ∧
    (∀ x g, (s.mod 0).mbstat % 4 ≠ 1 → ∃ t, exec (.quote x g) s = .next t ∧ (t.mod 0).mbstat = 2 ∧ ∃ body, body.length = 272 ∧
      body.take 32 = bytesOfWord 32 x ∧ (t.mod 0).quote = body ++ bytesOfWord 96 (Config.sign body).toNat)) ∧
  (∀ (a m : Nat) (l : List Nat) (e : TlbEntry) (s w x : State), s.windowOf a = some m →
    let c := (s.die (4 * m)).ctx ((s.die (4 * m)).hostCtx.toNat % 256)
    let va := a - (s.die (4 * m)).hdmbase.toNat
    let n := min l.length (65536 - va % 65536)
    let bs : List Byte := (l.map fun b => BitVec.ofNat 8 b).take n
    c.dark = false → c.valid = true → va < 2 ^ 48 → s.pageHeld s.sys.held.length a = false →
    s.translate c.gidOf va (engineWalker (4 * m)) = (w, .hit e) → w.darkFrame e va n = false →
    (∀ r, w.accessLeaf (firmwareParty m c.gidOf) e va n (some bs) false = (x, .ok r) → exec (.hostMemoryAccess 1 a l) s = .next x) ∧
    (∀ r, w.accessLeaf (firmwareParty m c.gidOf) e va n none false = (x, .ok r) → exec (.hostMemoryAccess 0 a l) s = .next (x.shown a (some r)))) ∧
  (∀ (a n : Nat) (s : State), (s.mod 0).mbstat % 4 ≠ 1 → (s.mod 0).fw = false → 0 < s.sys.mx * s.sys.my →
    let image := s.hostBytes 0 a (min n (2 ^ 26 + 1))
    ∃ t, exec (.fwload a n) s = .next t ∧ (if imageStatus image = 0 then
        (t.mod 0).fw = true ∧ (t.mod 0).log = extendLog 0 image ∧ (t.mod 0).mbstat = 2
      else t = s.mailError 0 (imageStatus image))) ∧
  (∀ (g va n : Nat) (secret : BitVec 384) (c : Ctx) (s : State), (s.mod 0).mbstat % 4 ≠ 1 → s.darkCtx g = some (c, secret) →
    let key := s.sessionKey c secret
    (∀ blob : List Nat,
      let bs : List Byte := blob.map fun b => BitVec.ofNat 8 b
      ∃ t, exec (.importBlob g va n blob) s = .next t ∧ match Config.unsealBlob key bs with
        | none => t = s.mailError 0 2
        | some plain => (wordOfBytes (bs.take 12) ≤ c.imports ∨ plain.length ≠ n → t = s.mailError 0 2) ∧
          (∀ w x, c.imports < wordOfBytes (bs.take 12) → plain.length = n → s.engineWrite (firmwareParty 0 g) va plain = (w, .ok x) →
            (t.mod 0).mbstat = 2 ∧ ∀ a, t.sys.mem.rd a = w.sys.mem.rd a)) ∧
    (∀ bs w, s.engineRead (firmwareParty 0 g) va n = (w, .ok bs) →
      let blob := Config.sealBlob key (c.exports + 1) bs
      ∃ t, exec (.exportBlob g va n) s = .next t ∧ (t.mod 0).mbstat = 2 ∧
        (t.mod 0).mbdata = toWords ((blob.length + 7) / 8) (wordOfBytes blob) ∧
        t.sys.mem = (w.setPhys (hostKey 0 ((s.mod 0).mbarg.toNat + 64)) blob).sys.mem)) ∧
  (∀ (n d : Nat) (l : List Nat) (s : State), (s.mod 0).mbstat % 4 ≠ 1 → n % 256 ≠ 0 →
    (∀ k, k ≠ 0 → exec (.mailboxCtx k n d l) s = .next ((s.ctxLoad (d % 4) (n % 256) (l.map (· % 2 ^ 64))).1.mailDone 0
      [word (s.ctxLoad (d % 4) (n % 256) (l.map (· % 2 ^ 64))).2])) ∧
    exec (.mailboxCtx 0 n d l) s = .next (s.mailDone 0 (0 :: (s.ctxSaved (d % 4) (n % 256)).map word))) ∧
  (∀ (j : Job) (job slot pc task : Nat) (s : State), (s.mod 0).mbstat % 4 ≠ 1 → s.jobNumbered job = some j → slot < 8 → (∀ c, s.ctxByGid j.gid = some c → c.dark = false) →
    pc % 4 = 0 → bits pc 60 48 = 0 →
    exec (.dbgset job slot pc task) s = .next ((s.modJob j.id fun j =>
      { j with bps := vset j.bps slot { BpSlot.make pc task with armed := bit pc 63 } }).mailDone 0 [])) ∧
  (∀ (j : Job) (q ticket killed : Nat) (s : State), (s.mod 0).mbstat % 4 ≠ 1 → s.sys.jobs.find? (fun j => j.queue == q && j.ticket == ticket) = some j →
    (bit killed 0 = true → exec (.release q ticket killed) s = .next ((s.killJob j.id 1 0x14 1).mailDone 0 [])) ∧
    (bit killed 0 = false → ∃ t, exec (.release q ticket killed) s = .next t ∧ (t.mod 0).mbstat = 2 ∧
      ∀ w ∈ t.sys.crews, w.job = j.id → w.hold = false)) ∧
  (∀ (c : Nat) (s : State), (s.mod 0).mbstat % 4 ≠ 1 → s.inMesh c = true → (s.coreAt c).fenced = true →
    ∃ t, exec (.unfence c) s = .next t ∧ (t.coreAt c).fenced = false ∧ (t.mod 0).mbstat = 2) ∧
  (∀ (j : Job) (w : Crew) (job crew : Nat) (s t : State), (s.mod 0).mbstat % 4 ≠ 1 → s.jobNumbered job = some j → s.sys.crews.find? (fun w => w.job == j.id && w.idx == crew) = some w →
    s.requestPreempt w.id = (t, true) → exec (.mailboxPreempt job crew) s = .next (t.mailDone 0 []))

/-- One word of each of sixteen forms, as the spec writes it out beside its assembly text, decodes to that instruction with those operands;
the words 0 and 0xFFFFFFFF decode to nothing, in class 5 (R33, R36, R38, R39, R60, R65, R114, R145, R162, R206, R376) -/
def Obligations.DecodeWords : Prop :=
  decode 0x20531D80 = .ok (.add 5 6 7 1 1 0) ∧ decode 0x30531C88 = .ok (.mulh 5 6 7 0 1 0) ∧ decode 0x6084A800 = .ok (.fadd 8 9 10 0 0) ∧
  decode 0x74110C80 = .ok (.vfma 1 2 3 4 0) ∧ decode 0x685302A0 = .ok (.cvt 5 6 5 2 0) ∧ decode 0x029FFFF4 = .ok (.br 2 0 2097140) ∧
  decode 0x98531D90 = .ok (.ldx 5 6 7 1 1 2 0) ∧ decode 0xA0920123 = .ok (.gld 9 4 4 2 0 3) ∧ decode 0xA7FE1FE0 = .ok (.wait 15 15 0 15 15 0) ∧
  decode 0xB0FA1240 = .ok (.send 0 3 7 8 9 1 0) ∧ decode 0xC29214D8 = .ok (.amocas 9 4 5 6 3 0) ∧ decode 0xD0040428 = .ok (.mxmaZ 0 4 1 1 0) ∧
  decode 0xE6090010 = .ok (.eset 2 8 2 0) ∧ decode 0xE20CC700 = .ok (.trayput 6 7 0) ∧ decode 0x14742410 = .ok (.ctxload 7 8 9 0) ∧
  decode 0xEAA08C10 = .ok (.dbgRd 10 1 3 0) ∧ decode 0 = .error 5 ∧ decode 0xFFFFFFFF = .error 5

/-- The word of a well-formed instruction fits 32 bits and decodes to that instruction, with every operand it has; and where a word decodes to
an instruction, that instruction's word is the word (R33, R34, R36, R38, R39, R41) -/
def Obligations.DecodeEncode : Prop :=
  (∀ (i : Instr) (w : Nat), i.wellFormed = true → i.encode = some w → w < 2 ^ 32 ∧ decode w = .ok i) ∧
  (∀ (i : Instr) (w : Nat), decode w = .ok i → i.encode = some w)

/-- Where the device is out of reset and the turn goes to a strand with no BREAK and no soft error to take, whose fetch gives a word at which
no breakpoint stops it or a member of its gang: if the word decodes to i, the turn is exec of i in the state after the fetch, and if it
decodes to none, that of an unassigned encoding of its class. Of what the turn leaves, nothing changes while the strand is still stalled;
a strand that waited and no longer does returns to RUN with nothing else done; any other has issued, and the strands passed over age. Then
what is due is tidied up and 2 ns pass (log entry 9). A step in which an event's turn comes is exec of that event (R8, R53, R305, R389) -/
def Obligations.StepRunsDecoded : Prop :=
  (∀ (s u : State) (c k w : Nat), (s.mod 0).fw = true → s.pick.1 = .strand c k →
    let t := s.pick.2.focus c k
    t.st.stop = none → t.st.soft = false → t.fetch = (u, .word w) → u.stopHere = none →
    (∀ i, decode w = .ok i → step s = finish (afterTurn c k s.pick.2 (exec i { u with ir := w }))) ∧
    (∀ cls, decode w = .error cls → step s = finish (afterTurn c k s.pick.2 (exec (.unassignedEncoding w cls) u)))) ∧
  (∀ (c k : Nat) (s t : State),
    (t.stalls c k = true → afterTurn c k s (.next t) = .next t) ∧
    (t.stalls c k = false → (s.focus c k).st.life = .wait → afterTurn c k s (.next t) = .next (s.ready c k)) ∧
    (t.stalls c k = false → (s.focus c k).st.life ≠ .wait → s.unfetched c k = false →
      afterTurn c k s (.next t) = .next ((s.focus c k).members.foldl (fun t d => t.ageOthers d k) t))) ∧
  (∀ (s : State) (i : Instr), (s.mod 0).fw = true → s.pick.1 = .event i → step s = finish (exec i s.pick.2)) ∧
  (∀ s : State, s.inputs = [] → (s.mod 0).fw = false → step s = .next (s.tidy.elapse 2)) ∧
  (∀ t : State, finish (.next t) = .next (t.tidy.elapse 2))

/-- After reset no module has firmware, so nothing runs; every strand of every core is free and no core has a crew or a message; no queue,
job, crew or message in flight exists; every Mem is in its canonical form with nothing listed (log entry 3), and no strand waits to be
drained (R13, R305, R381) -/
def Obligations.ResetLeaves : Prop :=
  let s := State.reset
  (∀ m, (s.mod m).fw = false) ∧ (∀ c k, k < 16 → (vget (s.coreAt c).strands k {}).life = .free) ∧
  (∀ c, (s.coreAt c).crew = none ∧ (s.coreAt c).ni.lpq = [] ∧ (s.coreAt c).ni.hpq = [] ∧ (s.coreAt c).ni.cellar = [] ∧ (s.coreAt c).fenced = false) ∧
  s.sys.jobs = [] ∧ s.sys.crews = [] ∧ s.sys.flight = [] ∧ s.sys.waiters = [] ∧ (∀ d q, ((s.die d).queue q).valid = false) ∧
  s.sys.mem = [] ∧ s.memoryWf = true ∧ s.Drained

/-- RESTART and DISCARD end by themselves: in the state after any step, whatever the state before it, every strand that an owner asked to
restart or to discard and whose operations have all completed has been restarted or freed, on each core whose die is in no relock (R341)
(R398) -/
def Obligations.StepKeepsDrained : Prop :=
  ∀ s t : State, step s = .next t → t.Drained

/-- For every instruction or event and every state, exec answers a next state: traps, waits and failures are states, and the model neither
faults nor refuses (R6, R8, R53, R304) -/
def Obligations.AnswersNext : Prop :=
  ∀ (i : Instr) (s : State), ∃ t, exec i s = .next t

/-- An integer or floating-point instruction outside a gang that names no q3 and whose guard is false changes nothing and goes on at the next
word. g0 reads 0 and p0 true in every state, writes to them change nothing; every other register and predicate reads as last written and
no other changes (R27, R28, R34) -/
def Obligations.GuardsAndConstantRegisters : Prop :=
  (∀ (i : Instr) (d g : Nat) (l : List Nat) (s : State), integerForm i = some (d, l, g) ∨ floatForm i = some (d, l, g) → 31 ∉ d :: l →
    s.st.csr.gangSize = 0 → s.p g = false → exec i s = .next s.advance) ∧
  (∀ (v : Word) (b : Bool) (s : State), s.g 0 = 0 ∧ s.setG 0 v = s ∧ s.p 0 = true ∧ s.setP 0 b = s) ∧
  (∀ (i j : Nat) (v : Word) (s : State), s.k < 16 → i < 28 → i ≠ 0 → ((s.setG i v).g i = v) ∧ (j ≠ i → (s.setG i v).g j = s.g j) ∧ (s.setG i v).p j = s.p j) ∧
  (∀ (i j : Nat) (b : Bool) (s : State), s.k < 16 → i < 8 → i ≠ 0 → ((s.setP i b).p i = b) ∧ (j < 8 → j ≠ i → (s.setP i b).p j = s.p j) ∧
    (s.setP i b).g j = s.g j)
end

