-- ==== Sys2Proof/Laws/State.lean ====
section
/-! SUPPORT. What each update of the state does to each field of it, and to the focused strand and its registers. -/

namespace Sys2Proof.Machine

theorem vget_vset_self {α : Type} {n : Nat} (v : Vector α n) (i : Nat) (x d : α) (h : i < n) : vget (vset v i x) i d = x := by
  simp [vget, vset, h]

theorem vget_vset_ne {α : Type} {n : Nat} (v : Vector α n) (i j : Nat) (x d : α) (h : i ≠ j) : vget (vset v i x) j d = vget v j d := by
  simp [vget, vset, List.getD_eq_getElem?_getD, Vector.toList_setIfInBounds, h]

@[simp] theorem State.modCore_core (s : State) (f : Core → Core) : (s.modCore f).core = f s.core := rfl
@[simp] theorem State.modCore_k (s : State) (f : Core → Core) : (s.modCore f).k = s.k := rfl
@[simp] theorem State.modCore_others (s : State) (f : Core → Core) : (s.modCore f).others = s.others := rfl
@[simp] theorem State.modCore_clusters (s : State) (f : Core → Core) : (s.modCore f).clusters = s.clusters := rfl
@[simp] theorem State.modCore_dies (s : State) (f : Core → Core) : (s.modCore f).dies = s.dies := rfl
@[simp] theorem State.modCore_modules (s : State) (f : Core → Core) : (s.modCore f).modules = s.modules := rfl
@[simp] theorem State.modCore_sys (s : State) (f : Core → Core) : (s.modCore f).sys = s.sys := rfl
@[simp] theorem State.modCore_inputs (s : State) (f : Core → Core) : (s.modCore f).inputs = s.inputs := rfl
@[simp] theorem State.modCore_draw (s : State) (f : Core → Core) : (s.modCore f).draw = s.draw := rfl
@[simp] theorem State.modCore_ir (s : State) (f : Core → Core) : (s.modCore f).ir = s.ir := rfl

@[simp] theorem State.setSt_core (s : State) (t : Strand) : (s.setSt t).core = { s.core with strands := vset s.core.strands s.k t } := rfl
@[simp] theorem State.setSt_k (s : State) (t : Strand) : (s.setSt t).k = s.k := rfl
@[simp] theorem State.setSt_others (s : State) (t : Strand) : (s.setSt t).others = s.others := rfl
@[simp] theorem State.setSt_clusters (s : State) (t : Strand) : (s.setSt t).clusters = s.clusters := rfl
@[simp] theorem State.setSt_dies (s : State) (t : Strand) : (s.setSt t).dies = s.dies := rfl
@[simp] theorem State.setSt_modules (s : State) (t : Strand) : (s.setSt t).modules = s.modules := rfl
@[simp] theorem State.setSt_sys (s : State) (t : Strand) : (s.setSt t).sys = s.sys := rfl
@[simp] theorem State.setSt_inputs (s : State) (t : Strand) : (s.setSt t).inputs = s.inputs := rfl
@[simp] theorem State.setSt_draw (s : State) (t : Strand) : (s.setSt t).draw = s.draw := rfl
@[simp] theorem State.setSt_ir (s : State) (t : Strand) : (s.setSt t).ir = s.ir := rfl

@[simp] theorem State.modSt_core (s : State) (f : Strand → Strand) : (s.modSt f).core = { s.core with strands := vset s.core.strands s.k (f s.st) } := rfl
@[simp] theorem State.modSt_k (s : State) (f : Strand → Strand) : (s.modSt f).k = s.k := rfl
@[simp] theorem State.modSt_others (s : State) (f : Strand → Strand) : (s.modSt f).others = s.others := rfl
@[simp] theorem State.modSt_clusters (s : State) (f : Strand → Strand) : (s.modSt f).clusters = s.clusters := rfl
@[simp] theorem State.modSt_dies (s : State) (f : Strand → Strand) : (s.modSt f).dies = s.dies := rfl
@[simp] theorem State.modSt_modules (s : State) (f : Strand → Strand) : (s.modSt f).modules = s.modules := rfl
@[simp] theorem State.modSt_sys (s : State) (f : Strand → Strand) : (s.modSt f).sys = s.sys := rfl
@[simp] theorem State.modSt_inputs (s : State) (f : Strand → Strand) : (s.modSt f).inputs = s.inputs := rfl
@[simp] theorem State.modSt_draw (s : State) (f : Strand → Strand) : (s.modSt f).draw = s.draw := rfl
@[simp] theorem State.modSt_ir (s : State) (f : Strand → Strand) : (s.modSt f).ir = s.ir := rfl

@[simp] theorem State.modNi_core (s : State) (f : Ni → Ni) : (s.modNi f).core = { s.core with ni := f s.core.ni } := rfl
@[simp] theorem State.modNi_k (s : State) (f : Ni → Ni) : (s.modNi f).k = s.k := rfl
@[simp] theorem State.modNi_others (s : State) (f : Ni → Ni) : (s.modNi f).others = s.others := rfl
@[simp] theorem State.modNi_clusters (s : State) (f : Ni → Ni) : (s.modNi f).clusters = s.clusters := rfl
@[simp] theorem State.modNi_dies (s : State) (f : Ni → Ni) : (s.modNi f).dies = s.dies := rfl
@[simp] theorem State.modNi_modules (s : State) (f : Ni → Ni) : (s.modNi f).modules = s.modules := rfl
@[simp] theorem State.modNi_sys (s : State) (f : Ni → Ni) : (s.modNi f).sys = s.sys := rfl
@[simp] theorem State.modNi_inputs (s : State) (f : Ni → Ni) : (s.modNi f).inputs = s.inputs := rfl
@[simp] theorem State.modNi_draw (s : State) (f : Ni → Ni) : (s.modNi f).draw = s.draw := rfl
@[simp] theorem State.modNi_ir (s : State) (f : Ni → Ni) : (s.modNi f).ir = s.ir := rfl

@[simp] theorem State.modSys_core (s : State) (f : Sys → Sys) : (s.modSys f).core = s.core := rfl
@[simp] theorem State.modSys_k (s : State) (f : Sys → Sys) : (s.modSys f).k = s.k := rfl
@[simp] theorem State.modSys_others (s : State) (f : Sys → Sys) : (s.modSys f).others = s.others := rfl
@[simp] theorem State.modSys_clusters (s : State) (f : Sys → Sys) : (s.modSys f).clusters = s.clusters := rfl
@[simp] theorem State.modSys_dies (s : State) (f : Sys → Sys) : (s.modSys f).dies = s.dies := rfl
@[simp] theorem State.modSys_modules (s : State) (f : Sys → Sys) : (s.modSys f).modules = s.modules := rfl
@[simp] theorem State.modSys_sys (s : State) (f : Sys → Sys) : (s.modSys f).sys = f s.sys := rfl
@[simp] theorem State.modSys_inputs (s : State) (f : Sys → Sys) : (s.modSys f).inputs = s.inputs := rfl
@[simp] theorem State.modSys_draw (s : State) (f : Sys → Sys) : (s.modSys f).draw = s.draw := rfl
@[simp] theorem State.modSys_ir (s : State) (f : Sys → Sys) : (s.modSys f).ir = s.ir := rfl

@[simp] theorem State.setCluster_core (s : State) (c : Cluster) : (s.setCluster c).core = s.core := rfl
@[simp] theorem State.setCluster_k (s : State) (c : Cluster) : (s.setCluster c).k = s.k := rfl
@[simp] theorem State.setCluster_others (s : State) (c : Cluster) : (s.setCluster c).others = s.others := rfl
@[simp] theorem State.setCluster_clusters (s : State) (c : Cluster) : (s.setCluster c).clusters = putKey Cluster.key c s.clusters := rfl
@[simp] theorem State.setCluster_dies (s : State) (c : Cluster) : (s.setCluster c).dies = s.dies := rfl
@[simp] theorem State.setCluster_modules (s : State) (c : Cluster) : (s.setCluster c).modules = s.modules := rfl
@[simp] theorem State.setCluster_sys (s : State) (c : Cluster) : (s.setCluster c).sys = s.sys := rfl
@[simp] theorem State.setCluster_inputs (s : State) (c : Cluster) : (s.setCluster c).inputs = s.inputs := rfl
@[simp] theorem State.setCluster_draw (s : State) (c : Cluster) : (s.setCluster c).draw = s.draw := rfl
@[simp] theorem State.setCluster_ir (s : State) (c : Cluster) : (s.setCluster c).ir = s.ir := rfl

@[simp] theorem State.modCluster_core (s : State) (n : Nat) (f : Cluster → Cluster) : (s.modCluster n f).core = s.core := rfl
@[simp] theorem State.modCluster_k (s : State) (n : Nat) (f : Cluster → Cluster) : (s.modCluster n f).k = s.k := rfl
@[simp] theorem State.modCluster_others (s : State) (n : Nat) (f : Cluster → Cluster) : (s.modCluster n f).others = s.others := rfl
@[simp] theorem State.modCluster_clusters (s : State) (n : Nat) (f : Cluster → Cluster) : (s.modCluster n f).clusters = putKey Cluster.key (f (s.cluster n)) s.clusters := rfl
@[simp] theorem State.modCluster_dies (s : State) (n : Nat) (f : Cluster → Cluster) : (s.modCluster n f).dies = s.dies := rfl
@[simp] theorem State.modCluster_modules (s : State) (n : Nat) (f : Cluster → Cluster) : (s.modCluster n f).modules = s.modules := rfl
@[simp] theorem State.modCluster_sys (s : State) (n : Nat) (f : Cluster → Cluster) : (s.modCluster n f).sys = s.sys := rfl
@[simp] theorem State.modCluster_inputs (s : State) (n : Nat) (f : Cluster → Cluster) : (s.modCluster n f).inputs = s.inputs := rfl
@[simp] theorem State.modCluster_draw (s : State) (n : Nat) (f : Cluster → Cluster) : (s.modCluster n f).draw = s.draw := rfl
@[simp] theorem State.modCluster_ir (s : State) (n : Nat) (f : Cluster → Cluster) : (s.modCluster n f).ir = s.ir := rfl

@[simp] theorem State.setDie_core (s : State) (d : Die) : (s.setDie d).core = s.core := rfl
@[simp] theorem State.setDie_k (s : State) (d : Die) : (s.setDie d).k = s.k := rfl
@[simp] theorem State.setDie_others (s : State) (d : Die) : (s.setDie d).others = s.others := rfl
@[simp] theorem State.setDie_clusters (s : State) (d : Die) : (s.setDie d).clusters = s.clusters := rfl
@[simp] theorem State.setDie_dies (s : State) (d : Die) : (s.setDie d).dies = putKey Die.key d s.dies := rfl
@[simp] theorem State.setDie_modules (s : State) (d : Die) : (s.setDie d).modules = s.modules := rfl
@[simp] theorem State.setDie_sys (s : State) (d : Die) : (s.setDie d).sys = s.sys := rfl
@[simp] theorem State.setDie_inputs (s : State) (d : Die) : (s.setDie d).inputs = s.inputs := rfl
@[simp] theorem State.setDie_draw (s : State) (d : Die) : (s.setDie d).draw = s.draw := rfl
@[simp] theorem State.setDie_ir (s : State) (d : Die) : (s.setDie d).ir = s.ir := rfl

@[simp] theorem State.modDie_core (s : State) (n : Nat) (f : Die → Die) : (s.modDie n f).core = s.core := rfl
@[simp] theorem State.modDie_k (s : State) (n : Nat) (f : Die → Die) : (s.modDie n f).k = s.k := rfl
@[simp] theorem State.modDie_others (s : State) (n : Nat) (f : Die → Die) : (s.modDie n f).others = s.others := rfl
@[simp] theorem State.modDie_clusters (s : State) (n : Nat) (f : Die → Die) : (s.modDie n f).clusters = s.clusters := rfl
@[simp] theorem State.modDie_dies (s : State) (n : Nat) (f : Die → Die) : (s.modDie n f).dies = putKey Die.key (f (s.die n)) s.dies := rfl
@[simp] theorem State.modDie_modules (s : State) (n : Nat) (f : Die → Die) : (s.modDie n f).modules = s.modules := rfl
@[simp] theorem State.modDie_sys (s : State) (n : Nat) (f : Die → Die) : (s.modDie n f).sys = s.sys := rfl
@[simp] theorem State.modDie_inputs (s : State) (n : Nat) (f : Die → Die) : (s.modDie n f).inputs = s.inputs := rfl
@[simp] theorem State.modDie_draw (s : State) (n : Nat) (f : Die → Die) : (s.modDie n f).draw = s.draw := rfl
@[simp] theorem State.modDie_ir (s : State) (n : Nat) (f : Die → Die) : (s.modDie n f).ir = s.ir := rfl

@[simp] theorem State.modMod_core (s : State) (n : Nat) (f : Module → Module) : (s.modMod n f).core = s.core := rfl
@[simp] theorem State.modMod_k (s : State) (n : Nat) (f : Module → Module) : (s.modMod n f).k = s.k := rfl
@[simp] theorem State.modMod_others (s : State) (n : Nat) (f : Module → Module) : (s.modMod n f).others = s.others := rfl
@[simp] theorem State.modMod_clusters (s : State) (n : Nat) (f : Module → Module) : (s.modMod n f).clusters = s.clusters := rfl
@[simp] theorem State.modMod_dies (s : State) (n : Nat) (f : Module → Module) : (s.modMod n f).dies = s.dies := rfl
@[simp] theorem State.modMod_modules (s : State) (n : Nat) (f : Module → Module) : (s.modMod n f).modules = putKey Module.key (f (s.mod n)) s.modules := rfl
@[simp] theorem State.modMod_sys (s : State) (n : Nat) (f : Module → Module) : (s.modMod n f).sys = s.sys := rfl
@[simp] theorem State.modMod_inputs (s : State) (n : Nat) (f : Module → Module) : (s.modMod n f).inputs = s.inputs := rfl
@[simp] theorem State.modMod_draw (s : State) (n : Nat) (f : Module → Module) : (s.modMod n f).draw = s.draw := rfl
@[simp] theorem State.modMod_ir (s : State) (n : Nat) (f : Module → Module) : (s.modMod n f).ir = s.ir := rfl

@[simp] theorem State.drawn_core (s : State) : (s.drawn).core = s.core := rfl
@[simp] theorem State.drawn_k (s : State) : (s.drawn).k = s.k := rfl
@[simp] theorem State.drawn_others (s : State) : (s.drawn).others = s.others := rfl
@[simp] theorem State.drawn_clusters (s : State) : (s.drawn).clusters = s.clusters := rfl
@[simp] theorem State.drawn_dies (s : State) : (s.drawn).dies = s.dies := rfl
@[simp] theorem State.drawn_modules (s : State) : (s.drawn).modules = s.modules := rfl
@[simp] theorem State.drawn_sys (s : State) : (s.drawn).sys = s.sys := rfl
@[simp] theorem State.drawn_inputs (s : State) : (s.drawn).inputs = s.inputs := rfl
@[simp] theorem State.drawn_draw (s : State) : (s.drawn).draw = s.draw + 1 := rfl
@[simp] theorem State.drawn_ir (s : State) : (s.drawn).ir = s.ir := rfl

@[simp] theorem State.modCsr_core (s : State) (f : Csrs → Csrs) : (s.modCsr f).core = { s.core with strands := vset s.core.strands s.k { s.st with csr := f s.st.csr } } := rfl
@[simp] theorem State.modCsr_k (s : State) (f : Csrs → Csrs) : (s.modCsr f).k = s.k := rfl
@[simp] theorem State.modCsr_others (s : State) (f : Csrs → Csrs) : (s.modCsr f).others = s.others := rfl
@[simp] theorem State.modCsr_clusters (s : State) (f : Csrs → Csrs) : (s.modCsr f).clusters = s.clusters := rfl
@[simp] theorem State.modCsr_dies (s : State) (f : Csrs → Csrs) : (s.modCsr f).dies = s.dies := rfl
@[simp] theorem State.modCsr_modules (s : State) (f : Csrs → Csrs) : (s.modCsr f).modules = s.modules := rfl
@[simp] theorem State.modCsr_sys (s : State) (f : Csrs → Csrs) : (s.modCsr f).sys = s.sys := rfl
@[simp] theorem State.modCsr_inputs (s : State) (f : Csrs → Csrs) : (s.modCsr f).inputs = s.inputs := rfl
@[simp] theorem State.modCsr_draw (s : State) (f : Csrs → Csrs) : (s.modCsr f).draw = s.draw := rfl
@[simp] theorem State.modCsr_ir (s : State) (f : Csrs → Csrs) : (s.modCsr f).ir = s.ir := rfl

@[simp] theorem State.setW_core (s : State) (i : Nat) (v : Wide) : (s.setW i v).core = { s.core with strands := vset s.core.strands s.k { s.st with w := vset s.st.w i v } } := rfl
@[simp] theorem State.setW_k (s : State) (i : Nat) (v : Wide) : (s.setW i v).k = s.k := rfl
@[simp] theorem State.setW_others (s : State) (i : Nat) (v : Wide) : (s.setW i v).others = s.others := rfl
@[simp] theorem State.setW_clusters (s : State) (i : Nat) (v : Wide) : (s.setW i v).clusters = s.clusters := rfl
@[simp] theorem State.setW_dies (s : State) (i : Nat) (v : Wide) : (s.setW i v).dies = s.dies := rfl
@[simp] theorem State.setW_modules (s : State) (i : Nat) (v : Wide) : (s.setW i v).modules = s.modules := rfl
@[simp] theorem State.setW_sys (s : State) (i : Nat) (v : Wide) : (s.setW i v).sys = s.sys := rfl
@[simp] theorem State.setW_inputs (s : State) (i : Nat) (v : Wide) : (s.setW i v).inputs = s.inputs := rfl
@[simp] theorem State.setW_draw (s : State) (i : Nat) (v : Wide) : (s.setW i v).draw = s.draw := rfl
@[simp] theorem State.setW_ir (s : State) (i : Nat) (v : Wide) : (s.setW i v).ir = s.ir := rfl

@[simp] theorem State.setG_k (s : State) (i : Nat) (v : Word) : (s.setG i v).k = s.k := by
  unfold State.setG; split <;> rfl
@[simp] theorem State.setG_others (s : State) (i : Nat) (v : Word) : (s.setG i v).others = s.others := by
  unfold State.setG; split <;> rfl
@[simp] theorem State.setG_clusters (s : State) (i : Nat) (v : Word) : (s.setG i v).clusters = s.clusters := by
  unfold State.setG; split <;> rfl
@[simp] theorem State.setG_dies (s : State) (i : Nat) (v : Word) : (s.setG i v).dies = s.dies := by
  unfold State.setG; split <;> rfl
@[simp] theorem State.setG_modules (s : State) (i : Nat) (v : Word) : (s.setG i v).modules = s.modules := by
  unfold State.setG; split <;> rfl
@[simp] theorem State.setG_sys (s : State) (i : Nat) (v : Word) : (s.setG i v).sys = s.sys := by
  unfold State.setG; split <;> rfl
@[simp] theorem State.setG_inputs (s : State) (i : Nat) (v : Word) : (s.setG i v).inputs = s.inputs := by
  unfold State.setG; split <;> rfl
@[simp] theorem State.setG_draw (s : State) (i : Nat) (v : Word) : (s.setG i v).draw = s.draw := by
  unfold State.setG; split <;> rfl
@[simp] theorem State.setG_ir (s : State) (i : Nat) (v : Word) : (s.setG i v).ir = s.ir := by
  unfold State.setG; split <;> rfl

@[simp] theorem State.setP_k (s : State) (i : Nat) (v : Bool) : (s.setP i v).k = s.k := by
  unfold State.setP; split <;> rfl
@[simp] theorem State.setP_others (s : State) (i : Nat) (v : Bool) : (s.setP i v).others = s.others := by
  unfold State.setP; split <;> rfl
@[simp] theorem State.setP_clusters (s : State) (i : Nat) (v : Bool) : (s.setP i v).clusters = s.clusters := by
  unfold State.setP; split <;> rfl
@[simp] theorem State.setP_dies (s : State) (i : Nat) (v : Bool) : (s.setP i v).dies = s.dies := by
  unfold State.setP; split <;> rfl
@[simp] theorem State.setP_modules (s : State) (i : Nat) (v : Bool) : (s.setP i v).modules = s.modules := by
  unfold State.setP; split <;> rfl
@[simp] theorem State.setP_sys (s : State) (i : Nat) (v : Bool) : (s.setP i v).sys = s.sys := by
  unfold State.setP; split <;> rfl
@[simp] theorem State.setP_inputs (s : State) (i : Nat) (v : Bool) : (s.setP i v).inputs = s.inputs := by
  unfold State.setP; split <;> rfl
@[simp] theorem State.setP_draw (s : State) (i : Nat) (v : Bool) : (s.setP i v).draw = s.draw := by
  unfold State.setP; split <;> rfl
@[simp] theorem State.setP_ir (s : State) (i : Nat) (v : Bool) : (s.setP i v).ir = s.ir := by
  unfold State.setP; split <;> rfl

@[simp] theorem State.orFlags_k (s : State) (fl : Nat) : (s.orFlags fl).k = s.k := by
  unfold State.orFlags; split <;> rfl
@[simp] theorem State.orFlags_others (s : State) (fl : Nat) : (s.orFlags fl).others = s.others := by
  unfold State.orFlags; split <;> rfl
@[simp] theorem State.orFlags_clusters (s : State) (fl : Nat) : (s.orFlags fl).clusters = s.clusters := by
  unfold State.orFlags; split <;> rfl
@[simp] theorem State.orFlags_dies (s : State) (fl : Nat) : (s.orFlags fl).dies = s.dies := by
  unfold State.orFlags; split <;> rfl
@[simp] theorem State.orFlags_modules (s : State) (fl : Nat) : (s.orFlags fl).modules = s.modules := by
  unfold State.orFlags; split <;> rfl
@[simp] theorem State.orFlags_sys (s : State) (fl : Nat) : (s.orFlags fl).sys = s.sys := by
  unfold State.orFlags; split <;> rfl
@[simp] theorem State.orFlags_inputs (s : State) (fl : Nat) : (s.orFlags fl).inputs = s.inputs := by
  unfold State.orFlags; split <;> rfl
@[simp] theorem State.orFlags_draw (s : State) (fl : Nat) : (s.orFlags fl).draw = s.draw := by
  unfold State.orFlags; split <;> rfl
@[simp] theorem State.orFlags_ir (s : State) (fl : Nat) : (s.orFlags fl).ir = s.ir := by
  unfold State.orFlags; split <;> rfl

@[simp] theorem State.modCrew_core (s : State) (n : Nat) (f : Crew → Crew) : (s.modCrew n f).core = s.core := rfl
@[simp] theorem State.modCrew_k (s : State) (n : Nat) (f : Crew → Crew) : (s.modCrew n f).k = s.k := rfl
@[simp] theorem State.modCrew_others (s : State) (n : Nat) (f : Crew → Crew) : (s.modCrew n f).others = s.others := rfl
@[simp] theorem State.modCrew_clusters (s : State) (n : Nat) (f : Crew → Crew) : (s.modCrew n f).clusters = s.clusters := rfl
@[simp] theorem State.modCrew_dies (s : State) (n : Nat) (f : Crew → Crew) : (s.modCrew n f).dies = s.dies := rfl
@[simp] theorem State.modCrew_modules (s : State) (n : Nat) (f : Crew → Crew) : (s.modCrew n f).modules = s.modules := rfl
@[simp] theorem State.modCrew_sys (s : State) (n : Nat) (f : Crew → Crew) : (s.modCrew n f).sys = { s.sys with crews := s.sys.crews.map fun c => if c.id = n then f c else c } := rfl
@[simp] theorem State.modCrew_inputs (s : State) (n : Nat) (f : Crew → Crew) : (s.modCrew n f).inputs = s.inputs := rfl
@[simp] theorem State.modCrew_draw (s : State) (n : Nat) (f : Crew → Crew) : (s.modCrew n f).draw = s.draw := rfl
@[simp] theorem State.modCrew_ir (s : State) (n : Nat) (f : Crew → Crew) : (s.modCrew n f).ir = s.ir := rfl

@[simp] theorem State.modJob_core (s : State) (n : Nat) (f : Job → Job) : (s.modJob n f).core = s.core := rfl
@[simp] theorem State.modJob_k (s : State) (n : Nat) (f : Job → Job) : (s.modJob n f).k = s.k := rfl
@[simp] theorem State.modJob_others (s : State) (n : Nat) (f : Job → Job) : (s.modJob n f).others = s.others := rfl
@[simp] theorem State.modJob_clusters (s : State) (n : Nat) (f : Job → Job) : (s.modJob n f).clusters = s.clusters := rfl
@[simp] theorem State.modJob_dies (s : State) (n : Nat) (f : Job → Job) : (s.modJob n f).dies = s.dies := rfl
@[simp] theorem State.modJob_modules (s : State) (n : Nat) (f : Job → Job) : (s.modJob n f).modules = s.modules := rfl
@[simp] theorem State.modJob_sys (s : State) (n : Nat) (f : Job → Job) : (s.modJob n f).sys = { s.sys with jobs := s.sys.jobs.map fun j => if j.id = n then f j else j } := rfl
@[simp] theorem State.modJob_inputs (s : State) (n : Nat) (f : Job → Job) : (s.modJob n f).inputs = s.inputs := rfl
@[simp] theorem State.modJob_draw (s : State) (n : Nat) (f : Job → Job) : (s.modJob n f).draw = s.draw := rfl
@[simp] theorem State.modJob_ir (s : State) (n : Nat) (f : Job → Job) : (s.modJob n f).ir = s.ir := rfl

@[simp] theorem State.goTo_k (s : State) (pc : Nat) : (s.goTo pc).k = s.k := rfl
@[simp] theorem State.goTo_others (s : State) (pc : Nat) : (s.goTo pc).others = s.others := rfl
@[simp] theorem State.goTo_clusters (s : State) (pc : Nat) : (s.goTo pc).clusters = s.clusters := rfl
@[simp] theorem State.goTo_dies (s : State) (pc : Nat) : (s.goTo pc).dies = s.dies := rfl
@[simp] theorem State.goTo_modules (s : State) (pc : Nat) : (s.goTo pc).modules = s.modules := rfl
@[simp] theorem State.goTo_sys (s : State) (pc : Nat) : (s.goTo pc).sys = s.sys := rfl
@[simp] theorem State.goTo_inputs (s : State) (pc : Nat) : (s.goTo pc).inputs = s.inputs := rfl
@[simp] theorem State.goTo_draw (s : State) (pc : Nat) : (s.goTo pc).draw = s.draw := rfl
@[simp] theorem State.goTo_ir (s : State) (pc : Nat) : (s.goTo pc).ir = s.ir := rfl

/-! The focused strand after an update. -/

@[simp] theorem State.modSys_st (s : State) (f : Sys → Sys) : (s.modSys f).st = s.st := rfl
@[simp] theorem State.modCluster_st (s : State) (n : Nat) (f : Cluster → Cluster) : (s.modCluster n f).st = s.st := rfl
@[simp] theorem State.modDie_st (s : State) (n : Nat) (f : Die → Die) : (s.modDie n f).st = s.st := rfl
@[simp] theorem State.modMod_st (s : State) (n : Nat) (f : Module → Module) : (s.modMod n f).st = s.st := rfl
@[simp] theorem State.drawn_st (s : State) : s.drawn.st = s.st := rfl
@[simp] theorem State.modNi_st (s : State) (f : Ni → Ni) : (s.modNi f).st = s.st := rfl

theorem State.setSt_st {s : State} (t : Strand) (h : s.k < 16) : (s.setSt t).st = t := vget_vset_self _ _ _ _ h
theorem State.modSt_st {s : State} (f : Strand → Strand) (h : s.k < 16) : (s.modSt f).st = f s.st := State.setSt_st _ h
theorem State.modCsr_st {s : State} (f : Csrs → Csrs) (h : s.k < 16) : (s.modCsr f).st = { s.st with csr := f s.st.csr } := State.modSt_st _ h

/-- A strand that the focus is not on is the same after an update of the focused one. -/
theorem State.modSt_other {s : State} (f : Strand → Strand) {j : Nat} (h : s.k ≠ j) : vget (s.modSt f).core.strands j {} = vget s.core.strands j {} :=
  vget_vset_ne _ _ _ _ _ h

end Sys2Proof.Machine
end

