-- ==== Sys2Proof/Laws/Events.lean ====
section
/-! SUPPORT. What the operations that every event shares do: the focus, the event of an outstanding operation, its completion; and what a strand's
instruction makes of its outcome. -/

namespace Sys2Proof.Machine

@[simp] theorem State.focus_self (s : State) : s.focus s.here s.k = s := by simp [State.focus]

/-- Something done at the focused strand that leaves the focus where it is. -/
theorem State.atCore_self {s : State} {f : State → State} (h : (f s).here = s.here) (hk : (f s).k = s.k) : s.atCore s.here s.k f = f s := by
  show (f (s.focus s.here s.k)).focus s.here s.k = f s
  rw [State.focus_self, ← h, ← hk, State.focus_self]

/-- The event of an outstanding operation of the focused strand is what it does to the operation (R22, R77). -/
theorem opEvent_waits {o : Op} {s : State} (h : Waits o s) {ok : Op → Bool} (hok : ok o = true) (f : Op → State → State) :
    opEvent s.here s.k o.id ok f s = .next ((f o s).focus s.here s.k) := by
  have hk : ¬ 16 ≤ s.k := by have := h.strand; omega
  simp only [opEvent, h.mesh, hk, State.atCore, State.focus_self, h.there, h.outstanding, hok, h.locked, Bool.not_true, Bool.not_false, Bool.false_or,
    decide_false, Bool.and_self, Bool.false_eq_true, if_false, if_true]

/-- The same where the focus stays. -/
theorem opEvent_stays {o : Op} {s : State} (h : Waits o s) {ok : Op → Bool} (hok : ok o = true) {f : Op → State → State}
    (hh : (f o s).here = s.here) (hk : (f o s).k = s.k) : opEvent s.here s.k o.id ok f s = .next (f o s) := by
  rw [opEvent_waits h hok, ← hh, ← hk, State.focus_self]

/-! Settling an instruction's outcome (R53). -/

@[simp] theorem settle_next (s t : State) : settle s (.next t) = .next (t.goTo (t.st.pc + 4)) := rfl
@[simp] theorem settle_jump (s t : State) (pc : Nat) : settle s (.jump pc t) = .next (t.goTo pc) := rfl
@[simp] theorem settle_hold (s : State) : settle s .hold = .next s.park := rfl
@[simp] theorem settle_wait (s : State) (f : State → State) : settle s (.wait f) = .next (f s).park := rfl
@[simp] theorem settle_trap (s : State) (t : Trap) (f : State → State) : settle s (.trap t f) = .next ((f s).takeTrap t) := rfl
@[simp] theorem settle_gone (s t : State) : settle s (.gone t) = .next t := rfl

/-- Every outcome of an instruction is a next state. -/
theorem settle_answers (s : State) (a : Act) : ∃ t, settle s a = .next t := by cases a <;> exact ⟨_, rfl⟩

theorem perform_answers (body : State → Act) (s : State) : ∃ t, perform body s = .next t := by
  unfold perform; split
  · exact settle_answers _ _
  · exact ⟨_, rfl⟩

theorem issue_answers (g : Nat) (regs : List Nat) (body : State → Act) (s : State) : ∃ t, issue g regs body s = .next t := perform_answers _ _

theorem issueNoSpec_answers (g : Nat) (regs : List Nat) (body : State → Act) (s : State) : ∃ t, issueNoSpec g regs body s = .next t := perform_answers _ _

theorem opEvent_answers (c k id : Nat) (ok : Op → Bool) (f : Op → State → State) (s : State) : ∃ t, opEvent c k id ok f s = .next t := by
  unfold opEvent; split <;> exact ⟨_, rfl⟩

/-- The strand goes on at a pc (R53): nothing but its scheduling changes. -/
theorem State.goTo_st {s : State} (pc : Nat) (h : s.k < 16) :
    (s.goTo pc).st = { s.st with pc := pc % 2 ^ 48, life := .run, waiting := .none, age := 0, passBp := false } := by
  show vget (vset s.core.strands s.k _) s.k {} = _
  rw [vget_vset_self _ _ _ _ h]

/-! Completion of an operation (R23, R77, R78). -/

/-- The state with the destination of a completed operation written. -/
def State.wrote (s : State) (o : Op) (v : Option Word) : State :=
  match o.d, v with
  | some d, some v => s.setG d v
  | _, _ => s

theorem State.wrote_k (s : State) (o : Op) (v : Option Word) : (s.wrote o v).k = s.k := by
  unfold State.wrote; split <;> simp

theorem State.wrote_sys (s : State) (o : Op) (v : Option Word) : (s.wrote o v).sys = s.sys := by
  unfold State.wrote; split <;> simp

theorem State.setG_st {s : State} (i : Nat) (v : Word) (h : s.k < 16) :
    (s.setG i v).st = if i = 0 then s.st else { s.st with g := vset s.st.g i v } := by
  unfold State.setG; split
  · rfl
  · exact State.modSt_st _ h

/-- A completion without a failure or a flag: its destination written, the operation gone, its record in q2, its ranges and locks released. -/
theorem State.completeOp_eq (s : State) (o : Op) (v : Option Word) : ∃ (n : Nat) (f : Cluster → Cluster) (g : Core → Core), (∀ c, (g c).strands = c.strands) ∧
    s.completeOp o none 0 v = ((((s.wrote o v).modSt fun t => { t with
      ops := t.ops.filter fun p => p.id != o.id
      q2 := if o.record then t.q2 ++ [word (o.pc % 2 ^ 48 + o.kind.engine * 2 ^ 56)] else t.q2 }).modCluster n f).modCore g) := by
  have hr : recordStatus none % 2 ^ 8 * 2 ^ 48 = 0 := rfl
  unfold State.completeOp State.wrote
  rcases o.d with _ | d <;> rcases v with _ | x <;>
    simp only [show s.orFlags 0 = s from rfl, Nat.zero_and, if_true, hr, Nat.add_zero] <;>
    (refine ⟨_, _, _, ?_, rfl⟩; intro _; rfl)

theorem State.completeOp_st {s : State} (o : Op) (v : Option Word) (h : s.k < 16) :
    (s.completeOp o none 0 v).st = { (s.wrote o v).st with
      ops := (s.wrote o v).st.ops.filter fun p => p.id != o.id
      q2 := if o.record then (s.wrote o v).st.q2 ++ [word (o.pc % 2 ^ 48 + o.kind.engine * 2 ^ 56)] else (s.wrote o v).st.q2 } := by
  have hk : (s.wrote o v).k < 16 := by rw [State.wrote_k]; exact h
  obtain ⟨n, f, g, hg, e⟩ := State.completeOp_eq s o v
  rw [e]
  show vget (g _).strands _ {} = _
  rw [hg]
  exact vget_vset_self _ _ _ _ hk

theorem State.completeOp_sys (s : State) (o : Op) (v : Option Word) : (s.completeOp o none 0 v).sys = s.sys := by
  obtain ⟨n, f, g, -, e⟩ := State.completeOp_eq s o v
  rw [e]; exact State.wrote_sys s o v

/-- The operation has retired (R23, R77, R78). -/
theorem State.completeOp_retired {s : State} (o : Op) (v : Option Word) (h : s.k < 16) : Retired o v s (s.completeOp o none 0 v) := by
  have e := State.completeOp_st o v h
  have w : (s.wrote o v).st.ops = s.st.ops ∧ (s.wrote o v).st.q2 = s.st.q2 ∧ (s.wrote o v).st.pc = s.st.pc := by
    unfold State.wrote; split
    · rw [State.setG_st _ _ h]; split <;> exact ⟨rfl, rfl, rfl⟩
    · exact ⟨rfl, rfl, rfl⟩
  refine ⟨by rw [e, w.1], ?_, ?_, by rw [e, w.2.2]⟩
  · rw [e, w.2.1]; dsimp only; split <;> simp
  · intro d x hd hv h0 h28
    have hg : (s.wrote o v).st.g = vset s.st.g d x := by
      simp only [State.wrote, hd, hv]
      rw [State.setG_st _ _ h, if_neg (by omega)]
    unfold State.g
    rw [if_neg (by omega), e, hg]
    exact vget_vset_self _ _ _ _ h28

/-! Requests handed to an agent (R83, R179): the queue takes one while it has room, and else the answer is that it is busy. -/

theorem State.toArrayAgent_room {s : State} {m : Msg} (h : (s.cluster (s.clusterKey m.dst)).agent.length < 64) :
    s.toArrayAgent m = s.modCluster (s.clusterKey m.dst) fun c => { c with agent := c.agent ++ [{ msg := m }] } := by
  simp [State.toArrayAgent, Nat.not_le.mpr h]

theorem State.toArrayAgent_busy {s : State} {m : Msg} (h : 64 ≤ (s.cluster (s.clusterKey m.dst)).agent.length) :
    s.toArrayAgent m = s.launchMsg (agentReply m 1 none 0 0 .arrayAgent) := by
  simp [State.toArrayAgent, h]

theorem State.toCopyAgent_room {s : State} {m : Msg} (h : (s.cluster (s.clusterKey m.dst)).copyAgent.length < 16) :
    s.toCopyAgent m = s.modCluster (s.clusterKey m.dst) fun c => { c with copyAgent := c.copyAgent ++ [{ msg := m }] } := by
  simp [State.toCopyAgent, Nat.not_le.mpr h]

theorem State.toCopyAgent_busy {s : State} {m : Msg} (h : 16 ≤ (s.cluster (s.clusterKey m.dst)).copyAgent.length) :
    s.toCopyAgent m = s.launchMsg (agentReply m 1 none 0 0 .copyAgent) := by
  simp [State.toCopyAgent, h]

end Sys2Proof.Machine
end

