-- ==== Sys2Proof/Laws/Memory.lean ====
section
/-! SUPPORT. Sparse memory (log entry 3): every operation on it keeps the canonical form, and what a read gives after a write. -/

namespace Sys2Proof.Machine

/-- The canonical form, cell by cell. -/
theorem Mem.wf_iff {m : Mem} : m.wf = true ↔ m.Pairwise (fun c d => c.1 < d.1) ∧ ∀ c ∈ m, c.2 ≠ 0 := by
  induction m with
  | nil => simp [Mem.wf]
  | cons c m ih =>
    cases m with
    | nil => simp [Mem.wf]
    | cons d m =>
      simp only [Mem.wf, Bool.and_eq_true, bne_iff_ne, ne_eq, decide_eq_true_eq, ih]
      constructor
      · rintro ⟨⟨h0, h1⟩, hp, hz⟩
        refine ⟨List.pairwise_cons.mpr ⟨fun e he => ?_, hp⟩, ?_⟩
        · rcases List.mem_cons.mp he with rfl | he
          · exact h1
          · exact Nat.lt_trans h1 (List.rel_of_pairwise_cons hp he)
        · intro e he
          rcases List.mem_cons.mp he with rfl | he
          · exact h0
          · exact hz e he
      · rintro ⟨hp, hz⟩
        rw [List.pairwise_cons] at hp
        exact ⟨⟨hz c (by simp), hp.1 d (by simp)⟩, hp.2, fun e he => hz e (List.mem_cons_of_mem c he)⟩

theorem Mem.wf_nil : Mem.wf [] = true := rfl

/-- A part of a canonical memory is canonical. -/
theorem Mem.wf_filter {m : Mem} (h : m.wf = true) (p : Host.Cell → Bool) : Mem.wf (m.filter p) = true := by
  rw [wf_iff] at h ⊢
  exact ⟨h.1.filter p, fun c hc => h.2 c (List.mem_filter.mp hc).1⟩

/-- Three canonical parts, one below the other, make a canonical memory. -/
theorem Mem.wf_append3 {a b c : Mem} {lo hi : Nat} (ha : a.wf = true) (hb : b.wf = true) (hc : c.wf = true) (la : ∀ x ∈ a, x.1 < lo)
    (lb : ∀ x ∈ b, lo ≤ x.1 ∧ x.1 < hi) (lc : ∀ x ∈ c, hi ≤ x.1) (h : lo ≤ hi) : Mem.wf (a ++ b ++ c) = true := by
  rw [wf_iff] at ha hb hc ⊢
  constructor
  · rw [List.pairwise_append, List.pairwise_append]
    refine ⟨⟨ha.1, hb.1, fun x hx y hy => ?_⟩, hc.1, fun x hx y hy => ?_⟩
    · have := la x hx; have := lb y hy; omega
    · have := lc y hy
      rcases List.mem_append.mp hx with hx | hx
      · have := la x hx; omega
      · have := lb x hx; omega
  · intro x hx
    simp only [List.mem_append] at hx
    rcases hx with (hx | hx) | hx
    · exact ha.2 x hx
    · exact hb.2 x hx
    · exact hc.2 x hx

theorem cellsOf_range (bs : List Byte) : ∀ (a : Nat) (x : Host.Cell), x ∈ cellsOf a bs → a ≤ x.1 ∧ x.1 < a + bs.length := by
  induction bs with
  | nil => intro a x h; simp [cellsOf] at h
  | cons b bs ih =>
    intro a x h
    simp only [cellsOf] at h
    split at h
    · have := ih _ x h
      simp only [List.length_cons]; omega
    · rcases List.mem_cons.mp h with rfl | h
      · simp
      · have := ih _ x h
        simp only [List.length_cons]; omega

theorem cellsOf_wf (bs : List Byte) : ∀ a, Mem.wf (cellsOf a bs) = true := by
  induction bs with
  | nil => intro a; rfl
  | cons b bs ih =>
    intro a
    simp only [cellsOf]
    split
    · exact ih _
    · rename_i hb
      have := ih (a + 1)
      rw [Mem.wf_iff] at this ⊢
      refine ⟨List.pairwise_cons.mpr ⟨fun x hx => ?_, this.1⟩, fun x hx => ?_⟩
      · have := cellsOf_range bs _ x hx; simp only; omega
      · rcases List.mem_cons.mp hx with rfl | hx
        · exact hb
        · exact this.2 x hx

/-- A write keeps the canonical form. -/
theorem Mem.wf_put {m : Mem} (h : m.wf = true) (lo : Nat) (bs : List Byte) : Mem.wf (m.put lo bs) = true := by
  refine Mem.wf_append3 (lo := lo) (hi := lo + bs.length) (wf_filter h _) (cellsOf_wf bs lo) (wf_filter h _) ?_ (cellsOf_range bs lo) ?_ (by omega)
  · intro x hx; simpa using (List.mem_filter.mp hx).2
  · intro x hx; simpa using (List.mem_filter.mp hx).2

theorem Mem.wf_wrN {m : Mem} (h : m.wf = true) (a n v : Nat) : Mem.wf (m.wrN a n v) = true := Mem.wf_put h a _

/-- Moving a range of addresses keeps the canonical form. -/
theorem Mem.wf_moveRange {m : Mem} (h : m.wf = true) (src dst n : Nat) : Mem.wf (moveRange m src dst n) = true := by
  refine Mem.wf_append3 (lo := dst) (hi := dst + n) (wf_filter h _) ?_ (wf_filter h _) ?_ ?_ ?_ (by omega)
  · have hf := wf_filter h fun c => src ≤ c.1 && c.1 < src + n
    rw [wf_iff] at hf ⊢
    constructor
    · rw [List.pairwise_map]
      refine hf.1.imp_of_mem ?_
      intro x y hx hy hxy
      have := (List.mem_filter.mp hx).2
      simp only [Bool.and_eq_true, decide_eq_true_eq] at this
      simp only; omega
    · intro c hc
      obtain ⟨x, hx, rfl⟩ := List.mem_map.mp hc
      exact hf.2 x hx
  · intro x hx; simpa using (List.mem_filter.mp hx).2
  · intro c hc
    obtain ⟨x, hx, rfl⟩ := List.mem_map.mp hc
    have := (List.mem_filter.mp hx).2
    simp only [Bool.and_eq_true, decide_eq_true_eq] at this
    simp only; omega
  · intro x hx; simpa using (List.mem_filter.mp hx).2

/-- A write of memory by physical address keeps the canonical form (R2, R352). -/
theorem State.wf_setPhys {s : State} (h : s.sys.mem.wf = true) (key : Nat) (bs : List Byte) : (s.setPhys key bs).sys.mem.wf = true := Mem.wf_put h key bs

/-- Gating a bank empties it and keeps the canonical form (R346). -/
theorem Mem.wf_emptyBank {m : Mem} (h : m.wf = true) (k : Nat) : Mem.wf (emptyBank m k) = true := Mem.wf_filter h _

/-- The memories of the reset state are canonical. -/
theorem State.reset_memoryWf : State.reset.sys.mem.wf = true ∧ State.reset.core.scratch.wf = true ∧ State.reset.core.tiles.wf = true ∧ State.reset.core.istore.wf = true :=
  ⟨rfl, rfl, rfl, rfl⟩

/-! Reads after writes. -/

theorem Mem.rd_append (a b : Mem) (x : Nat) : Mem.rd (a ++ b) x = if a.any (fun c => c.1 = x) then Mem.rd a x else Mem.rd b x := by
  induction a with
  | nil => simp
  | cons c a ih =>
    obtain ⟨k, v⟩ := c
    by_cases hk : k = x
    · simp [Mem.rd, hk]
    · simp [Mem.rd, hk, ih]

theorem Mem.rd_absent {m : Mem} {x : Nat} (h : ∀ c ∈ m, c.1 ≠ x) : Mem.rd m x = 0 := by
  induction m with
  | nil => rfl
  | cons c m ih =>
    obtain ⟨k, v⟩ := c
    have : k ≠ x := h (k, v) (by simp)
    simp only [Mem.rd, this, if_false]
    exact ih fun c hc => h c (List.mem_cons_of_mem _ hc)

theorem Mem.rd_filter {m : Mem} {x : Nat} {p : Host.Cell → Bool} (h : ∀ c : Host.Cell, c.1 = x → p c = true) : Mem.rd (m.filter p) x = Mem.rd m x := by
  induction m with
  | nil => rfl
  | cons c m ih =>
    obtain ⟨k, v⟩ := c
    by_cases hk : k = x
    · rw [List.filter_cons_of_pos (h (k, v) hk)]
      simp [Mem.rd, hk]
    · by_cases hp : p (k, v) = true
      · simp [hp, Mem.rd, hk, ih]
      · simp [hp, Mem.rd, hk, ih]

theorem rd_cellsOf (bs : List Byte) : ∀ (a x : Nat), Mem.rd (cellsOf a bs) x = if a ≤ x ∧ x < a + bs.length then bs.getD (x - a) 0 else 0 := by
  induction bs with
  | nil => intro a x; simp [cellsOf, Mem.rd]
  | cons b bs ih =>
    intro a x
    have step : Mem.rd (cellsOf a (b :: bs)) x = if a = x then b else Mem.rd (cellsOf (a + 1) bs) x := by
      simp only [cellsOf]
      split
      · rename_i hb
        split
        · rename_i hx
          subst hx hb
          exact Mem.rd_absent fun c hc => by have := cellsOf_range bs _ c hc; omega
        · rfl
      · rfl
    rw [step, ih]
    by_cases hx : a = x
    · subst hx; simp
    · have e : (a ≤ x ∧ x < a + (b :: bs).length) ↔ (a + 1 ≤ x ∧ x < a + 1 + bs.length) := by simp only [List.length_cons]; omega
      simp only [hx, if_false, e]
      split
      · rename_i h
        have : x - a = (x - (a + 1)) + 1 := by omega
        rw [this, List.getD_cons_succ]
      · rfl

/-- A read after a write: the written byte inside, the old byte outside. -/
theorem Mem.rd_put (m : Mem) (lo x : Nat) (bs : List Byte) :
    Mem.rd (m.put lo bs) x = if lo ≤ x ∧ x < lo + bs.length then bs.getD (x - lo) 0 else Mem.rd m x := by
  have none_of {l : Mem} (h : ∀ c ∈ l, c.1 ≠ x) : (l.any fun c => decide (c.1 = x)) = false := by
    rw [List.any_eq_false]; intro c hc; simpa using h c hc
  unfold Mem.put
  by_cases h1 : x < lo
  · have e : Mem.rd (m.filter (fun c => c.1 < lo)) x = Mem.rd m x := Mem.rd_filter fun c hc => by simp [hc, h1]
    have out : ¬ (lo ≤ x ∧ x < lo + bs.length) := by omega
    rw [List.append_assoc, Mem.rd_append, if_neg out]
    split
    · exact e
    · rename_i ha
      have none : Mem.rd m x = 0 := by
        rw [← e]
        refine Mem.rd_absent fun c hc hx => ha ?_
        rw [List.any_eq_true]; exact ⟨c, hc, by simpa using hx⟩
      rw [none]
      refine Mem.rd_absent fun c hc => ?_
      rcases List.mem_append.mp hc with hc | hc
      · have := cellsOf_range bs _ c hc; omega
      · have := (List.mem_filter.mp hc).2; simp only [decide_eq_true_eq] at this; omega
  · have low : ∀ c ∈ m.filter (fun c => c.1 < lo), c.1 ≠ x := fun c hc => by
      have := (List.mem_filter.mp hc).2; simp only [decide_eq_true_eq] at this; omega
    rw [List.append_assoc, Mem.rd_append, none_of low]
    simp only [Bool.false_eq_true, if_false]
    by_cases h2 : x < lo + bs.length
    · have ins : lo ≤ x ∧ x < lo + bs.length := by omega
      rw [Mem.rd_append, if_pos ins]
      have e := rd_cellsOf bs lo x
      rw [if_pos ins] at e
      split
      · exact e
      · rename_i ha
        have zero : Mem.rd (cellsOf lo bs) x = 0 := Mem.rd_absent fun c hc hx => ha (by rw [List.any_eq_true]; exact ⟨c, hc, by simpa using hx⟩)
        rw [← e, zero]
        refine Mem.rd_absent fun c hc => ?_
        have := (List.mem_filter.mp hc).2; simp only [decide_eq_true_eq] at this; omega
    · have out : ¬ (lo ≤ x ∧ x < lo + bs.length) := by omega
      have mid : ∀ c ∈ cellsOf lo bs, c.1 ≠ x := fun c hc => by have := cellsOf_range bs _ c hc; omega
      rw [Mem.rd_append, none_of mid, if_neg out]
      simp only [Bool.false_eq_true, if_false]
      exact Mem.rd_filter fun c hc => by simp only [decide_eq_true_eq]; omega

end Sys2Proof.Machine
end

