-- ==== Sys2Proof/Laws/Ops.lean ====
section
/-! SUPPORT. What the shared operations do, once each: an instruction that is ready is its body, a source that can be read is read, a
destination that can be written is written. -/

namespace Sys2Proof.Machine

theorem guarded_ready {g : Nat} {regs : List Nat} {s : State} (h : Ready g regs s) (body : State → Act) :
    guarded (s.p g) regs false body s = body s := by
  simp only [guarded, h.ports, h.guard, scoreboard, h.free, Bool.false_and, Bool.not_true, Bool.false_eq_true, if_false]

theorem issue_ready {g : Nat} {regs : List Nat} {s : State} (h : Ready g regs s) (body : State → Act) :
    issue g regs body s = settle s (body s) := by
  simp only [issue, perform, h.alone, if_true, guarded_ready h body]

theorem issueNoSpec_ready {g : Nat} {regs : List Nat} {s : State} (h : ReadyPlain g regs s) (body : State → Act) :
    issueNoSpec g regs body s = settle s (body s) := by
  simp only [issueNoSpec, perform, h.alone, if_true, guarded, h.ports, h.guard, scoreboard, h.free, h.plain,
    Bool.false_and, Bool.not_true, Bool.false_eq_true, if_false, Option.isSome_none, Bool.and_false]

theorem src_readOf {i : Nat} {s s' : State} {x : Word} (h : readOf i s = some (x, s')) (f : Word → State → Act) : src i s f = f x s' := by
  unfold readOf at h
  unfold src
  split at h
  · cases h; simp [*]
  · split at h
    · rename_i h1 h2
      simp only [h2, if_true]
      split at h
      · split at h
        · split at h
          · cases h; simp [*]
          · cases h
        · cases h; simp [*]
      · cases h; simp [*]
    · split at h
      · rename_i h1 h2 h3
        simp only [h3, if_true]
        split at h
        · cases h; simp [*]
        · split at h
          · cases h
          · cases h; simp [*]
      · cases h

theorem dst_writeOf {d : Nat} {v : Word} {s t : State} (h : writeOf d v s = some t) : dst d v s = .next t := by
  unfold writeOf at h
  unfold dst
  split at h
  · cases h; simp [*]
  · split at h
    · split at h
      · cases h
      · cases h; simp [*]
    · cases h

theorem readOf_pc {i : Nat} {s s' : State} {x : Word} (h : readOf i s = some (x, s')) : s'.k = s.k := by
  unfold readOf at h
  split at h
  · cases h; rfl
  · split at h
    · split at h
      · split at h
        · split at h <;> cases h
          simp [State.modSt, State.setSt]
        · cases h; simp [State.setP, State.modSt, State.setSt]
      · cases h; simp [State.setP, State.modSt, State.setSt]
    · split at h
      · split at h
        · cases h; rfl
        · split at h <;> cases h; simp [State.setP, State.modSt, State.setSt]
      · cases h

/-- Two sources read in order (R30). -/
theorem src_two {a b : Nat} {s s' : State} {x y : Word} (h : sourcesOf [a, b] s = some ([x, y], s')) (f : Word → Word → State → Act) :
    (src a s fun u s => src b s fun v s => f u v s) = f x y s' := by
  simp only [sourcesOf] at h
  split at h
  · cases h
  · rename_i x1 s1 h1
    split at h
    · cases h
    · rename_i xs s2 h2
      split at h2
      · cases h2
      · rename_i x2 s3 h3
        cases h2; cases h
        rw [src_readOf h1, src_readOf h3]

/-- One source read. -/
theorem src_one {a : Nat} {s s' : State} {x : Word} (h : sourcesOf [a] s = some ([x], s')) (f : Word → State → Act) : src a s f = f x s' := by
  simp only [sourcesOf] at h
  split at h
  · cases h
  · rename_i x1 s1 h1
    cases h
    exact src_readOf h1 f

/-! ## Local accesses -/

/-- What a region lets through and nothing hinders goes on with its pieces (R69, R79, R81, R220, R229, R236, R346, R410). -/
theorem localThrough_unhindered {k off n : Nat} {wr : Bool} {s : State} (h : Unhindered off n wr (pieces k off n) s) (f : List (Nat × Nat) → Act) :
    localThrough k off n wr s f = f (pieces k off n) := by
  have copies : s.core.copiesOn s.k wr (pieces k off n) = [] := by
    simp only [Core.copiesOn, List.map_eq_nil_iff, List.filter_eq_nil_iff, Bool.and_eq_true, List.any_eq_true, not_and, not_exists, beq_iff_eq, Bool.or_eq_true]
    intro r hr own p hp
    simp [h.ranges r hr own.1 own.2 p hp]
  have quiet : (if s.racy then s.core.racing (pieces k off n) s.me s.st.det else none) = none := by
    by_cases racy : s.racy = true
    · simp [h.tags racy]
    · simp [racy]
  have sound : ((pieces k off n).findSome? fun p => s.core.softAt p.1 p.2 (wr && n < 80)) = none := List.findSome?_eq_none_iff.mpr h.sound
  have frame : (wr && s.st.task.isSome && !inFrame s.taskFrame off n) = false := by
    cases hw : wr <;> cases ht : s.st.task.isSome <;> simp_all [h.frame]
  simp only [localThrough, frame, h.fresh, copies, h.order, h.locks, quiet, sound, h.banks, List.isEmpty_nil, Bool.not_true, Bool.false_eq_true, if_false]

/-- A local access that is clear goes on with its pieces (R62, R63). -/
theorem localAccess_clear {off n : Nat} {rd wr : Bool} {ps : List (Nat × Nat)} {s : State} (h : LocalClear off n rd wr ps s) (f : List (Nat × Nat) → Act) :
    localAccess off n rd wr s f = f ps := by
  obtain ⟨k, hk, rfl⟩ := h.region
  simp only [localAccess, hk, localThrough_unhindered h.toUnhindered]

end Sys2Proof.Machine
end

