-- ==== Sys2Proof/Laws/PerInstr.lean ====
section
/-! SUPPORT. The family `Fields`: the opcode, the function code and every operand of a well-formed instruction stand in its word where the
decoder looks for them (R38, R40), so the decoder's first reading of the word is the instruction. -/

namespace Sys2Proof.Laws

/-- The word whose bit fields, from bit 0 up, hold these values (value, width). -/
def packed : List (Nat × Nat) → Nat
  | [] => 0
  | (v, n) :: fs => v + 2 ^ n * packed fs

theorem packed_lt : ∀ (fs : List (Nat × Nat)), (∀ p ∈ fs, p.1 < 2 ^ p.2) → packed fs < 2 ^ (fs.map (·.2)).sum
  | [], _ => by simp [packed]
  | (v, n) :: fs, h => by
    have h1 : v < 2 ^ n := h (v, n) (by simp)
    have h2 := packed_lt fs fun p hp => h p (by simp [hp])
    simp only [packed, List.map_cons, List.sum_cons, Nat.pow_add]
    calc v + 2 ^ n * packed fs < 2 ^ n + 2 ^ n * packed fs := Nat.add_lt_add_right h1 _
      _ = 2 ^ n * (packed fs + 1) := by rw [Nat.mul_add, Nat.mul_one, Nat.add_comm]
      _ ≤ 2 ^ n * 2 ^ (fs.map (·.2)).sum := Nat.mul_le_mul_left _ h2

theorem lt_of {L : List (Nat × Nat)} {w : Nat} (hw : w = packed L) (hp : ∀ p ∈ L, p.1 < 2 ^ p.2) (h : (L.map (·.2)).sum = 32) :
    w < 2 ^ 32 := by
  rw [hw, ← h]; exact packed_lt L hp

/-- Field number n of a packed word reads back. -/
theorem field_at : ∀ {L : List (Nat × Nat)} {w : Nat} (_ : w = packed L) (_ : ∀ p ∈ L, p.1 < 2 ^ p.2) (n : Nat)
    (_ : Nat.blt n L.length = true), field w ((L.take n).map (·.2)).sum (L.getD n (0, 0)).2 = (L.getD n (0, 0)).1
  | [], _, _, _, n, hn => by simp [Nat.blt] at hn
  | (v, m) :: L, w, hw, hp, 0, _ => by
    have h1 : v < 2 ^ m := hp (v, m) (by simp)
    subst hw
    simp [packed, field, Nat.add_mul_mod_self_left, Nat.mod_eq_of_lt h1]
  | (u, m) :: L, w, hw, hp, n + 1, hn => by
    have h1 : u < 2 ^ m := hp (u, m) (by simp)
    have ih := field_at (L := L) rfl (fun p h => hp p (by simp [h])) n (by simpa [Nat.blt] using hn)
    subst hw
    simp only [packed, field, List.take_succ_cons, List.map_cons, List.sum_cons, Nat.pow_add, List.getD_cons_succ] at ih ⊢
    rw [← Nat.div_div_eq_div_mul, Nat.add_mul_div_left _ _ (Nat.two_pow_pos m), Nat.div_eq_of_lt h1, Nat.zero_add]
    exact ih

theorem fits_of_wellFormed {i : Instr} (h : i.wellFormed = true) : i.operands.all Operand.fits = true := by
  simp only [Instr.wellFormed, Bool.and_eq_true] at h
  exact h.1.1.1.1

theorem no_misuse_of_wellFormed {i : Instr} (h : i.wellFormed = true) : i.operands.any Operand.portMisuse = false := by
  simp only [Instr.wellFormed, Bool.and_eq_true, Bool.not_eq_true'] at h
  exact h.2

namespace Fields

/-- The word of a well-formed instruction has 32 bits, and the opcode, the function code and the fields found in it are the
instruction. -/
def Statement (i : Instr) : Prop := ∀ w, i.wellFormed = true → i.encode = some w → w < 2 ^ 32 ∧ candidate w = .ok i

theorem br (cond sense off : Nat) : Statement (.br cond sense off) := by
  intro w hwf he
  have hr : ([.field cond 3, .field sense 1, .field off 21] : List Operand).all Operand.fits = true := fits_of_wellFormed hwf
  simp only [List.all_cons, List.all_nil, Operand.fits, Bool.and_eq_true, decide_eq_true_eq, and_true] at hr
  have hp : ∀ seg ∈ ([(off, 21), (sense, 1), (cond, 3), (1, 7)] : List (Nat × Nat)), seg.1 < 2 ^ seg.2 := by simp; omega
  have hw : w = packed [(off, 21), (sense, 1), (cond, 3), (1, 7)] := by
    have e : place 0x2000000 [(cond, 22), (sense, 21), (off, 0)] = w := Option.some.inj he
    simp only [place, packed] at e ⊢; omega
  refine ⟨lt_of hw hp rfl, ?_⟩
  show byOpcode (field w 25 7) w = _
  rw [show field w 25 7 = 1 from field_at hw hp 3 rfl]
  show Except.ok (Instr.br (field w 22 3) (field w 21 1) (field w 0 21)) = _
  rw [show field w 22 3 = cond from field_at hw hp 2 rfl, show field w 21 1 = sense from field_at hw hp 1 rfl, show field w 0 21 = off from field_at hw hp 0 rfl]

theorem call (cond sense off : Nat) : Statement (.call cond sense off) := by
  intro w hwf he
  have hr : ([.field cond 3, .field sense 1, .field off 21] : List Operand).all Operand.fits = true := fits_of_wellFormed hwf
  simp only [List.all_cons, List.all_nil, Operand.fits, Bool.and_eq_true, decide_eq_true_eq, and_true] at hr
  have hp : ∀ seg ∈ ([(off, 21), (sense, 1), (cond, 3), (2, 7)] : List (Nat × Nat)), seg.1 < 2 ^ seg.2 := by simp; omega
  have hw : w = packed [(off, 21), (sense, 1), (cond, 3), (2, 7)] := by
    have e : place 0x4000000 [(cond, 22), (sense, 21), (off, 0)] = w := Option.some.inj he
    simp only [place, packed] at e ⊢; omega
  refine ⟨lt_of hw hp rfl, ?_⟩
  show byOpcode (field w 25 7) w = _
  rw [show field w 25 7 = 2 from field_at hw hp 3 rfl]
  show Except.ok (Instr.call (field w 22 3) (field w 21 1) (field w 0 21)) = _
  rw [show field w 22 3 = cond from field_at hw hp 2 rfl, show field w 21 1 = sense from field_at hw hp 1 rfl, show field w 0 21 = off from field_at hw hp 0 rfl]

theorem jmp (a g : Nat) : Statement (.jmp a g) := by
  intro w hwf he
  have hr : ([.source a, .field g 3] : List Operand).all Operand.fits = true := fits_of_wellFormed hwf
  simp only [List.all_cons, List.all_nil, Operand.fits, Bool.and_eq_true, decide_eq_true_eq, and_true] at hr
  have hp : ∀ seg ∈ ([(g, 3), (0, 7), (0, 5), (a, 5), (0, 5), (3, 7)] : List (Nat × Nat)), seg.1 < 2 ^ seg.2 := by simp; omega
  have hw : w = packed [(g, 3), (0, 7), (0, 5), (a, 5), (0, 5), (3, 7)] := by
    have e : place 0x6000000 [(a, 15), (g, 0)] = w := Option.some.inj he
    simp only [place, packed] at e ⊢; omega
  refine ⟨lt_of hw hp rfl, ?_⟩
  show byOpcode (field w 25 7) w = _
  rw [show field w 25 7 = 3 from field_at hw hp 5 rfl]
  show opcode03 (field w 3 7) w = _
  rw [show field w 3 7 = 0 from field_at hw hp 1 rfl]
  show Except.ok (Instr.jmp (field w 15 5) (field w 0 3)) = _
  rw [show field w 15 5 = a from field_at hw hp 3 rfl, show field w 0 3 = g from field_at hw hp 0 rfl]

theorem callr (a g : Nat) : Statement (.callr a g) := by
  intro w hwf he
  have hr : ([.source a, .field g 3] : List Operand).all Operand.fits = true := fits_of_wellFormed hwf
  simp only [List.all_cons, List.all_nil, Operand.fits, Bool.and_eq_true, decide_eq_true_eq, and_true] at hr
  have hp : ∀ seg ∈ ([(g, 3), (1, 7), (0, 5), (a, 5), (0, 5), (3, 7)] : List (Nat × Nat)), seg.1 < 2 ^ seg.2 := by simp; omega
  have hw : w = packed [(g, 3), (1, 7), (0, 5), (a, 5), (0, 5), (3, 7)] := by
    have e : place 0x6000008 [(a, 15), (g, 0)] = w := Option.some.inj he
    simp only [place, packed] at e ⊢; omega
  refine ⟨lt_of hw hp rfl, ?_⟩
  show byOpcode (field w 25 7) w = _
  rw [show field w 25 7 = 3 from field_at hw hp 5 rfl]
  show opcode03 (field w 3 7) w = _
  rw [show field w 3 7 = 1 from field_at hw hp 1 rfl]
  show Except.ok (Instr.callr (field w 15 5) (field w 0 3)) = _
  rw [show field w 15 5 = a from field_at hw hp 3 rfl, show field w 0 3 = g from field_at hw hp 0 rfl]

theorem ret (g : Nat) : Statement (.ret g) := by
  intro w hwf he
  have hr : ([.field g 3] : List Operand).all Operand.fits = true := fits_of_wellFormed hwf
  simp only [List.all_cons, List.all_nil, Operand.fits, Bool.and_eq_true, decide_eq_true_eq, and_true] at hr
  have hp : ∀ seg ∈ ([(g, 3), (2, 7), (0, 15), (3, 7)] : List (Nat × Nat)), seg.1 < 2 ^ seg.2 := by simp; omega
  have hw : w = packed [(g, 3), (2, 7), (0, 15), (3, 7)] := by
    have e : place 0x6000010 [(g, 0)] = w := Option.some.inj he
    simp only [place, packed] at e ⊢; omega
  refine ⟨lt_of hw hp rfl, ?_⟩
  show byOpcode (field w 25 7) w = _
  rw [show field w 25 7 = 3 from field_at hw hp 3 rfl]
  show opcode03 (field w 3 7) w = _
  rw [show field w 3 7 = 2 from field_at hw hp 1 rfl]
  show Except.ok (Instr.ret (field w 0 3)) = _
  rw [show field w 0 3 = g from field_at hw hp 0 rfl]

theorem loop (d imm g : Nat) : Statement (.loop d imm g) := by
  intro w hwf he
  have hr : ([.counter d, .field imm 12, .field g 3] : List Operand).all Operand.fits = true := fits_of_wellFormed hwf
  simp only [List.all_cons, List.all_nil, Operand.fits, Bool.and_eq_true, decide_eq_true_eq, and_true] at hr
  have hp : ∀ seg ∈ ([(g, 3), (imm, 12), (0, 5), (d, 5), (4, 7)] : List (Nat × Nat)), seg.1 < 2 ^ seg.2 := by simp; omega
  have hw : w = packed [(g, 3), (imm, 12), (0, 5), (d, 5), (4, 7)] := by
    have e : place 0x8000000 [(d, 20), (imm, 3), (g, 0)] = w := Option.some.inj he
    simp only [place, packed] at e ⊢; omega
  refine ⟨lt_of hw hp rfl, ?_⟩
  show byOpcode (field w 25 7) w = _
  rw [show field w 25 7 = 4 from field_at hw hp 4 rfl]
  show Except.ok (Instr.loop (field w 20 5) (field w 3 12) (field w 0 3)) = _
  rw [show field w 20 5 = d from field_at hw hp 3 rfl, show field w 3 12 = imm from field_at hw hp 1 rfl, show field w 0 3 = g from field_at hw hp 0 rfl]

theorem exitEnd (g : Nat) : Statement (.exitEnd g) := by
  intro w hwf he
  have hr : ([.field g 3] : List Operand).all Operand.fits = true := fits_of_wellFormed hwf
  simp only [List.all_cons, List.all_nil, Operand.fits, Bool.and_eq_true, decide_eq_true_eq, and_true] at hr
  have hp : ∀ seg ∈ ([(g, 3), (0, 7), (0, 15), (5, 7)] : List (Nat × Nat)), seg.1 < 2 ^ seg.2 := by simp; omega
  have hw : w = packed [(g, 3), (0, 7), (0, 15), (5, 7)] := by
    have e : place 0xa000000 [(g, 0)] = w := Option.some.inj he
    simp only [place, packed] at e ⊢; omega
  refine ⟨lt_of hw hp rfl, ?_⟩
  show byOpcode (field w 25 7) w = _
  rw [show field w 25 7 = 5 from field_at hw hp 3 rfl]
  show opcode05 (field w 3 7) w = _
  rw [show field w 3 7 = 0 from field_at hw hp 1 rfl]
  show Except.ok (Instr.exitEnd (field w 0 3)) = _
  rw [show field w 0 3 = g from field_at hw hp 0 rfl]

theorem suspend (a b g : Nat) : Statement (.suspend a b g) := by
  intro w hwf he
  have hr : ([.source a, .source b, .field g 3] : List Operand).all Operand.fits = true := fits_of_wellFormed hwf
  simp only [List.all_cons, List.all_nil, Operand.fits, Bool.and_eq_true, decide_eq_true_eq, and_true] at hr
  have hp : ∀ seg ∈ ([(g, 3), (1, 7), (b, 5), (a, 5), (0, 5), (5, 7)] : List (Nat × Nat)), seg.1 < 2 ^ seg.2 := by simp; omega
  have hw : w = packed [(g, 3), (1, 7), (b, 5), (a, 5), (0, 5), (5, 7)] := by
    have e : place 0xa000008 [(a, 15), (b, 10), (g, 0)] = w := Option.some.inj he
    simp only [place, packed] at e ⊢; omega
  refine ⟨lt_of hw hp rfl, ?_⟩
  show byOpcode (field w 25 7) w = _
  rw [show field w 25 7 = 5 from field_at hw hp 5 rfl]
  show opcode05 (field w 3 7) w = _
  rw [show field w 3 7 = 1 from field_at hw hp 1 rfl]
  show Except.ok (Instr.suspend (field w 15 5) (field w 10 5) (field w 0 3)) = _
  rw [show field w 15 5 = a from field_at hw hp 3 rfl, show field w 10 5 = b from field_at hw hp 2 rfl, show field w 0 3 = g from field_at hw hp 0 rfl]

theorem yield (b g : Nat) : Statement (.yield b g) := by
  intro w hwf he
  have hr : ([.source b, .field g 3] : List Operand).all Operand.fits = true := fits_of_wellFormed hwf
  simp only [List.all_cons, List.all_nil, Operand.fits, Bool.and_eq_true, decide_eq_true_eq, and_true] at hr
  have hp : ∀ seg ∈ ([(g, 3), (2, 7), (b, 5), (0, 10), (5, 7)] : List (Nat × Nat)), seg.1 < 2 ^ seg.2 := by simp; omega
  have hw : w = packed [(g, 3), (2, 7), (b, 5), (0, 10), (5, 7)] := by
    have e : place 0xa000010 [(b, 10), (g, 0)] = w := Option.some.inj he
    simp only [place, packed] at e ⊢; omega
  refine ⟨lt_of hw hp rfl, ?_⟩
  show byOpcode (field w 25 7) w = _
  rw [show field w 25 7 = 5 from field_at hw hp 4 rfl]
  show opcode05 (field w 3 7) w = _
  rw [show field w 3 7 = 2 from field_at hw hp 1 rfl]
  show Except.ok (Instr.yield (field w 10 5) (field w 0 3)) = _
  rw [show field w 10 5 = b from field_at hw hp 2 rfl, show field w 0 3 = g from field_at hw hp 0 rfl]

theorem trap (imm g : Nat) : Statement (.trap imm g) := by
  intro w hwf he
  have hr : ([.field imm 12, .field g 3] : List Operand).all Operand.fits = true := fits_of_wellFormed hwf
  simp only [List.all_cons, List.all_nil, Operand.fits, Bool.and_eq_true, decide_eq_true_eq, and_true] at hr
  have hp : ∀ seg ∈ ([(g, 3), (imm, 12), (0, 10), (6, 7)] : List (Nat × Nat)), seg.1 < 2 ^ seg.2 := by simp; omega
  have hw : w = packed [(g, 3), (imm, 12), (0, 10), (6, 7)] := by
    have e : place 0xc000000 [(imm, 3), (g, 0)] = w := Option.some.inj he
    simp only [place, packed] at e ⊢; omega
  refine ⟨lt_of hw hp rfl, ?_⟩
  show byOpcode (field w 25 7) w = _
  rw [show field w 25 7 = 6 from field_at hw hp 3 rfl]
  show Except.ok (Instr.trap (field w 3 12) (field w 0 3)) = _
  rw [show field w 3 12 = imm from field_at hw hp 1 rfl, show field w 0 3 = g from field_at hw hp 0 rfl]

theorem rft (g : Nat) : Statement (.rft g) := by
  intro w hwf he
  have hr : ([.field g 3] : List Operand).all Operand.fits = true := fits_of_wellFormed hwf
  simp only [List.all_cons, List.all_nil, Operand.fits, Bool.and_eq_true, decide_eq_true_eq, and_true] at hr
  have hp : ∀ seg ∈ ([(g, 3), (0, 7), (0, 10), (0, 5), (7, 7)] : List (Nat × Nat)), seg.1 < 2 ^ seg.2 := by simp; omega
  have hw : w = packed [(g, 3), (0, 7), (0, 10), (0, 5), (7, 7)] := by
    have e : place 0xe000000 [(g, 0)] = w := Option.some.inj he
    simp only [place, packed] at e ⊢; omega
  refine ⟨lt_of hw hp rfl, ?_⟩
  show byOpcode (field w 25 7) w = _
  rw [show field w 25 7 = 7 from field_at hw hp 4 rfl]
  show opcode07 (field w 3 7) w = _
  rw [show field w 3 7 = 0 from field_at hw hp 1 rfl]
  have c0 : field w 0 3 = g := field_at hw hp 0 rfl
  have c1 : field w 20 5 = 0 := field_at hw hp 3 rfl
  simp [opcode07, c0, c1]

theorem rftSkip (g : Nat) : Statement (.rftSkip g) := by
  intro w hwf he
  have hr : ([.field g 3] : List Operand).all Operand.fits = true := fits_of_wellFormed hwf
  simp only [List.all_cons, List.all_nil, Operand.fits, Bool.and_eq_true, decide_eq_true_eq, and_true] at hr
  have hp : ∀ seg ∈ ([(g, 3), (0, 7), (0, 10), (1, 5), (7, 7)] : List (Nat × Nat)), seg.1 < 2 ^ seg.2 := by simp; omega
  have hw : w = packed [(g, 3), (0, 7), (0, 10), (1, 5), (7, 7)] := by
    have e : place 0xe100000 [(g, 0)] = w := Option.some.inj he
    simp only [place, packed] at e ⊢; omega
  refine ⟨lt_of hw hp rfl, ?_⟩
  show byOpcode (field w 25 7) w = _
  rw [show field w 25 7 = 7 from field_at hw hp 4 rfl]
  show opcode07 (field w 3 7) w = _
  rw [show field w 3 7 = 0 from field_at hw hp 1 rfl]
  have c0 : field w 0 3 = g := field_at hw hp 0 rfl
  have c1 : field w 20 5 = 1 := field_at hw hp 3 rfl
  simp [opcode07, c0, c1]

theorem sleep (a g : Nat) : Statement (.sleep a g) := by
  intro w hwf he
  have hr : ([.noPort a, .field g 3] : List Operand).all Operand.fits = true := fits_of_wellFormed hwf
  simp only [List.all_cons, List.all_nil, Operand.fits, Bool.and_eq_true, decide_eq_true_eq, and_true] at hr
  have hp : ∀ seg ∈ ([(g, 3), (1, 7), (0, 5), (a, 5), (0, 5), (7, 7)] : List (Nat × Nat)), seg.1 < 2 ^ seg.2 := by simp; omega
  have hw : w = packed [(g, 3), (1, 7), (0, 5), (a, 5), (0, 5), (7, 7)] := by
    have e : place 0xe000008 [(a, 15), (g, 0)] = w := Option.some.inj he
    simp only [place, packed] at e ⊢; omega
  refine ⟨lt_of hw hp rfl, ?_⟩
  show byOpcode (field w 25 7) w = _
  rw [show field w 25 7 = 7 from field_at hw hp 5 rfl]
  show opcode07 (field w 3 7) w = _
  rw [show field w 3 7 = 1 from field_at hw hp 1 rfl]
  show Except.ok (Instr.sleep (field w 15 5) (field w 0 3)) = _
  rw [show field w 15 5 = a from field_at hw hp 3 rfl, show field w 0 3 = g from field_at hw hp 0 rfl]

theorem csrr (d imm g : Nat) : Statement (.csrr d imm g) := by
  intro w hwf he
  have hr : ([.dest d, .field imm 12, .field g 3] : List Operand).all Operand.fits = true := fits_of_wellFormed hwf
  simp only [List.all_cons, List.all_nil, Operand.fits, Bool.and_eq_true, decide_eq_true_eq, and_true] at hr
  have hp : ∀ seg ∈ ([(g, 3), (imm, 12), (0, 5), (d, 5), (8, 7)] : List (Nat × Nat)), seg.1 < 2 ^ seg.2 := by simp; omega
  have hw : w = packed [(g, 3), (imm, 12), (0, 5), (d, 5), (8, 7)] := by
    have e : place 0x10000000 [(d, 20), (imm, 3), (g, 0)] = w := Option.some.inj he
    simp only [place, packed] at e ⊢; omega
  refine ⟨lt_of hw hp rfl, ?_⟩
  show byOpcode (field w 25 7) w = _
  rw [show field w 25 7 = 8 from field_at hw hp 4 rfl]
  show Except.ok (Instr.csrr (field w 20 5) (field w 3 12) (field w 0 3)) = _
  rw [show field w 20 5 = d from field_at hw hp 3 rfl, show field w 3 12 = imm from field_at hw hp 1 rfl, show field w 0 3 = g from field_at hw hp 0 rfl]

theorem csrw (a imm g : Nat) : Statement (.csrw a imm g) := by
  intro w hwf he
  have hr : ([.source a, .field imm 12, .field g 3] : List Operand).all Operand.fits = true := fits_of_wellFormed hwf
  simp only [List.all_cons, List.all_nil, Operand.fits, Bool.and_eq_true, decide_eq_true_eq, and_true] at hr
  have hp : ∀ seg ∈ ([(g, 3), (imm, 12), (a, 5), (0, 5), (9, 7)] : List (Nat × Nat)), seg.1 < 2 ^ seg.2 := by simp; omega
  have hw : w = packed [(g, 3), (imm, 12), (a, 5), (0, 5), (9, 7)] := by
    have e : place 0x12000000 [(a, 15), (imm, 3), (g, 0)] = w := Option.some.inj he
    simp only [place, packed] at e ⊢; omega
  refine ⟨lt_of hw hp rfl, ?_⟩
  show byOpcode (field w 25 7) w = _
  rw [show field w 25 7 = 9 from field_at hw hp 4 rfl]
  show Except.ok (Instr.csrw (field w 15 5) (field w 3 12) (field w 0 3)) = _
  rw [show field w 15 5 = a from field_at hw hp 2 rfl, show field w 3 12 = imm from field_at hw hp 1 rfl, show field w 0 3 = g from field_at hw hp 0 rfl]

theorem tlbinv (a b g : Nat) : Statement (.tlbinv a b g) := by
  intro w hwf he
  have hr : ([.noPort a, .noPort b, .field g 3] : List Operand).all Operand.fits = true := fits_of_wellFormed hwf
  simp only [List.all_cons, List.all_nil, Operand.fits, Bool.and_eq_true, decide_eq_true_eq, and_true] at hr
  have hp : ∀ seg ∈ ([(g, 3), (0, 7), (b, 5), (a, 5), (0, 5), (10, 7)] : List (Nat × Nat)), seg.1 < 2 ^ seg.2 := by simp; omega
  have hw : w = packed [(g, 3), (0, 7), (b, 5), (a, 5), (0, 5), (10, 7)] := by
    have e : place 0x14000000 [(a, 15), (b, 10), (g, 0)] = w := Option.some.inj he
    simp only [place, packed] at e ⊢; omega
  refine ⟨lt_of hw hp rfl, ?_⟩
  show byOpcode (field w 25 7) w = _
  rw [show field w 25 7 = 10 from field_at hw hp 5 rfl]
  show opcode0a (field w 3 7) w = _
  rw [show field w 3 7 = 0 from field_at hw hp 1 rfl]
  have c0 : field w 15 5 = a := field_at hw hp 3 rfl
  have c1 : field w 10 5 = b := field_at hw hp 2 rfl
  have c2 : field w 0 3 = g := field_at hw hp 0 rfl
  have c3 : field w 20 5 = 0 := field_at hw hp 4 rfl
  simp [opcode0a, c0, c1, c2, c3]

theorem tlbinvAll (g : Nat) : Statement (.tlbinvAll g) := by
  intro w hwf he
  have hr : ([.field g 3] : List Operand).all Operand.fits = true := fits_of_wellFormed hwf
  simp only [List.all_cons, List.all_nil, Operand.fits, Bool.and_eq_true, decide_eq_true_eq, and_true] at hr
  have hp : ∀ seg ∈ ([(g, 3), (0, 7), (0, 10), (1, 5), (10, 7)] : List (Nat × Nat)), seg.1 < 2 ^ seg.2 := by simp; omega
  have hw : w = packed [(g, 3), (0, 7), (0, 10), (1, 5), (10, 7)] := by
    have e : place 0x14100000 [(g, 0)] = w := Option.some.inj he
    simp only [place, packed] at e ⊢; omega
  refine ⟨lt_of hw hp rfl, ?_⟩
  show byOpcode (field w 25 7) w = _
  rw [show field w 25 7 = 10 from field_at hw hp 4 rfl]
  show opcode0a (field w 3 7) w = _
  rw [show field w 3 7 = 0 from field_at hw hp 1 rfl]
  have c0 : field w 0 3 = g := field_at hw hp 0 rfl
  have c1 : field w 20 5 = 1 := field_at hw hp 3 rfl
  simp [opcode0a, c0, c1]

theorem pgateS (a g : Nat) : Statement (.pgateS a g) := by
  intro w hwf he
  have hr : ([.noPort a, .field g 3] : List Operand).all Operand.fits = true := fits_of_wellFormed hwf
  simp only [List.all_cons, List.all_nil, Operand.fits, Bool.and_eq_true, decide_eq_true_eq, and_true] at hr
  have hp : ∀ seg ∈ ([(g, 3), (1, 7), (0, 5), (a, 5), (0, 5), (10, 7)] : List (Nat × Nat)), seg.1 < 2 ^ seg.2 := by simp; omega
  have hw : w = packed [(g, 3), (1, 7), (0, 5), (a, 5), (0, 5), (10, 7)] := by
    have e : place 0x14000008 [(a, 15), (g, 0)] = w := Option.some.inj he
    simp only [place, packed] at e ⊢; omega
  refine ⟨lt_of hw hp rfl, ?_⟩
  show byOpcode (field w 25 7) w = _
  rw [show field w 25 7 = 10 from field_at hw hp 5 rfl]
  show opcode0a (field w 3 7) w = _
  rw [show field w 3 7 = 1 from field_at hw hp 1 rfl]
  have c0 : field w 15 5 = a := field_at hw hp 3 rfl
  have c1 : field w 0 3 = g := field_at hw hp 0 rfl
  have c2 : field w 20 5 = 0 := field_at hw hp 4 rfl
  simp [opcode0a, c0, c1, c2]

theorem pgateW (a g : Nat) : Statement (.pgateW a g) := by
  intro w hwf he
  have hr : ([.noPort a, .field g 3] : List Operand).all Operand.fits = true := fits_of_wellFormed hwf
  simp only [List.all_cons, List.all_nil, Operand.fits, Bool.and_eq_true, decide_eq_true_eq, and_true] at hr
  have hp : ∀ seg ∈ ([(g, 3), (1, 7), (0, 5), (a, 5), (1, 5), (10, 7)] : List (Nat × Nat)), seg.1 < 2 ^ seg.2 := by simp; omega
  have hw : w = packed [(g, 3), (1, 7), (0, 5), (a, 5), (1, 5), (10, 7)] := by
    have e : place 0x14100008 [(a, 15), (g, 0)] = w := Option.some.inj he
    simp only [place, packed] at e ⊢; omega
  refine ⟨lt_of hw hp rfl, ?_⟩
  show byOpcode (field w 25 7) w = _
  rw [show field w 25 7 = 10 from field_at hw hp 5 rfl]
  show opcode0a (field w 3 7) w = _
  rw [show field w 3 7 = 1 from field_at hw hp 1 rfl]
  have c0 : field w 15 5 = a := field_at hw hp 3 rfl
  have c1 : field w 0 3 = g := field_at hw hp 0 rfl
  have c2 : field w 20 5 = 1 := field_at hw hp 4 rfl
  simp [opcode0a, c0, c1, c2]

theorem ctxload (d a b g : Nat) : Statement (.ctxload d a b g) := by
  intro w hwf he
  have hr : ([.oneUp d, .noPort a, .noPort b, .field g 3] : List Operand).all Operand.fits = true := fits_of_wellFormed hwf
  simp only [List.all_cons, List.all_nil, Operand.fits, Bool.and_eq_true, decide_eq_true_eq, and_true] at hr
  have hp : ∀ seg ∈ ([(g, 3), (2, 7), (b, 5), (a, 5), (d, 5), (10, 7)] : List (Nat × Nat)), seg.1 < 2 ^ seg.2 := by simp; omega
  have hw : w = packed [(g, 3), (2, 7), (b, 5), (a, 5), (d, 5), (10, 7)] := by
    have e : place 0x14000010 [(d, 20), (a, 15), (b, 10), (g, 0)] = w := Option.some.inj he
    simp only [place, packed] at e ⊢; omega
  refine ⟨lt_of hw hp rfl, ?_⟩
  show byOpcode (field w 25 7) w = _
  rw [show field w 25 7 = 10 from field_at hw hp 5 rfl]
  show opcode0a (field w 3 7) w = _
  rw [show field w 3 7 = 2 from field_at hw hp 1 rfl]
  show Except.ok (Instr.ctxload (field w 20 5) (field w 15 5) (field w 10 5) (field w 0 3)) = _
  rw [show field w 20 5 = d from field_at hw hp 4 rfl, show field w 15 5 = a from field_at hw hp 3 rfl, show field w 10 5 = b from field_at hw hp 2 rfl, show field w 0 3 = g from field_at hw hp 0 rfl]

theorem ctxsave (d a b g : Nat) : Statement (.ctxsave d a b g) := by
  intro w hwf he
  have hr : ([.oneUp d, .noPort a, .noPort b, .field g 3] : List Operand).all Operand.fits = true := fits_of_wellFormed hwf
  simp only [List.all_cons, List.all_nil, Operand.fits, Bool.and_eq_true, decide_eq_true_eq, and_true] at hr
  have hp : ∀ seg ∈ ([(g, 3), (3, 7), (b, 5), (a, 5), (d, 5), (10, 7)] : List (Nat × Nat)), seg.1 < 2 ^ seg.2 := by simp; omega
  have hw : w = packed [(g, 3), (3, 7), (b, 5), (a, 5), (d, 5), (10, 7)] := by
    have e : place 0x14000018 [(d, 20), (a, 15), (b, 10), (g, 0)] = w := Option.some.inj he
    simp only [place, packed] at e ⊢; omega
  refine ⟨lt_of hw hp rfl, ?_⟩
  show byOpcode (field w 25 7) w = _
  rw [show field w 25 7 = 10 from field_at hw hp 5 rfl]
  show opcode0a (field w 3 7) w = _
  rw [show field w 3 7 = 3 from field_at hw hp 1 rfl]
  show Except.ok (Instr.ctxsave (field w 20 5) (field w 15 5) (field w 10 5) (field w 0 3)) = _
  rw [show field w 20 5 = d from field_at hw hp 4 rfl, show field w 15 5 = a from field_at hw hp 3 rfl, show field w 10 5 = b from field_at hw hp 2 rfl, show field w 0 3 = g from field_at hw hp 0 rfl]

theorem flagsGet (d g : Nat) : Statement (.flagsGet d g) := by
  intro w hwf he
  have hr : ([.noPort d, .field g 3] : List Operand).all Operand.fits = true := fits_of_wellFormed hwf
  simp only [List.all_cons, List.all_nil, Operand.fits, Bool.and_eq_true, decide_eq_true_eq, and_true] at hr
  have hp : ∀ seg ∈ ([(g, 3), (0, 7), (0, 10), (d, 5), (11, 7)] : List (Nat × Nat)), seg.1 < 2 ^ seg.2 := by simp; omega
  have hw : w = packed [(g, 3), (0, 7), (0, 10), (d, 5), (11, 7)] := by
    have e : place 0x16000000 [(d, 20), (g, 0)] = w := Option.some.inj he
    simp only [place, packed] at e ⊢; omega
  refine ⟨lt_of hw hp rfl, ?_⟩
  show byOpcode (field w 25 7) w = _
  rw [show field w 25 7 = 11 from field_at hw hp 4 rfl]
  show opcode0b (field w 3 7) w = _
  rw [show field w 3 7 = 0 from field_at hw hp 1 rfl]
  show Except.ok (Instr.flagsGet (field w 20 5) (field w 0 3)) = _
  rw [show field w 20 5 = d from field_at hw hp 3 rfl, show field w 0 3 = g from field_at hw hp 0 rfl]

theorem flagsClr (a g : Nat) : Statement (.flagsClr a g) := by
  intro w hwf he
  have hr : ([.source a, .field g 3] : List Operand).all Operand.fits = true := fits_of_wellFormed hwf
  simp only [List.all_cons, List.all_nil, Operand.fits, Bool.and_eq_true, decide_eq_true_eq, and_true] at hr
  have hp : ∀ seg ∈ ([(g, 3), (1, 7), (0, 5), (a, 5), (0, 5), (11, 7)] : List (Nat × Nat)), seg.1 < 2 ^ seg.2 := by simp; omega
  have hw : w = packed [(g, 3), (1, 7), (0, 5), (a, 5), (0, 5), (11, 7)] := by
    have e : place 0x16000008 [(a, 15), (g, 0)] = w := Option.some.inj he
    simp only [place, packed] at e ⊢; omega
  refine ⟨lt_of hw hp rfl, ?_⟩
  show byOpcode (field w 25 7) w = _
  rw [show field w 25 7 = 11 from field_at hw hp 5 rfl]
  show opcode0b (field w 3 7) w = _
  rw [show field w 3 7 = 1 from field_at hw hp 1 rfl]
  show Except.ok (Instr.flagsClr (field w 15 5) (field w 0 3)) = _
  rw [show field w 15 5 = a from field_at hw hp 3 rfl, show field w 0 3 = g from field_at hw hp 0 rfl]

theorem flagsSet (a g : Nat) : Statement (.flagsSet a g) := by
  intro w hwf he
  have hr : ([.source a, .field g 3] : List Operand).all Operand.fits = true := fits_of_wellFormed hwf
  simp only [List.all_cons, List.all_nil, Operand.fits, Bool.and_eq_true, decide_eq_true_eq, and_true] at hr
  have hp : ∀ seg ∈ ([(g, 3), (2, 7), (0, 5), (a, 5), (0, 5), (11, 7)] : List (Nat × Nat)), seg.1 < 2 ^ seg.2 := by simp; omega
  have hw : w = packed [(g, 3), (2, 7), (0, 5), (a, 5), (0, 5), (11, 7)] := by
    have e : place 0x16000010 [(a, 15), (g, 0)] = w := Option.some.inj he
    simp only [place, packed] at e ⊢; omega
  refine ⟨lt_of hw hp rfl, ?_⟩
  show byOpcode (field w 25 7) w = _
  rw [show field w 25 7 = 11 from field_at hw hp 5 rfl]
  show opcode0b (field w 3 7) w = _
  rw [show field w 3 7 = 2 from field_at hw hp 1 rfl]
  show Except.ok (Instr.flagsSet (field w 15 5) (field w 0 3)) = _
  rw [show field w 15 5 = a from field_at hw hp 3 rfl, show field w 0 3 = g from field_at hw hp 0 rfl]

theorem add (d a b sz sgn g : Nat) : Statement (.add d a b sz sgn g) := by
  intro w hwf he
  have hr : ([.dest d, .source a, .source b, .field sz 2, .field sgn 1, .field g 3] : List Operand).all Operand.fits = true := fits_of_wellFormed hwf
  simp only [List.all_cons, List.all_nil, Operand.fits, Bool.and_eq_true, decide_eq_true_eq, and_true] at hr
  have hp : ∀ seg ∈ ([(g, 3), (0, 4), (sgn, 1), (sz, 2), (b, 5), (a, 5), (d, 5), (16, 7)] : List (Nat × Nat)), seg.1 < 2 ^ seg.2 := by simp; omega
  have hw : w = packed [(g, 3), (0, 4), (sgn, 1), (sz, 2), (b, 5), (a, 5), (d, 5), (16, 7)] := by
    have e : place 0x20000000 [(d, 20), (a, 15), (b, 10), (sz, 8), (sgn, 7), (g, 0)] = w := Option.some.inj he
    simp only [place, packed] at e ⊢; omega
  refine ⟨lt_of hw hp rfl, ?_⟩
  show byOpcode (field w 25 7) w = _
  rw [show field w 25 7 = 16 from field_at hw hp 7 rfl]
  show opcode10 (field w 3 4) w = _
  rw [show field w 3 4 = 0 from field_at hw hp 1 rfl]
  show Except.ok (Instr.add (field w 20 5) (field w 15 5) (field w 10 5) (field w 8 2) (field w 7 1) (field w 0 3)) = _
  rw [show field w 20 5 = d from field_at hw hp 6 rfl, show field w 15 5 = a from field_at hw hp 5 rfl, show field w 10 5 = b from field_at hw hp 4 rfl, show field w 8 2 = sz from field_at hw hp 3 rfl, show field w 7 1 = sgn from field_at hw hp 2 rfl, show field w 0 3 = g from field_at hw hp 0 rfl]

theorem sub (d a b sz sgn g : Nat) : Statement (.sub d a b sz sgn g) := by
  intro w hwf he
  have hr : ([.dest d, .source a, .source b, .field sz 2, .field sgn 1, .field g 3] : List Operand).all Operand.fits = true := fits_of_wellFormed hwf
  simp only [List.all_cons, List.all_nil, Operand.fits, Bool.and_eq_true, decide_eq_true_eq, and_true] at hr
  have hp : ∀ seg ∈ ([(g, 3), (1, 4), (sgn, 1), (sz, 2), (b, 5), (a, 5), (d, 5), (16, 7)] : List (Nat × Nat)), seg.1 < 2 ^ seg.2 := by simp; omega
  have hw : w = packed [(g, 3), (1, 4), (sgn, 1), (sz, 2), (b, 5), (a, 5), (d, 5), (16, 7)] := by
    have e : place 0x20000008 [(d, 20), (a, 15), (b, 10), (sz, 8), (sgn, 7), (g, 0)] = w := Option.some.inj he
    simp only [place, packed] at e ⊢; omega
  refine ⟨lt_of hw hp rfl, ?_⟩
  show byOpcode (field w 25 7) w = _
  rw [show field w 25 7 = 16 from field_at hw hp 7 rfl]
  show opcode10 (field w 3 4) w = _
  rw [show field w 3 4 = 1 from field_at hw hp 1 rfl]
  show Except.ok (Instr.sub (field w 20 5) (field w 15 5) (field w 10 5) (field w 8 2) (field w 7 1) (field w 0 3)) = _
  rw [show field w 20 5 = d from field_at hw hp 6 rfl, show field w 15 5 = a from field_at hw hp 5 rfl, show field w 10 5 = b from field_at hw hp 4 rfl, show field w 8 2 = sz from field_at hw hp 3 rfl, show field w 7 1 = sgn from field_at hw hp 2 rfl, show field w 0 3 = g from field_at hw hp 0 rfl]

theorem and (d a b sz sgn g : Nat) : Statement (.and d a b sz sgn g) := by
  intro w hwf he
  have hr : ([.dest d, .source a, .source b, .field sz 2, .field sgn 1, .field g 3] : List Operand).all Operand.fits = true := fits_of_wellFormed hwf
  simp only [List.all_cons, List.all_nil, Operand.fits, Bool.and_eq_true, decide_eq_true_eq, and_true] at hr
  have hp : ∀ seg ∈ ([(g, 3), (2, 4), (sgn, 1), (sz, 2), (b, 5), (a, 5), (d, 5), (16, 7)] : List (Nat × Nat)), seg.1 < 2 ^ seg.2 := by simp; omega
  have hw : w = packed [(g, 3), (2, 4), (sgn, 1), (sz, 2), (b, 5), (a, 5), (d, 5), (16, 7)] := by
    have e : place 0x20000010 [(d, 20), (a, 15), (b, 10), (sz, 8), (sgn, 7), (g, 0)] = w := Option.some.inj he
    simp only [place, packed] at e ⊢; omega
  refine ⟨lt_of hw hp rfl, ?_⟩
  show byOpcode (field w 25 7) w = _
  rw [show field w 25 7 = 16 from field_at hw hp 7 rfl]
  show opcode10 (field w 3 4) w = _
  rw [show field w 3 4 = 2 from field_at hw hp 1 rfl]
  show Except.ok (Instr.and (field w 20 5) (field w 15 5) (field w 10 5) (field w 8 2) (field w 7 1) (field w 0 3)) = _
  rw [show field w 20 5 = d from field_at hw hp 6 rfl, show field w 15 5 = a from field_at hw hp 5 rfl, show field w 10 5 = b from field_at hw hp 4 rfl, show field w 8 2 = sz from field_at hw hp 3 rfl, show field w 7 1 = sgn from field_at hw hp 2 rfl, show field w 0 3 = g from field_at hw hp 0 rfl]

theorem or (d a b sz sgn g : Nat) : Statement (.or d a b sz sgn g) := by
  intro w hwf he
  have hr : ([.dest d, .source a, .source b, .field sz 2, .field sgn 1, .field g 3] : List Operand).all Operand.fits = true := fits_of_wellFormed hwf
  simp only [List.all_cons, List.all_nil, Operand.fits, Bool.and_eq_true, decide_eq_true_eq, and_true] at hr
  have hp : ∀ seg ∈ ([(g, 3), (3, 4), (sgn, 1), (sz, 2), (b, 5), (a, 5), (d, 5), (16, 7)] : List (Nat × Nat)), seg.1 < 2 ^ seg.2 := by simp; omega
  have hw : w = packed [(g, 3), (3, 4), (sgn, 1), (sz, 2), (b, 5), (a, 5), (d, 5), (16, 7)] := by
    have e : place 0x20000018 [(d, 20), (a, 15), (b, 10), (sz, 8), (sgn, 7), (g, 0)] = w := Option.some.inj he
    simp only [place, packed] at e ⊢; omega
  refine ⟨lt_of hw hp rfl, ?_⟩
  show byOpcode (field w 25 7) w = _
  rw [show field w 25 7 = 16 from field_at hw hp 7 rfl]
  show opcode10 (field w 3 4) w = _
  rw [show field w 3 4 = 3 from field_at hw hp 1 rfl]
  show Except.ok (Instr.or (field w 20 5) (field w 15 5) (field w 10 5) (field w 8 2) (field w 7 1) (field w 0 3)) = _
  rw [show field w 20 5 = d from field_at hw hp 6 rfl, show field w 15 5 = a from field_at hw hp 5 rfl, show field w 10 5 = b from field_at hw hp 4 rfl, show field w 8 2 = sz from field_at hw hp 3 rfl, show field w 7 1 = sgn from field_at hw hp 2 rfl, show field w 0 3 = g from field_at hw hp 0 rfl]

theorem xor (d a b sz sgn g : Nat) : Statement (.xor d a b sz sgn g) := by
  intro w hwf he
  have hr : ([.dest d, .source a, .source b, .field sz 2, .field sgn 1, .field g 3] : List Operand).all Operand.fits = true := fits_of_wellFormed hwf
  simp only [List.all_cons, List.all_nil, Operand.fits, Bool.and_eq_true, decide_eq_true_eq, and_true] at hr
  have hp : ∀ seg ∈ ([(g, 3), (4, 4), (sgn, 1), (sz, 2), (b, 5), (a, 5), (d, 5), (16, 7)] : List (Nat × Nat)), seg.1 < 2 ^ seg.2 := by simp; omega
  have hw : w = packed [(g, 3), (4, 4), (sgn, 1), (sz, 2), (b, 5), (a, 5), (d, 5), (16, 7)] := by
    have e : place 0x20000020 [(d, 20), (a, 15), (b, 10), (sz, 8), (sgn, 7), (g, 0)] = w := Option.some.inj he
    simp only [place, packed] at e ⊢; omega
  refine ⟨lt_of hw hp rfl, ?_⟩
  show byOpcode (field w 25 7) w = _
  rw [show field w 25 7 = 16 from field_at hw hp 7 rfl]
  show opcode10 (field w 3 4) w = _
  rw [show field w 3 4 = 4 from field_at hw hp 1 rfl]
  show Except.ok (Instr.xor (field w 20 5) (field w 15 5) (field w 10 5) (field w 8 2) (field w 7 1) (field w 0 3)) = _
  rw [show field w 20 5 = d from field_at hw hp 6 rfl, show field w 15 5 = a from field_at hw hp 5 rfl, show field w 10 5 = b from field_at hw hp 4 rfl, show field w 8 2 = sz from field_at hw hp 3 rfl, show field w 7 1 = sgn from field_at hw hp 2 rfl, show field w 0 3 = g from field_at hw hp 0 rfl]

theorem andn (d a b sz sgn g : Nat) : Statement (.andn d a b sz sgn g) := by
  intro w hwf he
  have hr : ([.dest d, .source a, .source b, .field sz 2, .field sgn 1, .field g 3] : List Operand).all Operand.fits = true := fits_of_wellFormed hwf
  simp only [List.all_cons, List.all_nil, Operand.fits, Bool.and_eq_true, decide_eq_true_eq, and_true] at hr
  have hp : ∀ seg ∈ ([(g, 3), (5, 4), (sgn, 1), (sz, 2), (b, 5), (a, 5), (d, 5), (16, 7)] : List (Nat × Nat)), seg.1 < 2 ^ seg.2 := by simp; omega
  have hw : w = packed [(g, 3), (5, 4), (sgn, 1), (sz, 2), (b, 5), (a, 5), (d, 5), (16, 7)] := by
    have e : place 0x20000028 [(d, 20), (a, 15), (b, 10), (sz, 8), (sgn, 7), (g, 0)] = w := Option.some.inj he
    simp only [place, packed] at e ⊢; omega
  refine ⟨lt_of hw hp rfl, ?_⟩
  show byOpcode (field w 25 7) w = _
  rw [show field w 25 7 = 16 from field_at hw hp 7 rfl]
  show opcode10 (field w 3 4) w = _
  rw [show field w 3 4 = 5 from field_at hw hp 1 rfl]
  show Except.ok (Instr.andn (field w 20 5) (field w 15 5) (field w 10 5) (field w 8 2) (field w 7 1) (field w 0 3)) = _
  rw [show field w 20 5 = d from field_at hw hp 6 rfl, show field w 15 5 = a from field_at hw hp 5 rfl, show field w 10 5 = b from field_at hw hp 4 rfl, show field w 8 2 = sz from field_at hw hp 3 rfl, show field w 7 1 = sgn from field_at hw hp 2 rfl, show field w 0 3 = g from field_at hw hp 0 rfl]

theorem orn (d a b sz sgn g : Nat) : Statement (.orn d a b sz sgn g) := by
  intro w hwf he
  have hr : ([.dest d, .source a, .source b, .field sz 2, .field sgn 1, .field g 3] : List Operand).all Operand.fits = true := fits_of_wellFormed hwf
  simp only [List.all_cons, List.all_nil, Operand.fits, Bool.and_eq_true, decide_eq_true_eq, and_true] at hr
  have hp : ∀ seg ∈ ([(g, 3), (6, 4), (sgn, 1), (sz, 2), (b, 5), (a, 5), (d, 5), (16, 7)] : List (Nat × Nat)), seg.1 < 2 ^ seg.2 := by simp; omega
  have hw : w = packed [(g, 3), (6, 4), (sgn, 1), (sz, 2), (b, 5), (a, 5), (d, 5), (16, 7)] := by
    have e : place 0x20000030 [(d, 20), (a, 15), (b, 10), (sz, 8), (sgn, 7), (g, 0)] = w := Option.some.inj he
    simp only [place, packed] at e ⊢; omega
  refine ⟨lt_of hw hp rfl, ?_⟩
  show byOpcode (field w 25 7) w = _
  rw [show field w 25 7 = 16 from field_at hw hp 7 rfl]
  show opcode10 (field w 3 4) w = _
  rw [show field w 3 4 = 6 from field_at hw hp 1 rfl]
  show Except.ok (Instr.orn (field w 20 5) (field w 15 5) (field w 10 5) (field w 8 2) (field w 7 1) (field w 0 3)) = _
  rw [show field w 20 5 = d from field_at hw hp 6 rfl, show field w 15 5 = a from field_at hw hp 5 rfl, show field w 10 5 = b from field_at hw hp 4 rfl, show field w 8 2 = sz from field_at hw hp 3 rfl, show field w 7 1 = sgn from field_at hw hp 2 rfl, show field w 0 3 = g from field_at hw hp 0 rfl]

theorem xnor (d a b sz sgn g : Nat) : Statement (.xnor d a b sz sgn g) := by
  intro w hwf he
  have hr : ([.dest d, .source a, .source b, .field sz 2, .field sgn 1, .field g 3] : List Operand).all Operand.fits = true := fits_of_wellFormed hwf
  simp only [List.all_cons, List.all_nil, Operand.fits, Bool.and_eq_true, decide_eq_true_eq, and_true] at hr
  have hp : ∀ seg ∈ ([(g, 3), (7, 4), (sgn, 1), (sz, 2), (b, 5), (a, 5), (d, 5), (16, 7)] : List (Nat × Nat)), seg.1 < 2 ^ seg.2 := by simp; omega
  have hw : w = packed [(g, 3), (7, 4), (sgn, 1), (sz, 2), (b, 5), (a, 5), (d, 5), (16, 7)] := by
    have e : place 0x20000038 [(d, 20), (a, 15), (b, 10), (sz, 8), (sgn, 7), (g, 0)] = w := Option.some.inj he
    simp only [place, packed] at e ⊢; omega
  refine ⟨lt_of hw hp rfl, ?_⟩
  show byOpcode (field w 25 7) w = _
  rw [show field w 25 7 = 16 from field_at hw hp 7 rfl]
  show opcode10 (field w 3 4) w = _
  rw [show field w 3 4 = 7 from field_at hw hp 1 rfl]
  show Except.ok (Instr.xnor (field w 20 5) (field w 15 5) (field w 10 5) (field w 8 2) (field w 7 1) (field w 0 3)) = _
  rw [show field w 20 5 = d from field_at hw hp 6 rfl, show field w 15 5 = a from field_at hw hp 5 rfl, show field w 10 5 = b from field_at hw hp 4 rfl, show field w 8 2 = sz from field_at hw hp 3 rfl, show field w 7 1 = sgn from field_at hw hp 2 rfl, show field w 0 3 = g from field_at hw hp 0 rfl]

theorem shl (d a b sz sgn g : Nat) : Statement (.shl d a b sz sgn g) := by
  intro w hwf he
  have hr : ([.dest d, .source a, .source b, .field sz 2, .field sgn 1, .field g 3] : List Operand).all Operand.fits = true := fits_of_wellFormed hwf
  simp only [List.all_cons, List.all_nil, Operand.fits, Bool.and_eq_true, decide_eq_true_eq, and_true] at hr
  have hp : ∀ seg ∈ ([(g, 3), (8, 4), (sgn, 1), (sz, 2), (b, 5), (a, 5), (d, 5), (16, 7)] : List (Nat × Nat)), seg.1 < 2 ^ seg.2 := by simp; omega
  have hw : w = packed [(g, 3), (8, 4), (sgn, 1), (sz, 2), (b, 5), (a, 5), (d, 5), (16, 7)] := by
    have e : place 0x20000040 [(d, 20), (a, 15), (b, 10), (sz, 8), (sgn, 7), (g, 0)] = w := Option.some.inj he
    simp only [place, packed] at e ⊢; omega
  refine ⟨lt_of hw hp rfl, ?_⟩
  show byOpcode (field w 25 7) w = _
  rw [show field w 25 7 = 16 from field_at hw hp 7 rfl]
  show opcode10 (field w 3 4) w = _
  rw [show field w 3 4 = 8 from field_at hw hp 1 rfl]
  show Except.ok (Instr.shl (field w 20 5) (field w 15 5) (field w 10 5) (field w 8 2) (field w 7 1) (field w 0 3)) = _
  rw [show field w 20 5 = d from field_at hw hp 6 rfl, show field w 15 5 = a from field_at hw hp 5 rfl, show field w 10 5 = b from field_at hw hp 4 rfl, show field w 8 2 = sz from field_at hw hp 3 rfl, show field w 7 1 = sgn from field_at hw hp 2 rfl, show field w 0 3 = g from field_at hw hp 0 rfl]

theorem shr (d a b sz sgn g : Nat) : Statement (.shr d a b sz sgn g) := by
  intro w hwf he
  have hr : ([.dest d, .source a, .source b, .field sz 2, .field sgn 1, .field g 3] : List Operand).all Operand.fits = true := fits_of_wellFormed hwf
  simp only [List.all_cons, List.all_nil, Operand.fits, Bool.and_eq_true, decide_eq_true_eq, and_true] at hr
  have hp : ∀ seg ∈ ([(g, 3), (9, 4), (sgn, 1), (sz, 2), (b, 5), (a, 5), (d, 5), (16, 7)] : List (Nat × Nat)), seg.1 < 2 ^ seg.2 := by simp; omega
  have hw : w = packed [(g, 3), (9, 4), (sgn, 1), (sz, 2), (b, 5), (a, 5), (d, 5), (16, 7)] := by
    have e : place 0x20000048 [(d, 20), (a, 15), (b, 10), (sz, 8), (sgn, 7), (g, 0)] = w := Option.some.inj he
    simp only [place, packed] at e ⊢; omega
  refine ⟨lt_of hw hp rfl, ?_⟩
  show byOpcode (field w 25 7) w = _
  rw [show field w 25 7 = 16 from field_at hw hp 7 rfl]
  show opcode10 (field w 3 4) w = _
  rw [show field w 3 4 = 9 from field_at hw hp 1 rfl]
  show Except.ok (Instr.shr (field w 20 5) (field w 15 5) (field w 10 5) (field w 8 2) (field w 7 1) (field w 0 3)) = _
  rw [show field w 20 5 = d from field_at hw hp 6 rfl, show field w 15 5 = a from field_at hw hp 5 rfl, show field w 10 5 = b from field_at hw hp 4 rfl, show field w 8 2 = sz from field_at hw hp 3 rfl, show field w 7 1 = sgn from field_at hw hp 2 rfl, show field w 0 3 = g from field_at hw hp 0 rfl]

theorem sra (d a b sz sgn g : Nat) : Statement (.sra d a b sz sgn g) := by
  intro w hwf he
  have hr : ([.dest d, .source a, .source b, .field sz 2, .field sgn 1, .field g 3] : List Operand).all Operand.fits = true := fits_of_wellFormed hwf
  simp only [List.all_cons, List.all_nil, Operand.fits, Bool.and_eq_true, decide_eq_true_eq, and_true] at hr
  have hp : ∀ seg ∈ ([(g, 3), (10, 4), (sgn, 1), (sz, 2), (b, 5), (a, 5), (d, 5), (16, 7)] : List (Nat × Nat)), seg.1 < 2 ^ seg.2 := by simp; omega
  have hw : w = packed [(g, 3), (10, 4), (sgn, 1), (sz, 2), (b, 5), (a, 5), (d, 5), (16, 7)] := by
    have e : place 0x20000050 [(d, 20), (a, 15), (b, 10), (sz, 8), (sgn, 7), (g, 0)] = w := Option.some.inj he
    simp only [place, packed] at e ⊢; omega
  refine ⟨lt_of hw hp rfl, ?_⟩
  show byOpcode (field w 25 7) w = _
  rw [show field w 25 7 = 16 from field_at hw hp 7 rfl]
  show opcode10 (field w 3 4) w = _
  rw [show field w 3 4 = 10 from field_at hw hp 1 rfl]
  show Except.ok (Instr.sra (field w 20 5) (field w 15 5) (field w 10 5) (field w 8 2) (field w 7 1) (field w 0 3)) = _
  rw [show field w 20 5 = d from field_at hw hp 6 rfl, show field w 15 5 = a from field_at hw hp 5 rfl, show field w 10 5 = b from field_at hw hp 4 rfl, show field w 8 2 = sz from field_at hw hp 3 rfl, show field w 7 1 = sgn from field_at hw hp 2 rfl, show field w 0 3 = g from field_at hw hp 0 rfl]

theorem rol (d a b sz sgn g : Nat) : Statement (.rol d a b sz sgn g) := by
  intro w hwf he
  have hr : ([.dest d, .source a, .source b, .field sz 2, .field sgn 1, .field g 3] : List Operand).all Operand.fits = true := fits_of_wellFormed hwf
  simp only [List.all_cons, List.all_nil, Operand.fits, Bool.and_eq_true, decide_eq_true_eq, and_true] at hr
  have hp : ∀ seg ∈ ([(g, 3), (11, 4), (sgn, 1), (sz, 2), (b, 5), (a, 5), (d, 5), (16, 7)] : List (Nat × Nat)), seg.1 < 2 ^ seg.2 := by simp; omega
  have hw : w = packed [(g, 3), (11, 4), (sgn, 1), (sz, 2), (b, 5), (a, 5), (d, 5), (16, 7)] := by
    have e : place 0x20000058 [(d, 20), (a, 15), (b, 10), (sz, 8), (sgn, 7), (g, 0)] = w := Option.some.inj he
    simp only [place, packed] at e ⊢; omega
  refine ⟨lt_of hw hp rfl, ?_⟩
  show byOpcode (field w 25 7) w = _
  rw [show field w 25 7 = 16 from field_at hw hp 7 rfl]
  show opcode10 (field w 3 4) w = _
  rw [show field w 3 4 = 11 from field_at hw hp 1 rfl]
  show Except.ok (Instr.rol (field w 20 5) (field w 15 5) (field w 10 5) (field w 8 2) (field w 7 1) (field w 0 3)) = _
  rw [show field w 20 5 = d from field_at hw hp 6 rfl, show field w 15 5 = a from field_at hw hp 5 rfl, show field w 10 5 = b from field_at hw hp 4 rfl, show field w 8 2 = sz from field_at hw hp 3 rfl, show field w 7 1 = sgn from field_at hw hp 2 rfl, show field w 0 3 = g from field_at hw hp 0 rfl]

theorem ror (d a b sz sgn g : Nat) : Statement (.ror d a b sz sgn g) := by
  intro w hwf he
  have hr : ([.dest d, .source a, .source b, .field sz 2, .field sgn 1, .field g 3] : List Operand).all Operand.fits = true := fits_of_wellFormed hwf
  simp only [List.all_cons, List.all_nil, Operand.fits, Bool.and_eq_true, decide_eq_true_eq, and_true] at hr
  have hp : ∀ seg ∈ ([(g, 3), (12, 4), (sgn, 1), (sz, 2), (b, 5), (a, 5), (d, 5), (16, 7)] : List (Nat × Nat)), seg.1 < 2 ^ seg.2 := by simp; omega
  have hw : w = packed [(g, 3), (12, 4), (sgn, 1), (sz, 2), (b, 5), (a, 5), (d, 5), (16, 7)] := by
    have e : place 0x20000060 [(d, 20), (a, 15), (b, 10), (sz, 8), (sgn, 7), (g, 0)] = w := Option.some.inj he
    simp only [place, packed] at e ⊢; omega
  refine ⟨lt_of hw hp rfl, ?_⟩
  show byOpcode (field w 25 7) w = _
  rw [show field w 25 7 = 16 from field_at hw hp 7 rfl]
  show opcode10 (field w 3 4) w = _
  rw [show field w 3 4 = 12 from field_at hw hp 1 rfl]
  show Except.ok (Instr.ror (field w 20 5) (field w 15 5) (field w 10 5) (field w 8 2) (field w 7 1) (field w 0 3)) = _
  rw [show field w 20 5 = d from field_at hw hp 6 rfl, show field w 15 5 = a from field_at hw hp 5 rfl, show field w 10 5 = b from field_at hw hp 4 rfl, show field w 8 2 = sz from field_at hw hp 3 rfl, show field w 7 1 = sgn from field_at hw hp 2 rfl, show field w 0 3 = g from field_at hw hp 0 rfl]

theorem addi (d a imm g : Nat) : Statement (.addi d a imm g) := by
  intro w hwf he
  have hr : ([.dest d, .source a, .field imm 12, .field g 3] : List Operand).all Operand.fits = true := fits_of_wellFormed hwf
  simp only [List.all_cons, List.all_nil, Operand.fits, Bool.and_eq_true, decide_eq_true_eq, and_true] at hr
  have hp : ∀ seg ∈ ([(g, 3), (imm, 12), (a, 5), (d, 5), (17, 7)] : List (Nat × Nat)), seg.1 < 2 ^ seg.2 := by simp; omega
  have hw : w = packed [(g, 3), (imm, 12), (a, 5), (d, 5), (17, 7)] := by
    have e : place 0x22000000 [(d, 20), (a, 15), (imm, 3), (g, 0)] = w := Option.some.inj he
    simp only [place, packed] at e ⊢; omega
  refine ⟨lt_of hw hp rfl, ?_⟩
  show byOpcode (field w 25 7) w = _
  rw [show field w 25 7 = 17 from field_at hw hp 4 rfl]
  show Except.ok (Instr.addi (field w 20 5) (field w 15 5) (field w 3 12) (field w 0 3)) = _
  rw [show field w 20 5 = d from field_at hw hp 3 rfl, show field w 15 5 = a from field_at hw hp 2 rfl, show field w 3 12 = imm from field_at hw hp 1 rfl, show field w 0 3 = g from field_at hw hp 0 rfl]

theorem andi (d a imm g : Nat) : Statement (.andi d a imm g) := by
  intro w hwf he
  have hr : ([.dest d, .source a, .field imm 12, .field g 3] : List Operand).all Operand.fits = true := fits_of_wellFormed hwf
  simp only [List.all_cons, List.all_nil, Operand.fits, Bool.and_eq_true, decide_eq_true_eq, and_true] at hr
  have hp : ∀ seg ∈ ([(g, 3), (imm, 12), (a, 5), (d, 5), (18, 7)] : List (Nat × Nat)), seg.1 < 2 ^ seg.2 := by simp; omega
  have hw : w = packed [(g, 3), (imm, 12), (a, 5), (d, 5), (18, 7)] := by
    have e : place 0x24000000 [(d, 20), (a, 15), (imm, 3), (g, 0)] = w := Option.some.inj he
    simp only [place, packed] at e ⊢; omega
  refine ⟨lt_of hw hp rfl, ?_⟩
  show byOpcode (field w 25 7) w = _
  rw [show field w 25 7 = 18 from field_at hw hp 4 rfl]
  show Except.ok (Instr.andi (field w 20 5) (field w 15 5) (field w 3 12) (field w 0 3)) = _
  rw [show field w 20 5 = d from field_at hw hp 3 rfl, show field w 15 5 = a from field_at hw hp 2 rfl, show field w 3 12 = imm from field_at hw hp 1 rfl, show field w 0 3 = g from field_at hw hp 0 rfl]

theorem ori (d a imm g : Nat) : Statement (.ori d a imm g) := by
  intro w hwf he
  have hr : ([.dest d, .source a, .field imm 12, .field g 3] : List Operand).all Operand.fits = true := fits_of_wellFormed hwf
  simp only [List.all_cons, List.all_nil, Operand.fits, Bool.and_eq_true, decide_eq_true_eq, and_true] at hr
  have hp : ∀ seg ∈ ([(g, 3), (imm, 12), (a, 5), (d, 5), (19, 7)] : List (Nat × Nat)), seg.1 < 2 ^ seg.2 := by simp; omega
  have hw : w = packed [(g, 3), (imm, 12), (a, 5), (d, 5), (19, 7)] := by
    have e : place 0x26000000 [(d, 20), (a, 15), (imm, 3), (g, 0)] = w := Option.some.inj he
    simp only [place, packed] at e ⊢; omega
  refine ⟨lt_of hw hp rfl, ?_⟩
  show byOpcode (field w 25 7) w = _
  rw [show field w 25 7 = 19 from field_at hw hp 4 rfl]
  show Except.ok (Instr.ori (field w 20 5) (field w 15 5) (field w 3 12) (field w 0 3)) = _
  rw [show field w 20 5 = d from field_at hw hp 3 rfl, show field w 15 5 = a from field_at hw hp 2 rfl, show field w 3 12 = imm from field_at hw hp 1 rfl, show field w 0 3 = g from field_at hw hp 0 rfl]

theorem xori (d a imm g : Nat) : Statement (.xori d a imm g) := by
  intro w hwf he
  have hr : ([.dest d, .source a, .field imm 12, .field g 3] : List Operand).all Operand.fits = true := fits_of_wellFormed hwf
  simp only [List.all_cons, List.all_nil, Operand.fits, Bool.and_eq_true, decide_eq_true_eq, and_true] at hr
  have hp : ∀ seg ∈ ([(g, 3), (imm, 12), (a, 5), (d, 5), (20, 7)] : List (Nat × Nat)), seg.1 < 2 ^ seg.2 := by simp; omega
  have hw : w = packed [(g, 3), (imm, 12), (a, 5), (d, 5), (20, 7)] := by
    have e : place 0x28000000 [(d, 20), (a, 15), (imm, 3), (g, 0)] = w := Option.some.inj he
    simp only [place, packed] at e ⊢; omega
  refine ⟨lt_of hw hp rfl, ?_⟩
  show byOpcode (field w 25 7) w = _
  rw [show field w 25 7 = 20 from field_at hw hp 4 rfl]
  show Except.ok (Instr.xori (field w 20 5) (field w 15 5) (field w 3 12) (field w 0 3)) = _
  rw [show field w 20 5 = d from field_at hw hp 3 rfl, show field w 15 5 = a from field_at hw hp 2 rfl, show field w 3 12 = imm from field_at hw hp 1 rfl, show field w 0 3 = g from field_at hw hp 0 rfl]

theorem shli (d a sh g : Nat) : Statement (.shli d a sh g) := by
  intro w hwf he
  have hr : ([.dest d, .source a, .field sh 6, .field g 3] : List Operand).all Operand.fits = true := fits_of_wellFormed hwf
  simp only [List.all_cons, List.all_nil, Operand.fits, Bool.and_eq_true, decide_eq_true_eq, and_true] at hr
  have hp : ∀ seg ∈ ([(g, 3), (sh, 6), (0, 6), (a, 5), (d, 5), (21, 7)] : List (Nat × Nat)), seg.1 < 2 ^ seg.2 := by simp; omega
  have hw : w = packed [(g, 3), (sh, 6), (0, 6), (a, 5), (d, 5), (21, 7)] := by
    have e : place 0x2a000000 [(d, 20), (a, 15), (sh, 3), (g, 0)] = w := Option.some.inj he
    simp only [place, packed] at e ⊢; omega
  refine ⟨lt_of hw hp rfl, ?_⟩
  show byOpcode (field w 25 7) w = _
  rw [show field w 25 7 = 21 from field_at hw hp 5 rfl]
  show Except.ok (Instr.shli (field w 20 5) (field w 15 5) (field w 3 6) (field w 0 3)) = _
  rw [show field w 20 5 = d from field_at hw hp 4 rfl, show field w 15 5 = a from field_at hw hp 3 rfl, show field w 3 6 = sh from field_at hw hp 1 rfl, show field w 0 3 = g from field_at hw hp 0 rfl]

theorem shri (d a sh g : Nat) : Statement (.shri d a sh g) := by
  intro w hwf he
  have hr : ([.dest d, .source a, .field sh 6, .field g 3] : List Operand).all Operand.fits = true := fits_of_wellFormed hwf
  simp only [List.all_cons, List.all_nil, Operand.fits, Bool.and_eq_true, decide_eq_true_eq, and_true] at hr
  have hp : ∀ seg ∈ ([(g, 3), (sh, 6), (0, 6), (a, 5), (d, 5), (22, 7)] : List (Nat × Nat)), seg.1 < 2 ^ seg.2 := by simp; omega
  have hw : w = packed [(g, 3), (sh, 6), (0, 6), (a, 5), (d, 5), (22, 7)] := by
    have e : place 0x2c000000 [(d, 20), (a, 15), (sh, 3), (g, 0)] = w := Option.some.inj he
    simp only [place, packed] at e ⊢; omega
  refine ⟨lt_of hw hp rfl, ?_⟩
  show byOpcode (field w 25 7) w = _
  rw [show field w 25 7 = 22 from field_at hw hp 5 rfl]
  show Except.ok (Instr.shri (field w 20 5) (field w 15 5) (field w 3 6) (field w 0 3)) = _
  rw [show field w 20 5 = d from field_at hw hp 4 rfl, show field w 15 5 = a from field_at hw hp 3 rfl, show field w 3 6 = sh from field_at hw hp 1 rfl, show field w 0 3 = g from field_at hw hp 0 rfl]

theorem srai (d a sh g : Nat) : Statement (.srai d a sh g) := by
  intro w hwf he
  have hr : ([.dest d, .source a, .field sh 6, .field g 3] : List Operand).all Operand.fits = true := fits_of_wellFormed hwf
  simp only [List.all_cons, List.all_nil, Operand.fits, Bool.and_eq_true, decide_eq_true_eq, and_true] at hr
  have hp : ∀ seg ∈ ([(g, 3), (sh, 6), (0, 6), (a, 5), (d, 5), (23, 7)] : List (Nat × Nat)), seg.1 < 2 ^ seg.2 := by simp; omega
  have hw : w = packed [(g, 3), (sh, 6), (0, 6), (a, 5), (d, 5), (23, 7)] := by
    have e : place 0x2e000000 [(d, 20), (a, 15), (sh, 3), (g, 0)] = w := Option.some.inj he
    simp only [place, packed] at e ⊢; omega
  refine ⟨lt_of hw hp rfl, ?_⟩
  show byOpcode (field w 25 7) w = _
  rw [show field w 25 7 = 23 from field_at hw hp 5 rfl]
  show Except.ok (Instr.srai (field w 20 5) (field w 15 5) (field w 3 6) (field w 0 3)) = _
  rw [show field w 20 5 = d from field_at hw hp 4 rfl, show field w 15 5 = a from field_at hw hp 3 rfl, show field w 3 6 = sh from field_at hw hp 1 rfl, show field w 0 3 = g from field_at hw hp 0 rfl]

theorem mul (d a b sz sgn g : Nat) : Statement (.mul d a b sz sgn g) := by
  intro w hwf he
  have hr : ([.dest d, .source a, .source b, .field sz 2, .field sgn 1, .field g 3] : List Operand).all Operand.fits = true := fits_of_wellFormed hwf
  simp only [List.all_cons, List.all_nil, Operand.fits, Bool.and_eq_true, decide_eq_true_eq, and_true] at hr
  have hp : ∀ seg ∈ ([(g, 3), (0, 4), (sgn, 1), (sz, 2), (b, 5), (a, 5), (d, 5), (24, 7)] : List (Nat × Nat)), seg.1 < 2 ^ seg.2 := by simp; omega
  have hw : w = packed [(g, 3), (0, 4), (sgn, 1), (sz, 2), (b, 5), (a, 5), (d, 5), (24, 7)] := by
    have e : place 0x30000000 [(d, 20), (a, 15), (b, 10), (sz, 8), (sgn, 7), (g, 0)] = w := Option.some.inj he
    simp only [place, packed] at e ⊢; omega
  refine ⟨lt_of hw hp rfl, ?_⟩
  show byOpcode (field w 25 7) w = _
  rw [show field w 25 7 = 24 from field_at hw hp 7 rfl]
  show opcode18 (field w 3 4) w = _
  rw [show field w 3 4 = 0 from field_at hw hp 1 rfl]
  show Except.ok (Instr.mul (field w 20 5) (field w 15 5) (field w 10 5) (field w 8 2) (field w 7 1) (field w 0 3)) = _
  rw [show field w 20 5 = d from field_at hw hp 6 rfl, show field w 15 5 = a from field_at hw hp 5 rfl, show field w 10 5 = b from field_at hw hp 4 rfl, show field w 8 2 = sz from field_at hw hp 3 rfl, show field w 7 1 = sgn from field_at hw hp 2 rfl, show field w 0 3 = g from field_at hw hp 0 rfl]

theorem mulh (d a b sz sgn g : Nat) : Statement (.mulh d a b sz sgn g) := by
  intro w hwf he
  have hr : ([.dest d, .source a, .source b, .field sz 2, .field sgn 1, .field g 3] : List Operand).all Operand.fits = true := fits_of_wellFormed hwf
  simp only [List.all_cons, List.all_nil, Operand.fits, Bool.and_eq_true, decide_eq_true_eq, and_true] at hr
  have hp : ∀ seg ∈ ([(g, 3), (1, 4), (sgn, 1), (sz, 2), (b, 5), (a, 5), (d, 5), (24, 7)] : List (Nat × Nat)), seg.1 < 2 ^ seg.2 := by simp; omega
  have hw : w = packed [(g, 3), (1, 4), (sgn, 1), (sz, 2), (b, 5), (a, 5), (d, 5), (24, 7)] := by
    have e : place 0x30000008 [(d, 20), (a, 15), (b, 10), (sz, 8), (sgn, 7), (g, 0)] = w := Option.some.inj he
    simp only [place, packed] at e ⊢; omega
  refine ⟨lt_of hw hp rfl, ?_⟩
  show byOpcode (field w 25 7) w = _
  rw [show field w 25 7 = 24 from field_at hw hp 7 rfl]
  show opcode18 (field w 3 4) w = _
  rw [show field w 3 4 = 1 from field_at hw hp 1 rfl]
  show Except.ok (Instr.mulh (field w 20 5) (field w 15 5) (field w 10 5) (field w 8 2) (field w 7 1) (field w 0 3)) = _
  rw [show field w 20 5 = d from field_at hw hp 6 rfl, show field w 15 5 = a from field_at hw hp 5 rfl, show field w 10 5 = b from field_at hw hp 4 rfl, show field w 8 2 = sz from field_at hw hp 3 rfl, show field w 7 1 = sgn from field_at hw hp 2 rfl, show field w 0 3 = g from field_at hw hp 0 rfl]

theorem div (d a b sz sgn g : Nat) : Statement (.div d a b sz sgn g) := by
  intro w hwf he
  have hr : ([.dest d, .source a, .source b, .field sz 2, .field sgn 1, .field g 3] : List Operand).all Operand.fits = true := fits_of_wellFormed hwf
  simp only [List.all_cons, List.all_nil, Operand.fits, Bool.and_eq_true, decide_eq_true_eq, and_true] at hr
  have hp : ∀ seg ∈ ([(g, 3), (0, 4), (sgn, 1), (sz, 2), (b, 5), (a, 5), (d, 5), (25, 7)] : List (Nat × Nat)), seg.1 < 2 ^ seg.2 := by simp; omega
  have hw : w = packed [(g, 3), (0, 4), (sgn, 1), (sz, 2), (b, 5), (a, 5), (d, 5), (25, 7)] := by
    have e : place 0x32000000 [(d, 20), (a, 15), (b, 10), (sz, 8), (sgn, 7), (g, 0)] = w := Option.some.inj he
    simp only [place, packed] at e ⊢; omega
  refine ⟨lt_of hw hp rfl, ?_⟩
  show byOpcode (field w 25 7) w = _
  rw [show field w 25 7 = 25 from field_at hw hp 7 rfl]
  show opcode19 (field w 3 4) w = _
  rw [show field w 3 4 = 0 from field_at hw hp 1 rfl]
  show Except.ok (Instr.div (field w 20 5) (field w 15 5) (field w 10 5) (field w 8 2) (field w 7 1) (field w 0 3)) = _
  rw [show field w 20 5 = d from field_at hw hp 6 rfl, show field w 15 5 = a from field_at hw hp 5 rfl, show field w 10 5 = b from field_at hw hp 4 rfl, show field w 8 2 = sz from field_at hw hp 3 rfl, show field w 7 1 = sgn from field_at hw hp 2 rfl, show field w 0 3 = g from field_at hw hp 0 rfl]

theorem rem (d a b sz sgn g : Nat) : Statement (.rem d a b sz sgn g) := by
  intro w hwf he
  have hr : ([.dest d, .source a, .source b, .field sz 2, .field sgn 1, .field g 3] : List Operand).all Operand.fits = true := fits_of_wellFormed hwf
  simp only [List.all_cons, List.all_nil, Operand.fits, Bool.and_eq_true, decide_eq_true_eq, and_true] at hr
  have hp : ∀ seg ∈ ([(g, 3), (1, 4), (sgn, 1), (sz, 2), (b, 5), (a, 5), (d, 5), (25, 7)] : List (Nat × Nat)), seg.1 < 2 ^ seg.2 := by simp; omega
  have hw : w = packed [(g, 3), (1, 4), (sgn, 1), (sz, 2), (b, 5), (a, 5), (d, 5), (25, 7)] := by
    have e : place 0x32000008 [(d, 20), (a, 15), (b, 10), (sz, 8), (sgn, 7), (g, 0)] = w := Option.some.inj he
    simp only [place, packed] at e ⊢; omega
  refine ⟨lt_of hw hp rfl, ?_⟩
  show byOpcode (field w 25 7) w = _
  rw [show field w 25 7 = 25 from field_at hw hp 7 rfl]
  show opcode19 (field w 3 4) w = _
  rw [show field w 3 4 = 1 from field_at hw hp 1 rfl]
  show Except.ok (Instr.rem (field w 20 5) (field w 15 5) (field w 10 5) (field w 8 2) (field w 7 1) (field w 0 3)) = _
  rw [show field w 20 5 = d from field_at hw hp 6 rfl, show field w 15 5 = a from field_at hw hp 5 rfl, show field w 10 5 = b from field_at hw hp 4 rfl, show field w 8 2 = sz from field_at hw hp 3 rfl, show field w 7 1 = sgn from field_at hw hp 2 rfl, show field w 0 3 = g from field_at hw hp 0 rfl]

theorem cmpEq (p a b sz sgn g : Nat) : Statement (.cmpEq p a b sz sgn g) := by
  intro w hwf he
  have hr : ([.pred p, .source a, .source b, .field sz 2, .field sgn 1, .field g 3] : List Operand).all Operand.fits = true := fits_of_wellFormed hwf
  simp only [List.all_cons, List.all_nil, Operand.fits, Bool.and_eq_true, decide_eq_true_eq, and_true] at hr
  have hp : ∀ seg ∈ ([(g, 3), (0, 4), (sgn, 1), (sz, 2), (b, 5), (a, 5), (p, 5), (26, 7)] : List (Nat × Nat)), seg.1 < 2 ^ seg.2 := by simp; omega
  have hw : w = packed [(g, 3), (0, 4), (sgn, 1), (sz, 2), (b, 5), (a, 5), (p, 5), (26, 7)] := by
    have e : place 0x34000000 [(p, 20), (a, 15), (b, 10), (sz, 8), (sgn, 7), (g, 0)] = w := Option.some.inj he
    simp only [place, packed] at e ⊢; omega
  refine ⟨lt_of hw hp rfl, ?_⟩
  show byOpcode (field w 25 7) w = _
  rw [show field w 25 7 = 26 from field_at hw hp 7 rfl]
  show opcode1a (field w 3 4) w = _
  rw [show field w 3 4 = 0 from field_at hw hp 1 rfl]
  show Except.ok (Instr.cmpEq (field w 20 5) (field w 15 5) (field w 10 5) (field w 8 2) (field w 7 1) (field w 0 3)) = _
  rw [show field w 20 5 = p from field_at hw hp 6 rfl, show field w 15 5 = a from field_at hw hp 5 rfl, show field w 10 5 = b from field_at hw hp 4 rfl, show field w 8 2 = sz from field_at hw hp 3 rfl, show field w 7 1 = sgn from field_at hw hp 2 rfl, show field w 0 3 = g from field_at hw hp 0 rfl]

theorem cmpNe (p a b sz sgn g : Nat) : Statement (.cmpNe p a b sz sgn g) := by
  intro w hwf he
  have hr : ([.pred p, .source a, .source b, .field sz 2, .field sgn 1, .field g 3] : List Operand).all Operand.fits = true := fits_of_wellFormed hwf
  simp only [List.all_cons, List.all_nil, Operand.fits, Bool.and_eq_true, decide_eq_true_eq, and_true] at hr
  have hp : ∀ seg ∈ ([(g, 3), (1, 4), (sgn, 1), (sz, 2), (b, 5), (a, 5), (p, 5), (26, 7)] : List (Nat × Nat)), seg.1 < 2 ^ seg.2 := by simp; omega
  have hw : w = packed [(g, 3), (1, 4), (sgn, 1), (sz, 2), (b, 5), (a, 5), (p, 5), (26, 7)] := by
    have e : place 0x34000008 [(p, 20), (a, 15), (b, 10), (sz, 8), (sgn, 7), (g, 0)] = w := Option.some.inj he
    simp only [place, packed] at e ⊢; omega
  refine ⟨lt_of hw hp rfl, ?_⟩
  show byOpcode (field w 25 7) w = _
  rw [show field w 25 7 = 26 from field_at hw hp 7 rfl]
  show opcode1a (field w 3 4) w = _
  rw [show field w 3 4 = 1 from field_at hw hp 1 rfl]
  show Except.ok (Instr.cmpNe (field w 20 5) (field w 15 5) (field w 10 5) (field w 8 2) (field w 7 1) (field w 0 3)) = _
  rw [show field w 20 5 = p from field_at hw hp 6 rfl, show field w 15 5 = a from field_at hw hp 5 rfl, show field w 10 5 = b from field_at hw hp 4 rfl, show field w 8 2 = sz from field_at hw hp 3 rfl, show field w 7 1 = sgn from field_at hw hp 2 rfl, show field w 0 3 = g from field_at hw hp 0 rfl]

theorem cmpLt (p a b sz sgn g : Nat) : Statement (.cmpLt p a b sz sgn g) := by
  intro w hwf he
  have hr : ([.pred p, .source a, .source b, .field sz 2, .field sgn 1, .field g 3] : List Operand).all Operand.fits = true := fits_of_wellFormed hwf
  simp only [List.all_cons, List.all_nil, Operand.fits, Bool.and_eq_true, decide_eq_true_eq, and_true] at hr
  have hp : ∀ seg ∈ ([(g, 3), (2, 4), (sgn, 1), (sz, 2), (b, 5), (a, 5), (p, 5), (26, 7)] : List (Nat × Nat)), seg.1 < 2 ^ seg.2 := by simp; omega
  have hw : w = packed [(g, 3), (2, 4), (sgn, 1), (sz, 2), (b, 5), (a, 5), (p, 5), (26, 7)] := by
    have e : place 0x34000010 [(p, 20), (a, 15), (b, 10), (sz, 8), (sgn, 7), (g, 0)] = w := Option.some.inj he
    simp only [place, packed] at e ⊢; omega
  refine ⟨lt_of hw hp rfl, ?_⟩
  show byOpcode (field w 25 7) w = _
  rw [show field w 25 7 = 26 from field_at hw hp 7 rfl]
  show opcode1a (field w 3 4) w = _
  rw [show field w 3 4 = 2 from field_at hw hp 1 rfl]
  show Except.ok (Instr.cmpLt (field w 20 5) (field w 15 5) (field w 10 5) (field w 8 2) (field w 7 1) (field w 0 3)) = _
  rw [show field w 20 5 = p from field_at hw hp 6 rfl, show field w 15 5 = a from field_at hw hp 5 rfl, show field w 10 5 = b from field_at hw hp 4 rfl, show field w 8 2 = sz from field_at hw hp 3 rfl, show field w 7 1 = sgn from field_at hw hp 2 rfl, show field w 0 3 = g from field_at hw hp 0 rfl]

theorem cmpLe (p a b sz sgn g : Nat) : Statement (.cmpLe p a b sz sgn g) := by
  intro w hwf he
  have hr : ([.pred p, .source a, .source b, .field sz 2, .field sgn 1, .field g 3] : List Operand).all Operand.fits = true := fits_of_wellFormed hwf
  simp only [List.all_cons, List.all_nil, Operand.fits, Bool.and_eq_true, decide_eq_true_eq, and_true] at hr
  have hp : ∀ seg ∈ ([(g, 3), (3, 4), (sgn, 1), (sz, 2), (b, 5), (a, 5), (p, 5), (26, 7)] : List (Nat × Nat)), seg.1 < 2 ^ seg.2 := by simp; omega
  have hw : w = packed [(g, 3), (3, 4), (sgn, 1), (sz, 2), (b, 5), (a, 5), (p, 5), (26, 7)] := by
    have e : place 0x34000018 [(p, 20), (a, 15), (b, 10), (sz, 8), (sgn, 7), (g, 0)] = w := Option.some.inj he
    simp only [place, packed] at e ⊢; omega
  refine ⟨lt_of hw hp rfl, ?_⟩
  show byOpcode (field w 25 7) w = _
  rw [show field w 25 7 = 26 from field_at hw hp 7 rfl]
  show opcode1a (field w 3 4) w = _
  rw [show field w 3 4 = 3 from field_at hw hp 1 rfl]
  show Except.ok (Instr.cmpLe (field w 20 5) (field w 15 5) (field w 10 5) (field w 8 2) (field w 7 1) (field w 0 3)) = _
  rw [show field w 20 5 = p from field_at hw hp 6 rfl, show field w 15 5 = a from field_at hw hp 5 rfl, show field w 10 5 = b from field_at hw hp 4 rfl, show field w 8 2 = sz from field_at hw hp 3 rfl, show field w 7 1 = sgn from field_at hw hp 2 rfl, show field w 0 3 = g from field_at hw hp 0 rfl]

theorem cmpGt (p a b sz sgn g : Nat) : Statement (.cmpGt p a b sz sgn g) := by
  intro w hwf he
  have hr : ([.pred p, .source a, .source b, .field sz 2, .field sgn 1, .field g 3] : List Operand).all Operand.fits = true := fits_of_wellFormed hwf
  simp only [List.all_cons, List.all_nil, Operand.fits, Bool.and_eq_true, decide_eq_true_eq, and_true] at hr
  have hp : ∀ seg ∈ ([(g, 3), (4, 4), (sgn, 1), (sz, 2), (b, 5), (a, 5), (p, 5), (26, 7)] : List (Nat × Nat)), seg.1 < 2 ^ seg.2 := by simp; omega
  have hw : w = packed [(g, 3), (4, 4), (sgn, 1), (sz, 2), (b, 5), (a, 5), (p, 5), (26, 7)] := by
    have e : place 0x34000020 [(p, 20), (a, 15), (b, 10), (sz, 8), (sgn, 7), (g, 0)] = w := Option.some.inj he
    simp only [place, packed] at e ⊢; omega
  refine ⟨lt_of hw hp rfl, ?_⟩
  show byOpcode (field w 25 7) w = _
  rw [show field w 25 7 = 26 from field_at hw hp 7 rfl]
  show opcode1a (field w 3 4) w = _
  rw [show field w 3 4 = 4 from field_at hw hp 1 rfl]
  show Except.ok (Instr.cmpGt (field w 20 5) (field w 15 5) (field w 10 5) (field w 8 2) (field w 7 1) (field w 0 3)) = _
  rw [show field w 20 5 = p from field_at hw hp 6 rfl, show field w 15 5 = a from field_at hw hp 5 rfl, show field w 10 5 = b from field_at hw hp 4 rfl, show field w 8 2 = sz from field_at hw hp 3 rfl, show field w 7 1 = sgn from field_at hw hp 2 rfl, show field w 0 3 = g from field_at hw hp 0 rfl]

theorem cmpGe (p a b sz sgn g : Nat) : Statement (.cmpGe p a b sz sgn g) := by
  intro w hwf he
  have hr : ([.pred p, .source a, .source b, .field sz 2, .field sgn 1, .field g 3] : List Operand).all Operand.fits = true := fits_of_wellFormed hwf
  simp only [List.all_cons, List.all_nil, Operand.fits, Bool.and_eq_true, decide_eq_true_eq, and_true] at hr
  have hp : ∀ seg ∈ ([(g, 3), (5, 4), (sgn, 1), (sz, 2), (b, 5), (a, 5), (p, 5), (26, 7)] : List (Nat × Nat)), seg.1 < 2 ^ seg.2 := by simp; omega
  have hw : w = packed [(g, 3), (5, 4), (sgn, 1), (sz, 2), (b, 5), (a, 5), (p, 5), (26, 7)] := by
    have e : place 0x34000028 [(p, 20), (a, 15), (b, 10), (sz, 8), (sgn, 7), (g, 0)] = w := Option.some.inj he
    simp only [place, packed] at e ⊢; omega
  refine ⟨lt_of hw hp rfl, ?_⟩
  show byOpcode (field w 25 7) w = _
  rw [show field w 25 7 = 26 from field_at hw hp 7 rfl]
  show opcode1a (field w 3 4) w = _
  rw [show field w 3 4 = 5 from field_at hw hp 1 rfl]
  show Except.ok (Instr.cmpGe (field w 20 5) (field w 15 5) (field w 10 5) (field w 8 2) (field w 7 1) (field w 0 3)) = _
  rw [show field w 20 5 = p from field_at hw hp 6 rfl, show field w 15 5 = a from field_at hw hp 5 rfl, show field w 10 5 = b from field_at hw hp 4 rfl, show field w 8 2 = sz from field_at hw hp 3 rfl, show field w 7 1 = sgn from field_at hw hp 2 rfl, show field w 0 3 = g from field_at hw hp 0 rfl]

theorem cmpiEq (p a imm g : Nat) : Statement (.cmpiEq p a imm g) := by
  intro w hwf he
  have hr : ([.pred p, .source a, .field imm 9, .field g 3] : List Operand).all Operand.fits = true := fits_of_wellFormed hwf
  simp only [List.all_cons, List.all_nil, Operand.fits, Bool.and_eq_true, decide_eq_true_eq, and_true] at hr
  have hp : ∀ seg ∈ ([(g, 3), (imm, 9), (0, 3), (a, 5), (p, 5), (27, 7)] : List (Nat × Nat)), seg.1 < 2 ^ seg.2 := by simp; omega
  have hw : w = packed [(g, 3), (imm, 9), (0, 3), (a, 5), (p, 5), (27, 7)] := by
    have e : place 0x36000000 [(p, 20), (a, 15), (imm, 3), (g, 0)] = w := Option.some.inj he
    simp only [place, packed] at e ⊢; omega
  refine ⟨lt_of hw hp rfl, ?_⟩
  show byOpcode (field w 25 7) w = _
  rw [show field w 25 7 = 27 from field_at hw hp 5 rfl]
  show opcode1b (field w 12 3) w = _
  rw [show field w 12 3 = 0 from field_at hw hp 2 rfl]
  show Except.ok (Instr.cmpiEq (field w 20 5) (field w 15 5) (field w 3 9) (field w 0 3)) = _
  rw [show field w 20 5 = p from field_at hw hp 4 rfl, show field w 15 5 = a from field_at hw hp 3 rfl, show field w 3 9 = imm from field_at hw hp 1 rfl, show field w 0 3 = g from field_at hw hp 0 rfl]

theorem cmpiNe (p a imm g : Nat) : Statement (.cmpiNe p a imm g) := by
  intro w hwf he
  have hr : ([.pred p, .source a, .field imm 9, .field g 3] : List Operand).all Operand.fits = true := fits_of_wellFormed hwf
  simp only [List.all_cons, List.all_nil, Operand.fits, Bool.and_eq_true, decide_eq_true_eq, and_true] at hr
  have hp : ∀ seg ∈ ([(g, 3), (imm, 9), (1, 3), (a, 5), (p, 5), (27, 7)] : List (Nat × Nat)), seg.1 < 2 ^ seg.2 := by simp; omega
  have hw : w = packed [(g, 3), (imm, 9), (1, 3), (a, 5), (p, 5), (27, 7)] := by
    have e : place 0x36001000 [(p, 20), (a, 15), (imm, 3), (g, 0)] = w := Option.some.inj he
    simp only [place, packed] at e ⊢; omega
  refine ⟨lt_of hw hp rfl, ?_⟩
  show byOpcode (field w 25 7) w = _
  rw [show field w 25 7 = 27 from field_at hw hp 5 rfl]
  show opcode1b (field w 12 3) w = _
  rw [show field w 12 3 = 1 from field_at hw hp 2 rfl]
  show Except.ok (Instr.cmpiNe (field w 20 5) (field w 15 5) (field w 3 9) (field w 0 3)) = _
  rw [show field w 20 5 = p from field_at hw hp 4 rfl, show field w 15 5 = a from field_at hw hp 3 rfl, show field w 3 9 = imm from field_at hw hp 1 rfl, show field w 0 3 = g from field_at hw hp 0 rfl]

theorem cmpiLtS64 (p a imm g : Nat) : Statement (.cmpiLtS64 p a imm g) := by
  intro w hwf he
  have hr : ([.pred p, .source a, .field imm 9, .field g 3] : List Operand).all Operand.fits = true := fits_of_wellFormed hwf
  simp only [List.all_cons, List.all_nil, Operand.fits, Bool.and_eq_true, decide_eq_true_eq, and_true] at hr
  have hp : ∀ seg ∈ ([(g, 3), (imm, 9), (2, 3), (a, 5), (p, 5), (27, 7)] : List (Nat × Nat)), seg.1 < 2 ^ seg.2 := by simp; omega
  have hw : w = packed [(g, 3), (imm, 9), (2, 3), (a, 5), (p, 5), (27, 7)] := by
    have e : place 0x36002000 [(p, 20), (a, 15), (imm, 3), (g, 0)] = w := Option.some.inj he
    simp only [place, packed] at e ⊢; omega
  refine ⟨lt_of hw hp rfl, ?_⟩
  show byOpcode (field w 25 7) w = _
  rw [show field w 25 7 = 27 from field_at hw hp 5 rfl]
  show opcode1b (field w 12 3) w = _
  rw [show field w 12 3 = 2 from field_at hw hp 2 rfl]
  show Except.ok (Instr.cmpiLtS64 (field w 20 5) (field w 15 5) (field w 3 9) (field w 0 3)) = _
  rw [show field w 20 5 = p from field_at hw hp 4 rfl, show field w 15 5 = a from field_at hw hp 3 rfl, show field w 3 9 = imm from field_at hw hp 1 rfl, show field w 0 3 = g from field_at hw hp 0 rfl]

theorem cmpiLeS64 (p a imm g : Nat) : Statement (.cmpiLeS64 p a imm g) := by
  intro w hwf he
  have hr : ([.pred p, .source a, .field imm 9, .field g 3] : List Operand).all Operand.fits = true := fits_of_wellFormed hwf
  simp only [List.all_cons, List.all_nil, Operand.fits, Bool.and_eq_true, decide_eq_true_eq, and_true] at hr
  have hp : ∀ seg ∈ ([(g, 3), (imm, 9), (3, 3), (a, 5), (p, 5), (27, 7)] : List (Nat × Nat)), seg.1 < 2 ^ seg.2 := by simp; omega
  have hw : w = packed [(g, 3), (imm, 9), (3, 3), (a, 5), (p, 5), (27, 7)] := by
    have e : place 0x36003000 [(p, 20), (a, 15), (imm, 3), (g, 0)] = w := Option.some.inj he
    simp only [place, packed] at e ⊢; omega
  refine ⟨lt_of hw hp rfl, ?_⟩
  show byOpcode (field w 25 7) w = _
  rw [show field w 25 7 = 27 from field_at hw hp 5 rfl]
  show opcode1b (field w 12 3) w = _
  rw [show field w 12 3 = 3 from field_at hw hp 2 rfl]
  show Except.ok (Instr.cmpiLeS64 (field w 20 5) (field w 15 5) (field w 3 9) (field w 0 3)) = _
  rw [show field w 20 5 = p from field_at hw hp 4 rfl, show field w 15 5 = a from field_at hw hp 3 rfl, show field w 3 9 = imm from field_at hw hp 1 rfl, show field w 0 3 = g from field_at hw hp 0 rfl]

theorem cmpiGtS64 (p a imm g : Nat) : Statement (.cmpiGtS64 p a imm g) := by
  intro w hwf he
  have hr : ([.pred p, .source a, .field imm 9, .field g 3] : List Operand).all Operand.fits = true := fits_of_wellFormed hwf
  simp only [List.all_cons, List.all_nil, Operand.fits, Bool.and_eq_true, decide_eq_true_eq, and_true] at hr
  have hp : ∀ seg ∈ ([(g, 3), (imm, 9), (4, 3), (a, 5), (p, 5), (27, 7)] : List (Nat × Nat)), seg.1 < 2 ^ seg.2 := by simp; omega
  have hw : w = packed [(g, 3), (imm, 9), (4, 3), (a, 5), (p, 5), (27, 7)] := by
    have e : place 0x36004000 [(p, 20), (a, 15), (imm, 3), (g, 0)] = w := Option.some.inj he
    simp only [place, packed] at e ⊢; omega
  refine ⟨lt_of hw hp rfl, ?_⟩
  show byOpcode (field w 25 7) w = _
  rw [show field w 25 7 = 27 from field_at hw hp 5 rfl]
  show opcode1b (field w 12 3) w = _
  rw [show field w 12 3 = 4 from field_at hw hp 2 rfl]
  show Except.ok (Instr.cmpiGtS64 (field w 20 5) (field w 15 5) (field w 3 9) (field w 0 3)) = _
  rw [show field w 20 5 = p from field_at hw hp 4 rfl, show field w 15 5 = a from field_at hw hp 3 rfl, show field w 3 9 = imm from field_at hw hp 1 rfl, show field w 0 3 = g from field_at hw hp 0 rfl]

theorem cmpiGeS64 (p a imm g : Nat) : Statement (.cmpiGeS64 p a imm g) := by
  intro w hwf he
  have hr : ([.pred p, .source a, .field imm 9, .field g 3] : List Operand).all Operand.fits = true := fits_of_wellFormed hwf
  simp only [List.all_cons, List.all_nil, Operand.fits, Bool.and_eq_true, decide_eq_true_eq, and_true] at hr
  have hp : ∀ seg ∈ ([(g, 3), (imm, 9), (5, 3), (a, 5), (p, 5), (27, 7)] : List (Nat × Nat)), seg.1 < 2 ^ seg.2 := by simp; omega
  have hw : w = packed [(g, 3), (imm, 9), (5, 3), (a, 5), (p, 5), (27, 7)] := by
    have e : place 0x36005000 [(p, 20), (a, 15), (imm, 3), (g, 0)] = w := Option.some.inj he
    simp only [place, packed] at e ⊢; omega
  refine ⟨lt_of hw hp rfl, ?_⟩
  show byOpcode (field w 25 7) w = _
  rw [show field w 25 7 = 27 from field_at hw hp 5 rfl]
  show opcode1b (field w 12 3) w = _
  rw [show field w 12 3 = 5 from field_at hw hp 2 rfl]
  show Except.ok (Instr.cmpiGeS64 (field w 20 5) (field w 15 5) (field w 3 9) (field w 0 3)) = _
  rw [show field w 20 5 = p from field_at hw hp 4 rfl, show field w 15 5 = a from field_at hw hp 3 rfl, show field w 3 9 = imm from field_at hw hp 1 rfl, show field w 0 3 = g from field_at hw hp 0 rfl]

theorem cmpiLtZ64 (p a imm g : Nat) : Statement (.cmpiLtZ64 p a imm g) := by
  intro w hwf he
  have hr : ([.pred p, .source a, .field imm 9, .field g 3] : List Operand).all Operand.fits = true := fits_of_wellFormed hwf
  simp only [List.all_cons, List.all_nil, Operand.fits, Bool.and_eq_true, decide_eq_true_eq, and_true] at hr
  have hp : ∀ seg ∈ ([(g, 3), (imm, 9), (6, 3), (a, 5), (p, 5), (27, 7)] : List (Nat × Nat)), seg.1 < 2 ^ seg.2 := by simp; omega
  have hw : w = packed [(g, 3), (imm, 9), (6, 3), (a, 5), (p, 5), (27, 7)] := by
    have e : place 0x36006000 [(p, 20), (a, 15), (imm, 3), (g, 0)] = w := Option.some.inj he
    simp only [place, packed] at e ⊢; omega
  refine ⟨lt_of hw hp rfl, ?_⟩
  show byOpcode (field w 25 7) w = _
  rw [show field w 25 7 = 27 from field_at hw hp 5 rfl]
  show opcode1b (field w 12 3) w = _
  rw [show field w 12 3 = 6 from field_at hw hp 2 rfl]
  show Except.ok (Instr.cmpiLtZ64 (field w 20 5) (field w 15 5) (field w 3 9) (field w 0 3)) = _
  rw [show field w 20 5 = p from field_at hw hp 4 rfl, show field w 15 5 = a from field_at hw hp 3 rfl, show field w 3 9 = imm from field_at hw hp 1 rfl, show field w 0 3 = g from field_at hw hp 0 rfl]

theorem cmpiGeZ64 (p a imm g : Nat) : Statement (.cmpiGeZ64 p a imm g) := by
  intro w hwf he
  have hr : ([.pred p, .source a, .field imm 9, .field g 3] : List Operand).all Operand.fits = true := fits_of_wellFormed hwf
  simp only [List.all_cons, List.all_nil, Operand.fits, Bool.and_eq_true, decide_eq_true_eq, and_true] at hr
  have hp : ∀ seg ∈ ([(g, 3), (imm, 9), (7, 3), (a, 5), (p, 5), (27, 7)] : List (Nat × Nat)), seg.1 < 2 ^ seg.2 := by simp; omega
  have hw : w = packed [(g, 3), (imm, 9), (7, 3), (a, 5), (p, 5), (27, 7)] := by
    have e : place 0x36007000 [(p, 20), (a, 15), (imm, 3), (g, 0)] = w := Option.some.inj he
    simp only [place, packed] at e ⊢; omega
  refine ⟨lt_of hw hp rfl, ?_⟩
  show byOpcode (field w 25 7) w = _
  rw [show field w 25 7 = 27 from field_at hw hp 5 rfl]
  show opcode1b (field w 12 3) w = _
  rw [show field w 12 3 = 7 from field_at hw hp 2 rfl]
  show Except.ok (Instr.cmpiGeZ64 (field w 20 5) (field w 15 5) (field w 3 9) (field w 0 3)) = _
  rw [show field w 20 5 = p from field_at hw hp 4 rfl, show field w 15 5 = a from field_at hw hp 3 rfl, show field w 3 9 = imm from field_at hw hp 1 rfl, show field w 0 3 = g from field_at hw hp 0 rfl]

theorem clz (d a sz sgn g : Nat) : Statement (.clz d a sz sgn g) := by
  intro w hwf he
  have hr : ([.dest d, .source a, .field sz 2, .field sgn 1, .field g 3] : List Operand).all Operand.fits = true := fits_of_wellFormed hwf
  simp only [List.all_cons, List.all_nil, Operand.fits, Bool.and_eq_true, decide_eq_true_eq, and_true] at hr
  have hp : ∀ seg ∈ ([(g, 3), (0, 4), (sgn, 1), (sz, 2), (0, 5), (a, 5), (d, 5), (28, 7)] : List (Nat × Nat)), seg.1 < 2 ^ seg.2 := by simp; omega
  have hw : w = packed [(g, 3), (0, 4), (sgn, 1), (sz, 2), (0, 5), (a, 5), (d, 5), (28, 7)] := by
    have e : place 0x38000000 [(d, 20), (a, 15), (sz, 8), (sgn, 7), (g, 0)] = w := Option.some.inj he
    simp only [place, packed] at e ⊢; omega
  refine ⟨lt_of hw hp rfl, ?_⟩
  show byOpcode (field w 25 7) w = _
  rw [show field w 25 7 = 28 from field_at hw hp 7 rfl]
  show opcode1c (field w 3 4) w = _
  rw [show field w 3 4 = 0 from field_at hw hp 1 rfl]
  show Except.ok (Instr.clz (field w 20 5) (field w 15 5) (field w 8 2) (field w 7 1) (field w 0 3)) = _
  rw [show field w 20 5 = d from field_at hw hp 6 rfl, show field w 15 5 = a from field_at hw hp 5 rfl, show field w 8 2 = sz from field_at hw hp 3 rfl, show field w 7 1 = sgn from field_at hw hp 2 rfl, show field w 0 3 = g from field_at hw hp 0 rfl]

theorem ctz (d a sz sgn g : Nat) : Statement (.ctz d a sz sgn g) := by
  intro w hwf he
  have hr : ([.dest d, .source a, .field sz 2, .field sgn 1, .field g 3] : List Operand).all Operand.fits = true := fits_of_wellFormed hwf
  simp only [List.all_cons, List.all_nil, Operand.fits, Bool.and_eq_true, decide_eq_true_eq, and_true] at hr
  have hp : ∀ seg ∈ ([(g, 3), (1, 4), (sgn, 1), (sz, 2), (0, 5), (a, 5), (d, 5), (28, 7)] : List (Nat × Nat)), seg.1 < 2 ^ seg.2 := by simp; omega
  have hw : w = packed [(g, 3), (1, 4), (sgn, 1), (sz, 2), (0, 5), (a, 5), (d, 5), (28, 7)] := by
    have e : place 0x38000008 [(d, 20), (a, 15), (sz, 8), (sgn, 7), (g, 0)] = w := Option.some.inj he
    simp only [place, packed] at e ⊢; omega
  refine ⟨lt_of hw hp rfl, ?_⟩
  show byOpcode (field w 25 7) w = _
  rw [show field w 25 7 = 28 from field_at hw hp 7 rfl]
  show opcode1c (field w 3 4) w = _
  rw [show field w 3 4 = 1 from field_at hw hp 1 rfl]
  show Except.ok (Instr.ctz (field w 20 5) (field w 15 5) (field w 8 2) (field w 7 1) (field w 0 3)) = _
  rw [show field w 20 5 = d from field_at hw hp 6 rfl, show field w 15 5 = a from field_at hw hp 5 rfl, show field w 8 2 = sz from field_at hw hp 3 rfl, show field w 7 1 = sgn from field_at hw hp 2 rfl, show field w 0 3 = g from field_at hw hp 0 rfl]

theorem popc (d a sz sgn g : Nat) : Statement (.popc d a sz sgn g) := by
  intro w hwf he
  have hr : ([.dest d, .source a, .field sz 2, .field sgn 1, .field g 3] : List Operand).all Operand.fits = true := fits_of_wellFormed hwf
  simp only [List.all_cons, List.all_nil, Operand.fits, Bool.and_eq_true, decide_eq_true_eq, and_true] at hr
  have hp : ∀ seg ∈ ([(g, 3), (2, 4), (sgn, 1), (sz, 2), (0, 5), (a, 5), (d, 5), (28, 7)] : List (Nat × Nat)), seg.1 < 2 ^ seg.2 := by simp; omega
  have hw : w = packed [(g, 3), (2, 4), (sgn, 1), (sz, 2), (0, 5), (a, 5), (d, 5), (28, 7)] := by
    have e : place 0x38000010 [(d, 20), (a, 15), (sz, 8), (sgn, 7), (g, 0)] = w := Option.some.inj he
    simp only [place, packed] at e ⊢; omega
  refine ⟨lt_of hw hp rfl, ?_⟩
  show byOpcode (field w 25 7) w = _
  rw [show field w 25 7 = 28 from field_at hw hp 7 rfl]
  show opcode1c (field w 3 4) w = _
  rw [show field w 3 4 = 2 from field_at hw hp 1 rfl]
  show Except.ok (Instr.popc (field w 20 5) (field w 15 5) (field w 8 2) (field w 7 1) (field w 0 3)) = _
  rw [show field w 20 5 = d from field_at hw hp 6 rfl, show field w 15 5 = a from field_at hw hp 5 rfl, show field w 8 2 = sz from field_at hw hp 3 rfl, show field w 7 1 = sgn from field_at hw hp 2 rfl, show field w 0 3 = g from field_at hw hp 0 rfl]

theorem brev (d a sz sgn g : Nat) : Statement (.brev d a sz sgn g) := by
  intro w hwf he
  have hr : ([.dest d, .source a, .field sz 2, .field sgn 1, .field g 3] : List Operand).all Operand.fits = true := fits_of_wellFormed hwf
  simp only [List.all_cons, List.all_nil, Operand.fits, Bool.and_eq_true, decide_eq_true_eq, and_true] at hr
  have hp : ∀ seg ∈ ([(g, 3), (3, 4), (sgn, 1), (sz, 2), (0, 5), (a, 5), (d, 5), (28, 7)] : List (Nat × Nat)), seg.1 < 2 ^ seg.2 := by simp; omega
  have hw : w = packed [(g, 3), (3, 4), (sgn, 1), (sz, 2), (0, 5), (a, 5), (d, 5), (28, 7)] := by
    have e : place 0x38000018 [(d, 20), (a, 15), (sz, 8), (sgn, 7), (g, 0)] = w := Option.some.inj he
    simp only [place, packed] at e ⊢; omega
  refine ⟨lt_of hw hp rfl, ?_⟩
  show byOpcode (field w 25 7) w = _
  rw [show field w 25 7 = 28 from field_at hw hp 7 rfl]
  show opcode1c (field w 3 4) w = _
  rw [show field w 3 4 = 3 from field_at hw hp 1 rfl]
  show Except.ok (Instr.brev (field w 20 5) (field w 15 5) (field w 8 2) (field w 7 1) (field w 0 3)) = _
  rw [show field w 20 5 = d from field_at hw hp 6 rfl, show field w 15 5 = a from field_at hw hp 5 rfl, show field w 8 2 = sz from field_at hw hp 3 rfl, show field w 7 1 = sgn from field_at hw hp 2 rfl, show field w 0 3 = g from field_at hw hp 0 rfl]

theorem bswap (d a sz sgn g : Nat) : Statement (.bswap d a sz sgn g) := by
  intro w hwf he
  have hr : ([.dest d, .source a, .field sz 2, .field sgn 1, .field g 3] : List Operand).all Operand.fits = true := fits_of_wellFormed hwf
  simp only [List.all_cons, List.all_nil, Operand.fits, Bool.and_eq_true, decide_eq_true_eq, and_true] at hr
  have hp : ∀ seg ∈ ([(g, 3), (4, 4), (sgn, 1), (sz, 2), (0, 5), (a, 5), (d, 5), (28, 7)] : List (Nat × Nat)), seg.1 < 2 ^ seg.2 := by simp; omega
  have hw : w = packed [(g, 3), (4, 4), (sgn, 1), (sz, 2), (0, 5), (a, 5), (d, 5), (28, 7)] := by
    have e : place 0x38000020 [(d, 20), (a, 15), (sz, 8), (sgn, 7), (g, 0)] = w := Option.some.inj he
    simp only [place, packed] at e ⊢; omega
  refine ⟨lt_of hw hp rfl, ?_⟩
  show byOpcode (field w 25 7) w = _
  rw [show field w 25 7 = 28 from field_at hw hp 7 rfl]
  show opcode1c (field w 3 4) w = _
  rw [show field w 3 4 = 4 from field_at hw hp 1 rfl]
  show Except.ok (Instr.bswap (field w 20 5) (field w 15 5) (field w 8 2) (field w 7 1) (field w 0 3)) = _
  rw [show field w 20 5 = d from field_at hw hp 6 rfl, show field w 15 5 = a from field_at hw hp 5 rfl, show field w 8 2 = sz from field_at hw hp 3 rfl, show field w 7 1 = sgn from field_at hw hp 2 rfl, show field w 0 3 = g from field_at hw hp 0 rfl]

theorem sel (d a b p g : Nat) : Statement (.sel d a b p g) := by
  intro w hwf he
  have hr : ([.dest d, .source a, .source b, .field p 3, .field g 3] : List Operand).all Operand.fits = true := fits_of_wellFormed hwf
  simp only [List.all_cons, List.all_nil, Operand.fits, Bool.and_eq_true, decide_eq_true_eq, and_true] at hr
  have hp : ∀ seg ∈ ([(g, 3), (p, 3), (0, 4), (b, 5), (a, 5), (d, 5), (29, 7)] : List (Nat × Nat)), seg.1 < 2 ^ seg.2 := by simp; omega
  have hw : w = packed [(g, 3), (p, 3), (0, 4), (b, 5), (a, 5), (d, 5), (29, 7)] := by
    have e : place 0x3a000000 [(d, 20), (a, 15), (b, 10), (p, 3), (g, 0)] = w := Option.some.inj he
    simp only [place, packed] at e ⊢; omega
  refine ⟨lt_of hw hp rfl, ?_⟩
  show byOpcode (field w 25 7) w = _
  rw [show field w 25 7 = 29 from field_at hw hp 6 rfl]
  show opcode1d (field w 6 4) w = _
  rw [show field w 6 4 = 0 from field_at hw hp 2 rfl]
  show Except.ok (Instr.sel (field w 20 5) (field w 15 5) (field w 10 5) (field w 3 3) (field w 0 3)) = _
  rw [show field w 20 5 = d from field_at hw hp 5 rfl, show field w 15 5 = a from field_at hw hp 4 rfl, show field w 10 5 = b from field_at hw hp 3 rfl, show field w 3 3 = p from field_at hw hp 1 rfl, show field w 0 3 = g from field_at hw hp 0 rfl]

theorem li (d imm : Nat) : Statement (.li d imm) := by
  intro w hwf he
  have hr : ([.general d, .field imm 20] : List Operand).all Operand.fits = true := fits_of_wellFormed hwf
  simp only [List.all_cons, List.all_nil, Operand.fits, Bool.and_eq_true, decide_eq_true_eq, and_true] at hr
  have hp : ∀ seg ∈ ([(imm, 20), (d, 5), (30, 7)] : List (Nat × Nat)), seg.1 < 2 ^ seg.2 := by simp; omega
  have hw : w = packed [(imm, 20), (d, 5), (30, 7)] := by
    have e : place 0x3c000000 [(d, 20), (imm, 0)] = w := Option.some.inj he
    simp only [place, packed] at e ⊢; omega
  refine ⟨lt_of hw hp rfl, ?_⟩
  show byOpcode (field w 25 7) w = _
  rw [show field w 25 7 = 30 from field_at hw hp 2 rfl]
  show Except.ok (Instr.li (field w 20 5) (field w 0 20)) = _
  rw [show field w 20 5 = d from field_at hw hp 1 rfl, show field w 0 20 = imm from field_at hw hp 0 rfl]

theorem lui (d imm : Nat) : Statement (.lui d imm) := by
  intro w hwf he
  have hr : ([.general d, .field imm 20] : List Operand).all Operand.fits = true := fits_of_wellFormed hwf
  simp only [List.all_cons, List.all_nil, Operand.fits, Bool.and_eq_true, decide_eq_true_eq, and_true] at hr
  have hp : ∀ seg ∈ ([(imm, 20), (d, 5), (31, 7)] : List (Nat × Nat)), seg.1 < 2 ^ seg.2 := by simp; omega
  have hw : w = packed [(imm, 20), (d, 5), (31, 7)] := by
    have e : place 0x3e000000 [(d, 20), (imm, 0)] = w := Option.some.inj he
    simp only [place, packed] at e ⊢; omega
  refine ⟨lt_of hw hp rfl, ?_⟩
  show byOpcode (field w 25 7) w = _
  rw [show field w 25 7 = 31 from field_at hw hp 2 rfl]
  show Except.ok (Instr.lui (field w 20 5) (field w 0 20)) = _
  rw [show field w 20 5 = d from field_at hw hp 1 rfl, show field w 0 20 = imm from field_at hw hp 0 rfl]

theorem adda (d a b g : Nat) : Statement (.adda d a b g) := by
  intro w hwf he
  have hr : ([.dest d, .source a, .source b, .field g 3] : List Operand).all Operand.fits = true := fits_of_wellFormed hwf
  simp only [List.all_cons, List.all_nil, Operand.fits, Bool.and_eq_true, decide_eq_true_eq, and_true] at hr
  have hp : ∀ seg ∈ ([(g, 3), (0, 7), (b, 5), (a, 5), (d, 5), (32, 7)] : List (Nat × Nat)), seg.1 < 2 ^ seg.2 := by simp; omega
  have hw : w = packed [(g, 3), (0, 7), (b, 5), (a, 5), (d, 5), (32, 7)] := by
    have e : place 0x40000000 [(d, 20), (a, 15), (b, 10), (g, 0)] = w := Option.some.inj he
    simp only [place, packed] at e ⊢; omega
  refine ⟨lt_of hw hp rfl, ?_⟩
  show byOpcode (field w 25 7) w = _
  rw [show field w 25 7 = 32 from field_at hw hp 5 rfl]
  show opcode20 (field w 3 7) w = _
  rw [show field w 3 7 = 0 from field_at hw hp 1 rfl]
  show Except.ok (Instr.adda (field w 20 5) (field w 15 5) (field w 10 5) (field w 0 3)) = _
  rw [show field w 20 5 = d from field_at hw hp 4 rfl, show field w 15 5 = a from field_at hw hp 3 rfl, show field w 10 5 = b from field_at hw hp 2 rfl, show field w 0 3 = g from field_at hw hp 0 rfl]

theorem addai (d a imm g : Nat) : Statement (.addai d a imm g) := by
  intro w hwf he
  have hr : ([.dest d, .source a, .field imm 12, .field g 3] : List Operand).all Operand.fits = true := fits_of_wellFormed hwf
  simp only [List.all_cons, List.all_nil, Operand.fits, Bool.and_eq_true, decide_eq_true_eq, and_true] at hr
  have hp : ∀ seg ∈ ([(g, 3), (imm, 12), (a, 5), (d, 5), (33, 7)] : List (Nat × Nat)), seg.1 < 2 ^ seg.2 := by simp; omega
  have hw : w = packed [(g, 3), (imm, 12), (a, 5), (d, 5), (33, 7)] := by
    have e : place 0x42000000 [(d, 20), (a, 15), (imm, 3), (g, 0)] = w := Option.some.inj he
    simp only [place, packed] at e ⊢; omega
  refine ⟨lt_of hw hp rfl, ?_⟩
  show byOpcode (field w 25 7) w = _
  rw [show field w 25 7 = 33 from field_at hw hp 4 rfl]
  show Except.ok (Instr.addai (field w 20 5) (field w 15 5) (field w 3 12) (field w 0 3)) = _
  rw [show field w 20 5 = d from field_at hw hp 3 rfl, show field w 15 5 = a from field_at hw hp 2 rfl, show field w 3 12 = imm from field_at hw hp 1 rfl, show field w 0 3 = g from field_at hw hp 0 rfl]

theorem ptrSet (d a b g : Nat) : Statement (.ptrSet d a b g) := by
  intro w hwf he
  have hr : ([.dest d, .source a, .source b, .field g 3] : List Operand).all Operand.fits = true := fits_of_wellFormed hwf
  simp only [List.all_cons, List.all_nil, Operand.fits, Bool.and_eq_true, decide_eq_true_eq, and_true] at hr
  have hp : ∀ seg ∈ ([(g, 3), (0, 7), (b, 5), (a, 5), (d, 5), (34, 7)] : List (Nat × Nat)), seg.1 < 2 ^ seg.2 := by simp; omega
  have hw : w = packed [(g, 3), (0, 7), (b, 5), (a, 5), (d, 5), (34, 7)] := by
    have e : place 0x44000000 [(d, 20), (a, 15), (b, 10), (g, 0)] = w := Option.some.inj he
    simp only [place, packed] at e ⊢; omega
  refine ⟨lt_of hw hp rfl, ?_⟩
  show byOpcode (field w 25 7) w = _
  rw [show field w 25 7 = 34 from field_at hw hp 5 rfl]
  show opcode22 (field w 3 7) w = _
  rw [show field w 3 7 = 0 from field_at hw hp 1 rfl]
  show Except.ok (Instr.ptrSet (field w 20 5) (field w 15 5) (field w 10 5) (field w 0 3)) = _
  rw [show field w 20 5 = d from field_at hw hp 4 rfl, show field w 15 5 = a from field_at hw hp 3 rfl, show field w 10 5 = b from field_at hw hp 2 rfl, show field w 0 3 = g from field_at hw hp 0 rfl]

theorem ptrGet (d a g : Nat) : Statement (.ptrGet d a g) := by
  intro w hwf he
  have hr : ([.dest d, .source a, .field g 3] : List Operand).all Operand.fits = true := fits_of_wellFormed hwf
  simp only [List.all_cons, List.all_nil, Operand.fits, Bool.and_eq_true, decide_eq_true_eq, and_true] at hr
  have hp : ∀ seg ∈ ([(g, 3), (1, 7), (0, 5), (a, 5), (d, 5), (34, 7)] : List (Nat × Nat)), seg.1 < 2 ^ seg.2 := by simp; omega
  have hw : w = packed [(g, 3), (1, 7), (0, 5), (a, 5), (d, 5), (34, 7)] := by
    have e : place 0x44000008 [(d, 20), (a, 15), (g, 0)] = w := Option.some.inj he
    simp only [place, packed] at e ⊢; omega
  refine ⟨lt_of hw hp rfl, ?_⟩
  show byOpcode (field w 25 7) w = _
  rw [show field w 25 7 = 34 from field_at hw hp 5 rfl]
  show opcode22 (field w 3 7) w = _
  rw [show field w 3 7 = 1 from field_at hw hp 1 rfl]
  show Except.ok (Instr.ptrGet (field w 20 5) (field w 15 5) (field w 0 3)) = _
  rw [show field w 20 5 = d from field_at hw hp 4 rfl, show field w 15 5 = a from field_at hw hp 3 rfl, show field w 0 3 = g from field_at hw hp 0 rfl]

theorem ptrClr (d a g : Nat) : Statement (.ptrClr d a g) := by
  intro w hwf he
  have hr : ([.dest d, .source a, .field g 3] : List Operand).all Operand.fits = true := fits_of_wellFormed hwf
  simp only [List.all_cons, List.all_nil, Operand.fits, Bool.and_eq_true, decide_eq_true_eq, and_true] at hr
  have hp : ∀ seg ∈ ([(g, 3), (2, 7), (0, 5), (a, 5), (d, 5), (34, 7)] : List (Nat × Nat)), seg.1 < 2 ^ seg.2 := by simp; omega
  have hw : w = packed [(g, 3), (2, 7), (0, 5), (a, 5), (d, 5), (34, 7)] := by
    have e : place 0x44000010 [(d, 20), (a, 15), (g, 0)] = w := Option.some.inj he
    simp only [place, packed] at e ⊢; omega
  refine ⟨lt_of hw hp rfl, ?_⟩
  show byOpcode (field w 25 7) w = _
  rw [show field w 25 7 = 34 from field_at hw hp 5 rfl]
  show opcode22 (field w 3 7) w = _
  rw [show field w 3 7 = 2 from field_at hw hp 1 rfl]
  show Except.ok (Instr.ptrClr (field w 20 5) (field w 15 5) (field w 0 3)) = _
  rw [show field w 20 5 = d from field_at hw hp 4 rfl, show field w 15 5 = a from field_at hw hp 3 rfl, show field w 0 3 = g from field_at hw hp 0 rfl]

theorem predAnd (d a b g : Nat) : Statement (.predAnd d a b g) := by
  intro w hwf he
  have hr : ([.pred d, .pred a, .pred b, .field g 3] : List Operand).all Operand.fits = true := fits_of_wellFormed hwf
  simp only [List.all_cons, List.all_nil, Operand.fits, Bool.and_eq_true, decide_eq_true_eq, and_true] at hr
  have hp : ∀ seg ∈ ([(g, 3), (0, 7), (b, 5), (a, 5), (d, 5), (35, 7)] : List (Nat × Nat)), seg.1 < 2 ^ seg.2 := by simp; omega
  have hw : w = packed [(g, 3), (0, 7), (b, 5), (a, 5), (d, 5), (35, 7)] := by
    have e : place 0x46000000 [(d, 20), (a, 15), (b, 10), (g, 0)] = w := Option.some.inj he
    simp only [place, packed] at e ⊢; omega
  refine ⟨lt_of hw hp rfl, ?_⟩
  show byOpcode (field w 25 7) w = _
  rw [show field w 25 7 = 35 from field_at hw hp 5 rfl]
  show opcode23 (field w 3 7) w = _
  rw [show field w 3 7 = 0 from field_at hw hp 1 rfl]
  show Except.ok (Instr.predAnd (field w 20 5) (field w 15 5) (field w 10 5) (field w 0 3)) = _
  rw [show field w 20 5 = d from field_at hw hp 4 rfl, show field w 15 5 = a from field_at hw hp 3 rfl, show field w 10 5 = b from field_at hw hp 2 rfl, show field w 0 3 = g from field_at hw hp 0 rfl]

theorem predOr (d a b g : Nat) : Statement (.predOr d a b g) := by
  intro w hwf he
  have hr : ([.pred d, .pred a, .pred b, .field g 3] : List Operand).all Operand.fits = true := fits_of_wellFormed hwf
  simp only [List.all_cons, List.all_nil, Operand.fits, Bool.and_eq_true, decide_eq_true_eq, and_true] at hr
  have hp : ∀ seg ∈ ([(g, 3), (1, 7), (b, 5), (a, 5), (d, 5), (35, 7)] : List (Nat × Nat)), seg.1 < 2 ^ seg.2 := by simp; omega
  have hw : w = packed [(g, 3), (1, 7), (b, 5), (a, 5), (d, 5), (35, 7)] := by
    have e : place 0x46000008 [(d, 20), (a, 15), (b, 10), (g, 0)] = w := Option.some.inj he
    simp only [place, packed] at e ⊢; omega
  refine ⟨lt_of hw hp rfl, ?_⟩
  show byOpcode (field w 25 7) w = _
  rw [show field w 25 7 = 35 from field_at hw hp 5 rfl]
  show opcode23 (field w 3 7) w = _
  rw [show field w 3 7 = 1 from field_at hw hp 1 rfl]
  show Except.ok (Instr.predOr (field w 20 5) (field w 15 5) (field w 10 5) (field w 0 3)) = _
  rw [show field w 20 5 = d from field_at hw hp 4 rfl, show field w 15 5 = a from field_at hw hp 3 rfl, show field w 10 5 = b from field_at hw hp 2 rfl, show field w 0 3 = g from field_at hw hp 0 rfl]

theorem predXor (d a b g : Nat) : Statement (.predXor d a b g) := by
  intro w hwf he
  have hr : ([.pred d, .pred a, .pred b, .field g 3] : List Operand).all Operand.fits = true := fits_of_wellFormed hwf
  simp only [List.all_cons, List.all_nil, Operand.fits, Bool.and_eq_true, decide_eq_true_eq, and_true] at hr
  have hp : ∀ seg ∈ ([(g, 3), (2, 7), (b, 5), (a, 5), (d, 5), (35, 7)] : List (Nat × Nat)), seg.1 < 2 ^ seg.2 := by simp; omega
  have hw : w = packed [(g, 3), (2, 7), (b, 5), (a, 5), (d, 5), (35, 7)] := by
    have e : place 0x46000010 [(d, 20), (a, 15), (b, 10), (g, 0)] = w := Option.some.inj he
    simp only [place, packed] at e ⊢; omega
  refine ⟨lt_of hw hp rfl, ?_⟩
  show byOpcode (field w 25 7) w = _
  rw [show field w 25 7 = 35 from field_at hw hp 5 rfl]
  show opcode23 (field w 3 7) w = _
  rw [show field w 3 7 = 2 from field_at hw hp 1 rfl]
  show Except.ok (Instr.predXor (field w 20 5) (field w 15 5) (field w 10 5) (field w 0 3)) = _
  rw [show field w 20 5 = d from field_at hw hp 4 rfl, show field w 15 5 = a from field_at hw hp 3 rfl, show field w 10 5 = b from field_at hw hp 2 rfl, show field w 0 3 = g from field_at hw hp 0 rfl]

theorem predAndn (d a b g : Nat) : Statement (.predAndn d a b g) := by
  intro w hwf he
  have hr : ([.pred d, .pred a, .pred b, .field g 3] : List Operand).all Operand.fits = true := fits_of_wellFormed hwf
  simp only [List.all_cons, List.all_nil, Operand.fits, Bool.and_eq_true, decide_eq_true_eq, and_true] at hr
  have hp : ∀ seg ∈ ([(g, 3), (3, 7), (b, 5), (a, 5), (d, 5), (35, 7)] : List (Nat × Nat)), seg.1 < 2 ^ seg.2 := by simp; omega
  have hw : w = packed [(g, 3), (3, 7), (b, 5), (a, 5), (d, 5), (35, 7)] := by
    have e : place 0x46000018 [(d, 20), (a, 15), (b, 10), (g, 0)] = w := Option.some.inj he
    simp only [place, packed] at e ⊢; omega
  refine ⟨lt_of hw hp rfl, ?_⟩
  show byOpcode (field w 25 7) w = _
  rw [show field w 25 7 = 35 from field_at hw hp 5 rfl]
  show opcode23 (field w 3 7) w = _
  rw [show field w 3 7 = 3 from field_at hw hp 1 rfl]
  show Except.ok (Instr.predAndn (field w 20 5) (field w 15 5) (field w 10 5) (field w 0 3)) = _
  rw [show field w 20 5 = d from field_at hw hp 4 rfl, show field w 15 5 = a from field_at hw hp 3 rfl, show field w 10 5 = b from field_at hw hp 2 rfl, show field w 0 3 = g from field_at hw hp 0 rfl]

theorem predNot (d a g : Nat) : Statement (.predNot d a g) := by
  intro w hwf he
  have hr : ([.pred d, .pred a, .field g 3] : List Operand).all Operand.fits = true := fits_of_wellFormed hwf
  simp only [List.all_cons, List.all_nil, Operand.fits, Bool.and_eq_true, decide_eq_true_eq, and_true] at hr
  have hp : ∀ seg ∈ ([(g, 3), (4, 7), (0, 5), (a, 5), (d, 5), (35, 7)] : List (Nat × Nat)), seg.1 < 2 ^ seg.2 := by simp; omega
  have hw : w = packed [(g, 3), (4, 7), (0, 5), (a, 5), (d, 5), (35, 7)] := by
    have e : place 0x46000020 [(d, 20), (a, 15), (g, 0)] = w := Option.some.inj he
    simp only [place, packed] at e ⊢; omega
  refine ⟨lt_of hw hp rfl, ?_⟩
  show byOpcode (field w 25 7) w = _
  rw [show field w 25 7 = 35 from field_at hw hp 5 rfl]
  show opcode23 (field w 3 7) w = _
  rw [show field w 3 7 = 4 from field_at hw hp 1 rfl]
  show Except.ok (Instr.predNot (field w 20 5) (field w 15 5) (field w 0 3)) = _
  rw [show field w 20 5 = d from field_at hw hp 4 rfl, show field w 15 5 = a from field_at hw hp 3 rfl, show field w 0 3 = g from field_at hw hp 0 rfl]

theorem predFromg (d a g : Nat) : Statement (.predFromg d a g) := by
  intro w hwf he
  have hr : ([.pred d, .source a, .field g 3] : List Operand).all Operand.fits = true := fits_of_wellFormed hwf
  simp only [List.all_cons, List.all_nil, Operand.fits, Bool.and_eq_true, decide_eq_true_eq, and_true] at hr
  have hp : ∀ seg ∈ ([(g, 3), (5, 7), (0, 5), (a, 5), (d, 5), (35, 7)] : List (Nat × Nat)), seg.1 < 2 ^ seg.2 := by simp; omega
  have hw : w = packed [(g, 3), (5, 7), (0, 5), (a, 5), (d, 5), (35, 7)] := by
    have e : place 0x46000028 [(d, 20), (a, 15), (g, 0)] = w := Option.some.inj he
    simp only [place, packed] at e ⊢; omega
  refine ⟨lt_of hw hp rfl, ?_⟩
  show byOpcode (field w 25 7) w = _
  rw [show field w 25 7 = 35 from field_at hw hp 5 rfl]
  show opcode23 (field w 3 7) w = _
  rw [show field w 3 7 = 5 from field_at hw hp 1 rfl]
  show Except.ok (Instr.predFromg (field w 20 5) (field w 15 5) (field w 0 3)) = _
  rw [show field w 20 5 = d from field_at hw hp 4 rfl, show field w 15 5 = a from field_at hw hp 3 rfl, show field w 0 3 = g from field_at hw hp 0 rfl]

theorem predTog (d a g : Nat) : Statement (.predTog d a g) := by
  intro w hwf he
  have hr : ([.dest d, .pred a, .field g 3] : List Operand).all Operand.fits = true := fits_of_wellFormed hwf
  simp only [List.all_cons, List.all_nil, Operand.fits, Bool.and_eq_true, decide_eq_true_eq, and_true] at hr
  have hp : ∀ seg ∈ ([(g, 3), (6, 7), (0, 5), (a, 5), (d, 5), (35, 7)] : List (Nat × Nat)), seg.1 < 2 ^ seg.2 := by simp; omega
  have hw : w = packed [(g, 3), (6, 7), (0, 5), (a, 5), (d, 5), (35, 7)] := by
    have e : place 0x46000030 [(d, 20), (a, 15), (g, 0)] = w := Option.some.inj he
    simp only [place, packed] at e ⊢; omega
  refine ⟨lt_of hw hp rfl, ?_⟩
  show byOpcode (field w 25 7) w = _
  rw [show field w 25 7 = 35 from field_at hw hp 5 rfl]
  show opcode23 (field w 3 7) w = _
  rw [show field w 3 7 = 6 from field_at hw hp 1 rfl]
  show Except.ok (Instr.predTog (field w 20 5) (field w 15 5) (field w 0 3)) = _
  rw [show field w 20 5 = d from field_at hw hp 4 rfl, show field w 15 5 = a from field_at hw hp 3 rfl, show field w 0 3 = g from field_at hw hp 0 rfl]

theorem coordSelf (d g : Nat) : Statement (.coordSelf d g) := by
  intro w hwf he
  have hr : ([.dest d, .field g 3] : List Operand).all Operand.fits = true := fits_of_wellFormed hwf
  simp only [List.all_cons, List.all_nil, Operand.fits, Bool.and_eq_true, decide_eq_true_eq, and_true] at hr
  have hp : ∀ seg ∈ ([(g, 3), (0, 7), (0, 10), (d, 5), (36, 7)] : List (Nat × Nat)), seg.1 < 2 ^ seg.2 := by simp; omega
  have hw : w = packed [(g, 3), (0, 7), (0, 10), (d, 5), (36, 7)] := by
    have e : place 0x48000000 [(d, 20), (g, 0)] = w := Option.some.inj he
    simp only [place, packed] at e ⊢; omega
  refine ⟨lt_of hw hp rfl, ?_⟩
  show byOpcode (field w 25 7) w = _
  rw [show field w 25 7 = 36 from field_at hw hp 4 rfl]
  show opcode24 (field w 3 7) w = _
  rw [show field w 3 7 = 0 from field_at hw hp 1 rfl]
  show Except.ok (Instr.coordSelf (field w 20 5) (field w 0 3)) = _
  rw [show field w 20 5 = d from field_at hw hp 3 rfl, show field w 0 3 = g from field_at hw hp 0 rfl]

theorem coordPack (d a b g : Nat) : Statement (.coordPack d a b g) := by
  intro w hwf he
  have hr : ([.dest d, .source a, .source b, .field g 3] : List Operand).all Operand.fits = true := fits_of_wellFormed hwf
  simp only [List.all_cons, List.all_nil, Operand.fits, Bool.and_eq_true, decide_eq_true_eq, and_true] at hr
  have hp : ∀ seg ∈ ([(g, 3), (1, 7), (b, 5), (a, 5), (d, 5), (36, 7)] : List (Nat × Nat)), seg.1 < 2 ^ seg.2 := by simp; omega
  have hw : w = packed [(g, 3), (1, 7), (b, 5), (a, 5), (d, 5), (36, 7)] := by
    have e : place 0x48000008 [(d, 20), (a, 15), (b, 10), (g, 0)] = w := Option.some.inj he
    simp only [place, packed] at e ⊢; omega
  refine ⟨lt_of hw hp rfl, ?_⟩
  show byOpcode (field w 25 7) w = _
  rw [show field w 25 7 = 36 from field_at hw hp 5 rfl]
  show opcode24 (field w 3 7) w = _
  rw [show field w 3 7 = 1 from field_at hw hp 1 rfl]
  show Except.ok (Instr.coordPack (field w 20 5) (field w 15 5) (field w 10 5) (field w 0 3)) = _
  rw [show field w 20 5 = d from field_at hw hp 4 rfl, show field w 15 5 = a from field_at hw hp 3 rfl, show field w 10 5 = b from field_at hw hp 2 rfl, show field w 0 3 = g from field_at hw hp 0 rfl]

theorem coordX (d a g : Nat) : Statement (.coordX d a g) := by
  intro w hwf he
  have hr : ([.dest d, .source a, .field g 3] : List Operand).all Operand.fits = true := fits_of_wellFormed hwf
  simp only [List.all_cons, List.all_nil, Operand.fits, Bool.and_eq_true, decide_eq_true_eq, and_true] at hr
  have hp : ∀ seg ∈ ([(g, 3), (2, 7), (0, 5), (a, 5), (d, 5), (36, 7)] : List (Nat × Nat)), seg.1 < 2 ^ seg.2 := by simp; omega
  have hw : w = packed [(g, 3), (2, 7), (0, 5), (a, 5), (d, 5), (36, 7)] := by
    have e : place 0x48000010 [(d, 20), (a, 15), (g, 0)] = w := Option.some.inj he
    simp only [place, packed] at e ⊢; omega
  refine ⟨lt_of hw hp rfl, ?_⟩
  show byOpcode (field w 25 7) w = _
  rw [show field w 25 7 = 36 from field_at hw hp 5 rfl]
  show opcode24 (field w 3 7) w = _
  rw [show field w 3 7 = 2 from field_at hw hp 1 rfl]
  show Except.ok (Instr.coordX (field w 20 5) (field w 15 5) (field w 0 3)) = _
  rw [show field w 20 5 = d from field_at hw hp 4 rfl, show field w 15 5 = a from field_at hw hp 3 rfl, show field w 0 3 = g from field_at hw hp 0 rfl]

theorem coordY (d a g : Nat) : Statement (.coordY d a g) := by
  intro w hwf he
  have hr : ([.dest d, .source a, .field g 3] : List Operand).all Operand.fits = true := fits_of_wellFormed hwf
  simp only [List.all_cons, List.all_nil, Operand.fits, Bool.and_eq_true, decide_eq_true_eq, and_true] at hr
  have hp : ∀ seg ∈ ([(g, 3), (3, 7), (0, 5), (a, 5), (d, 5), (36, 7)] : List (Nat × Nat)), seg.1 < 2 ^ seg.2 := by simp; omega
  have hw : w = packed [(g, 3), (3, 7), (0, 5), (a, 5), (d, 5), (36, 7)] := by
    have e : place 0x48000018 [(d, 20), (a, 15), (g, 0)] = w := Option.some.inj he
    simp only [place, packed] at e ⊢; omega
  refine ⟨lt_of hw hp rfl, ?_⟩
  show byOpcode (field w 25 7) w = _
  rw [show field w 25 7 = 36 from field_at hw hp 5 rfl]
  show opcode24 (field w 3 7) w = _
  rw [show field w 3 7 = 3 from field_at hw hp 1 rfl]
  show Except.ok (Instr.coordY (field w 20 5) (field w 15 5) (field w 0 3)) = _
  rw [show field w 20 5 = d from field_at hw hp 4 rfl, show field w 15 5 = a from field_at hw hp 3 rfl, show field w 0 3 = g from field_at hw hp 0 rfl]

theorem coordAdd (d a b g : Nat) : Statement (.coordAdd d a b g) := by
  intro w hwf he
  have hr : ([.dest d, .source a, .source b, .field g 3] : List Operand).all Operand.fits = true := fits_of_wellFormed hwf
  simp only [List.all_cons, List.all_nil, Operand.fits, Bool.and_eq_true, decide_eq_true_eq, and_true] at hr
  have hp : ∀ seg ∈ ([(g, 3), (4, 7), (b, 5), (a, 5), (d, 5), (36, 7)] : List (Nat × Nat)), seg.1 < 2 ^ seg.2 := by simp; omega
  have hw : w = packed [(g, 3), (4, 7), (b, 5), (a, 5), (d, 5), (36, 7)] := by
    have e : place 0x48000020 [(d, 20), (a, 15), (b, 10), (g, 0)] = w := Option.some.inj he
    simp only [place, packed] at e ⊢; omega
  refine ⟨lt_of hw hp rfl, ?_⟩
  show byOpcode (field w 25 7) w = _
  rw [show field w 25 7 = 36 from field_at hw hp 5 rfl]
  show opcode24 (field w 3 7) w = _
  rw [show field w 3 7 = 4 from field_at hw hp 1 rfl]
  show Except.ok (Instr.coordAdd (field w 20 5) (field w 15 5) (field w 10 5) (field w 0 3)) = _
  rw [show field w 20 5 = d from field_at hw hp 4 rfl, show field w 15 5 = a from field_at hw hp 3 rfl, show field w 10 5 = b from field_at hw hp 2 rfl, show field w 0 3 = g from field_at hw hp 0 rfl]

theorem min (d a b sz sgn g : Nat) : Statement (.min d a b sz sgn g) := by
  intro w hwf he
  have hr : ([.dest d, .source a, .source b, .field sz 2, .field sgn 1, .field g 3] : List Operand).all Operand.fits = true := fits_of_wellFormed hwf
  simp only [List.all_cons, List.all_nil, Operand.fits, Bool.and_eq_true, decide_eq_true_eq, and_true] at hr
  have hp : ∀ seg ∈ ([(g, 3), (0, 4), (sgn, 1), (sz, 2), (b, 5), (a, 5), (d, 5), (37, 7)] : List (Nat × Nat)), seg.1 < 2 ^ seg.2 := by simp; omega
  have hw : w = packed [(g, 3), (0, 4), (sgn, 1), (sz, 2), (b, 5), (a, 5), (d, 5), (37, 7)] := by
    have e : place 0x4a000000 [(d, 20), (a, 15), (b, 10), (sz, 8), (sgn, 7), (g, 0)] = w := Option.some.inj he
    simp only [place, packed] at e ⊢; omega
  refine ⟨lt_of hw hp rfl, ?_⟩
  show byOpcode (field w 25 7) w = _
  rw [show field w 25 7 = 37 from field_at hw hp 7 rfl]
  show opcode25 (field w 3 4) w = _
  rw [show field w 3 4 = 0 from field_at hw hp 1 rfl]
  show Except.ok (Instr.min (field w 20 5) (field w 15 5) (field w 10 5) (field w 8 2) (field w 7 1) (field w 0 3)) = _
  rw [show field w 20 5 = d from field_at hw hp 6 rfl, show field w 15 5 = a from field_at hw hp 5 rfl, show field w 10 5 = b from field_at hw hp 4 rfl, show field w 8 2 = sz from field_at hw hp 3 rfl, show field w 7 1 = sgn from field_at hw hp 2 rfl, show field w 0 3 = g from field_at hw hp 0 rfl]

theorem max (d a b sz sgn g : Nat) : Statement (.max d a b sz sgn g) := by
  intro w hwf he
  have hr : ([.dest d, .source a, .source b, .field sz 2, .field sgn 1, .field g 3] : List Operand).all Operand.fits = true := fits_of_wellFormed hwf
  simp only [List.all_cons, List.all_nil, Operand.fits, Bool.and_eq_true, decide_eq_true_eq, and_true] at hr
  have hp : ∀ seg ∈ ([(g, 3), (1, 4), (sgn, 1), (sz, 2), (b, 5), (a, 5), (d, 5), (37, 7)] : List (Nat × Nat)), seg.1 < 2 ^ seg.2 := by simp; omega
  have hw : w = packed [(g, 3), (1, 4), (sgn, 1), (sz, 2), (b, 5), (a, 5), (d, 5), (37, 7)] := by
    have e : place 0x4a000008 [(d, 20), (a, 15), (b, 10), (sz, 8), (sgn, 7), (g, 0)] = w := Option.some.inj he
    simp only [place, packed] at e ⊢; omega
  refine ⟨lt_of hw hp rfl, ?_⟩
  show byOpcode (field w 25 7) w = _
  rw [show field w 25 7 = 37 from field_at hw hp 7 rfl]
  show opcode25 (field w 3 4) w = _
  rw [show field w 3 4 = 1 from field_at hw hp 1 rfl]
  show Except.ok (Instr.max (field w 20 5) (field w 15 5) (field w 10 5) (field w 8 2) (field w 7 1) (field w 0 3)) = _
  rw [show field w 20 5 = d from field_at hw hp 6 rfl, show field w 15 5 = a from field_at hw hp 5 rfl, show field w 10 5 = b from field_at hw hp 4 rfl, show field w 8 2 = sz from field_at hw hp 3 rfl, show field w 7 1 = sgn from field_at hw hp 2 rfl, show field w 0 3 = g from field_at hw hp 0 rfl]

theorem absd (d a b sz sgn g : Nat) : Statement (.absd d a b sz sgn g) := by
  intro w hwf he
  have hr : ([.dest d, .source a, .source b, .field sz 2, .field sgn 1, .field g 3] : List Operand).all Operand.fits = true := fits_of_wellFormed hwf
  simp only [List.all_cons, List.all_nil, Operand.fits, Bool.and_eq_true, decide_eq_true_eq, and_true] at hr
  have hp : ∀ seg ∈ ([(g, 3), (2, 4), (sgn, 1), (sz, 2), (b, 5), (a, 5), (d, 5), (37, 7)] : List (Nat × Nat)), seg.1 < 2 ^ seg.2 := by simp; omega
  have hw : w = packed [(g, 3), (2, 4), (sgn, 1), (sz, 2), (b, 5), (a, 5), (d, 5), (37, 7)] := by
    have e : place 0x4a000010 [(d, 20), (a, 15), (b, 10), (sz, 8), (sgn, 7), (g, 0)] = w := Option.some.inj he
    simp only [place, packed] at e ⊢; omega
  refine ⟨lt_of hw hp rfl, ?_⟩
  show byOpcode (field w 25 7) w = _
  rw [show field w 25 7 = 37 from field_at hw hp 7 rfl]
  show opcode25 (field w 3 4) w = _
  rw [show field w 3 4 = 2 from field_at hw hp 1 rfl]
  show Except.ok (Instr.absd (field w 20 5) (field w 15 5) (field w 10 5) (field w 8 2) (field w 7 1) (field w 0 3)) = _
  rw [show field w 20 5 = d from field_at hw hp 6 rfl, show field w 15 5 = a from field_at hw hp 5 rfl, show field w 10 5 = b from field_at hw hp 4 rfl, show field w 8 2 = sz from field_at hw hp 3 rfl, show field w 7 1 = sgn from field_at hw hp 2 rfl, show field w 0 3 = g from field_at hw hp 0 rfl]

theorem muli (d a imm g : Nat) : Statement (.muli d a imm g) := by
  intro w hwf he
  have hr : ([.dest d, .source a, .field imm 12, .field g 3] : List Operand).all Operand.fits = true := fits_of_wellFormed hwf
  simp only [List.all_cons, List.all_nil, Operand.fits, Bool.and_eq_true, decide_eq_true_eq, and_true] at hr
  have hp : ∀ seg ∈ ([(g, 3), (imm, 12), (a, 5), (d, 5), (38, 7)] : List (Nat × Nat)), seg.1 < 2 ^ seg.2 := by simp; omega
  have hw : w = packed [(g, 3), (imm, 12), (a, 5), (d, 5), (38, 7)] := by
    have e : place 0x4c000000 [(d, 20), (a, 15), (imm, 3), (g, 0)] = w := Option.some.inj he
    simp only [place, packed] at e ⊢; omega
  refine ⟨lt_of hw hp rfl, ?_⟩
  show byOpcode (field w 25 7) w = _
  rw [show field w 25 7 = 38 from field_at hw hp 4 rfl]
  show Except.ok (Instr.muli (field w 20 5) (field w 15 5) (field w 3 12) (field w 0 3)) = _
  rw [show field w 20 5 = d from field_at hw hp 3 rfl, show field w 15 5 = a from field_at hw hp 2 rfl, show field w 3 12 = imm from field_at hw hp 1 rfl, show field w 0 3 = g from field_at hw hp 0 rfl]

theorem fadd (d a b fmt g : Nat) : Statement (.fadd d a b fmt g) := by
  intro w hwf he
  have hr : ([.dest d, .source a, .source b, .field fmt 2, .field g 3] : List Operand).all Operand.fits = true := fits_of_wellFormed hwf
  simp only [List.all_cons, List.all_nil, Operand.fits, Bool.and_eq_true, decide_eq_true_eq, and_true] at hr
  have hp : ∀ seg ∈ ([(g, 3), (0, 5), (fmt, 2), (b, 5), (a, 5), (d, 5), (48, 7)] : List (Nat × Nat)), seg.1 < 2 ^ seg.2 := by simp; omega
  have hw : w = packed [(g, 3), (0, 5), (fmt, 2), (b, 5), (a, 5), (d, 5), (48, 7)] := by
    have e : place 0x60000000 [(d, 20), (a, 15), (b, 10), (fmt, 8), (g, 0)] = w := Option.some.inj he
    simp only [place, packed] at e ⊢; omega
  refine ⟨lt_of hw hp rfl, ?_⟩
  show byOpcode (field w 25 7) w = _
  rw [show field w 25 7 = 48 from field_at hw hp 6 rfl]
  show opcode30 (field w 3 5) w = _
  rw [show field w 3 5 = 0 from field_at hw hp 1 rfl]
  show Except.ok (Instr.fadd (field w 20 5) (field w 15 5) (field w 10 5) (field w 8 2) (field w 0 3)) = _
  rw [show field w 20 5 = d from field_at hw hp 5 rfl, show field w 15 5 = a from field_at hw hp 4 rfl, show field w 10 5 = b from field_at hw hp 3 rfl, show field w 8 2 = fmt from field_at hw hp 2 rfl, show field w 0 3 = g from field_at hw hp 0 rfl]

theorem fsub (d a b fmt g : Nat) : Statement (.fsub d a b fmt g) := by
  intro w hwf he
  have hr : ([.dest d, .source a, .source b, .field fmt 2, .field g 3] : List Operand).all Operand.fits = true := fits_of_wellFormed hwf
  simp only [List.all_cons, List.all_nil, Operand.fits, Bool.and_eq_true, decide_eq_true_eq, and_true] at hr
  have hp : ∀ seg ∈ ([(g, 3), (1, 5), (fmt, 2), (b, 5), (a, 5), (d, 5), (48, 7)] : List (Nat × Nat)), seg.1 < 2 ^ seg.2 := by simp; omega
  have hw : w = packed [(g, 3), (1, 5), (fmt, 2), (b, 5), (a, 5), (d, 5), (48, 7)] := by
    have e : place 0x60000008 [(d, 20), (a, 15), (b, 10), (fmt, 8), (g, 0)] = w := Option.some.inj he
    simp only [place, packed] at e ⊢; omega
  refine ⟨lt_of hw hp rfl, ?_⟩
  show byOpcode (field w 25 7) w = _
  rw [show field w 25 7 = 48 from field_at hw hp 6 rfl]
  show opcode30 (field w 3 5) w = _
  rw [show field w 3 5 = 1 from field_at hw hp 1 rfl]
  show Except.ok (Instr.fsub (field w 20 5) (field w 15 5) (field w 10 5) (field w 8 2) (field w 0 3)) = _
  rw [show field w 20 5 = d from field_at hw hp 5 rfl, show field w 15 5 = a from field_at hw hp 4 rfl, show field w 10 5 = b from field_at hw hp 3 rfl, show field w 8 2 = fmt from field_at hw hp 2 rfl, show field w 0 3 = g from field_at hw hp 0 rfl]

theorem fmul (d a b fmt g : Nat) : Statement (.fmul d a b fmt g) := by
  intro w hwf he
  have hr : ([.dest d, .source a, .source b, .field fmt 2, .field g 3] : List Operand).all Operand.fits = true := fits_of_wellFormed hwf
  simp only [List.all_cons, List.all_nil, Operand.fits, Bool.and_eq_true, decide_eq_true_eq, and_true] at hr
  have hp : ∀ seg ∈ ([(g, 3), (2, 5), (fmt, 2), (b, 5), (a, 5), (d, 5), (48, 7)] : List (Nat × Nat)), seg.1 < 2 ^ seg.2 := by simp; omega
  have hw : w = packed [(g, 3), (2, 5), (fmt, 2), (b, 5), (a, 5), (d, 5), (48, 7)] := by
    have e : place 0x60000010 [(d, 20), (a, 15), (b, 10), (fmt, 8), (g, 0)] = w := Option.some.inj he
    simp only [place, packed] at e ⊢; omega
  refine ⟨lt_of hw hp rfl, ?_⟩
  show byOpcode (field w 25 7) w = _
  rw [show field w 25 7 = 48 from field_at hw hp 6 rfl]
  show opcode30 (field w 3 5) w = _
  rw [show field w 3 5 = 2 from field_at hw hp 1 rfl]
  show Except.ok (Instr.fmul (field w 20 5) (field w 15 5) (field w 10 5) (field w 8 2) (field w 0 3)) = _
  rw [show field w 20 5 = d from field_at hw hp 5 rfl, show field w 15 5 = a from field_at hw hp 4 rfl, show field w 10 5 = b from field_at hw hp 3 rfl, show field w 8 2 = fmt from field_at hw hp 2 rfl, show field w 0 3 = g from field_at hw hp 0 rfl]

theorem fdiv (d a b fmt g : Nat) : Statement (.fdiv d a b fmt g) := by
  intro w hwf he
  have hr : ([.dest d, .source a, .source b, .field fmt 2, .field g 3] : List Operand).all Operand.fits = true := fits_of_wellFormed hwf
  simp only [List.all_cons, List.all_nil, Operand.fits, Bool.and_eq_true, decide_eq_true_eq, and_true] at hr
  have hp : ∀ seg ∈ ([(g, 3), (3, 5), (fmt, 2), (b, 5), (a, 5), (d, 5), (48, 7)] : List (Nat × Nat)), seg.1 < 2 ^ seg.2 := by simp; omega
  have hw : w = packed [(g, 3), (3, 5), (fmt, 2), (b, 5), (a, 5), (d, 5), (48, 7)] := by
    have e : place 0x60000018 [(d, 20), (a, 15), (b, 10), (fmt, 8), (g, 0)] = w := Option.some.inj he
    simp only [place, packed] at e ⊢; omega
  refine ⟨lt_of hw hp rfl, ?_⟩
  show byOpcode (field w 25 7) w = _
  rw [show field w 25 7 = 48 from field_at hw hp 6 rfl]
  show opcode30 (field w 3 5) w = _
  rw [show field w 3 5 = 3 from field_at hw hp 1 rfl]
  show Except.ok (Instr.fdiv (field w 20 5) (field w 15 5) (field w 10 5) (field w 8 2) (field w 0 3)) = _
  rw [show field w 20 5 = d from field_at hw hp 5 rfl, show field w 15 5 = a from field_at hw hp 4 rfl, show field w 10 5 = b from field_at hw hp 3 rfl, show field w 8 2 = fmt from field_at hw hp 2 rfl, show field w 0 3 = g from field_at hw hp 0 rfl]

theorem fmin (d a b fmt g : Nat) : Statement (.fmin d a b fmt g) := by
  intro w hwf he
  have hr : ([.dest d, .source a, .source b, .field fmt 2, .field g 3] : List Operand).all Operand.fits = true := fits_of_wellFormed hwf
  simp only [List.all_cons, List.all_nil, Operand.fits, Bool.and_eq_true, decide_eq_true_eq, and_true] at hr
  have hp : ∀ seg ∈ ([(g, 3), (4, 5), (fmt, 2), (b, 5), (a, 5), (d, 5), (48, 7)] : List (Nat × Nat)), seg.1 < 2 ^ seg.2 := by simp; omega
  have hw : w = packed [(g, 3), (4, 5), (fmt, 2), (b, 5), (a, 5), (d, 5), (48, 7)] := by
    have e : place 0x60000020 [(d, 20), (a, 15), (b, 10), (fmt, 8), (g, 0)] = w := Option.some.inj he
    simp only [place, packed] at e ⊢; omega
  refine ⟨lt_of hw hp rfl, ?_⟩
  show byOpcode (field w 25 7) w = _
  rw [show field w 25 7 = 48 from field_at hw hp 6 rfl]
  show opcode30 (field w 3 5) w = _
  rw [show field w 3 5 = 4 from field_at hw hp 1 rfl]
  show Except.ok (Instr.fmin (field w 20 5) (field w 15 5) (field w 10 5) (field w 8 2) (field w 0 3)) = _
  rw [show field w 20 5 = d from field_at hw hp 5 rfl, show field w 15 5 = a from field_at hw hp 4 rfl, show field w 10 5 = b from field_at hw hp 3 rfl, show field w 8 2 = fmt from field_at hw hp 2 rfl, show field w 0 3 = g from field_at hw hp 0 rfl]

theorem fmax (d a b fmt g : Nat) : Statement (.fmax d a b fmt g) := by
  intro w hwf he
  have hr : ([.dest d, .source a, .source b, .field fmt 2, .field g 3] : List Operand).all Operand.fits = true := fits_of_wellFormed hwf
  simp only [List.all_cons, List.all_nil, Operand.fits, Bool.and_eq_true, decide_eq_true_eq, and_true] at hr
  have hp : ∀ seg ∈ ([(g, 3), (5, 5), (fmt, 2), (b, 5), (a, 5), (d, 5), (48, 7)] : List (Nat × Nat)), seg.1 < 2 ^ seg.2 := by simp; omega
  have hw : w = packed [(g, 3), (5, 5), (fmt, 2), (b, 5), (a, 5), (d, 5), (48, 7)] := by
    have e : place 0x60000028 [(d, 20), (a, 15), (b, 10), (fmt, 8), (g, 0)] = w := Option.some.inj he
    simp only [place, packed] at e ⊢; omega
  refine ⟨lt_of hw hp rfl, ?_⟩
  show byOpcode (field w 25 7) w = _
  rw [show field w 25 7 = 48 from field_at hw hp 6 rfl]
  show opcode30 (field w 3 5) w = _
  rw [show field w 3 5 = 5 from field_at hw hp 1 rfl]
  show Except.ok (Instr.fmax (field w 20 5) (field w 15 5) (field w 10 5) (field w 8 2) (field w 0 3)) = _
  rw [show field w 20 5 = d from field_at hw hp 5 rfl, show field w 15 5 = a from field_at hw hp 4 rfl, show field w 10 5 = b from field_at hw hp 3 rfl, show field w 8 2 = fmt from field_at hw hp 2 rfl, show field w 0 3 = g from field_at hw hp 0 rfl]

theorem fabs (d a fmt g : Nat) : Statement (.fabs d a fmt g) := by
  intro w hwf he
  have hr : ([.dest d, .source a, .field fmt 2, .field g 3] : List Operand).all Operand.fits = true := fits_of_wellFormed hwf
  simp only [List.all_cons, List.all_nil, Operand.fits, Bool.and_eq_true, decide_eq_true_eq, and_true] at hr
  have hp : ∀ seg ∈ ([(g, 3), (6, 5), (fmt, 2), (0, 5), (a, 5), (d, 5), (48, 7)] : List (Nat × Nat)), seg.1 < 2 ^ seg.2 := by simp; omega
  have hw : w = packed [(g, 3), (6, 5), (fmt, 2), (0, 5), (a, 5), (d, 5), (48, 7)] := by
    have e : place 0x60000030 [(d, 20), (a, 15), (fmt, 8), (g, 0)] = w := Option.some.inj he
    simp only [place, packed] at e ⊢; omega
  refine ⟨lt_of hw hp rfl, ?_⟩
  show byOpcode (field w 25 7) w = _
  rw [show field w 25 7 = 48 from field_at hw hp 6 rfl]
  show opcode30 (field w 3 5) w = _
  rw [show field w 3 5 = 6 from field_at hw hp 1 rfl]
  show Except.ok (Instr.fabs (field w 20 5) (field w 15 5) (field w 8 2) (field w 0 3)) = _
  rw [show field w 20 5 = d from field_at hw hp 5 rfl, show field w 15 5 = a from field_at hw hp 4 rfl, show field w 8 2 = fmt from field_at hw hp 2 rfl, show field w 0 3 = g from field_at hw hp 0 rfl]

theorem fneg (d a fmt g : Nat) : Statement (.fneg d a fmt g) := by
  intro w hwf he
  have hr : ([.dest d, .source a, .field fmt 2, .field g 3] : List Operand).all Operand.fits = true := fits_of_wellFormed hwf
  simp only [List.all_cons, List.all_nil, Operand.fits, Bool.and_eq_true, decide_eq_true_eq, and_true] at hr
  have hp : ∀ seg ∈ ([(g, 3), (7, 5), (fmt, 2), (0, 5), (a, 5), (d, 5), (48, 7)] : List (Nat × Nat)), seg.1 < 2 ^ seg.2 := by simp; omega
  have hw : w = packed [(g, 3), (7, 5), (fmt, 2), (0, 5), (a, 5), (d, 5), (48, 7)] := by
    have e : place 0x60000038 [(d, 20), (a, 15), (fmt, 8), (g, 0)] = w := Option.some.inj he
    simp only [place, packed] at e ⊢; omega
  refine ⟨lt_of hw hp rfl, ?_⟩
  show byOpcode (field w 25 7) w = _
  rw [show field w 25 7 = 48 from field_at hw hp 6 rfl]
  show opcode30 (field w 3 5) w = _
  rw [show field w 3 5 = 7 from field_at hw hp 1 rfl]
  show Except.ok (Instr.fneg (field w 20 5) (field w 15 5) (field w 8 2) (field w 0 3)) = _
  rw [show field w 20 5 = d from field_at hw hp 5 rfl, show field w 15 5 = a from field_at hw hp 4 rfl, show field w 8 2 = fmt from field_at hw hp 2 rfl, show field w 0 3 = g from field_at hw hp 0 rfl]

theorem fma (d a b c g : Nat) : Statement (.fma d a b c g) := by
  intro w hwf he
  have hr : ([.dest d, .source a, .source b, .source c, .field g 3] : List Operand).all Operand.fits = true := fits_of_wellFormed hwf
  simp only [List.all_cons, List.all_nil, Operand.fits, Bool.and_eq_true, decide_eq_true_eq, and_true] at hr
  have hp : ∀ seg ∈ ([(g, 3), (0, 2), (c, 5), (b, 5), (a, 5), (d, 5), (49, 7)] : List (Nat × Nat)), seg.1 < 2 ^ seg.2 := by simp; omega
  have hw : w = packed [(g, 3), (0, 2), (c, 5), (b, 5), (a, 5), (d, 5), (49, 7)] := by
    have e : place 0x62000000 [(d, 20), (a, 15), (b, 10), (c, 5), (g, 0)] = w := Option.some.inj he
    simp only [place, packed] at e ⊢; omega
  refine ⟨lt_of hw hp rfl, ?_⟩
  show byOpcode (field w 25 7) w = _
  rw [show field w 25 7 = 49 from field_at hw hp 6 rfl]
  show opcode31 (field w 3 2) w = _
  rw [show field w 3 2 = 0 from field_at hw hp 1 rfl]
  show Except.ok (Instr.fma (field w 20 5) (field w 15 5) (field w 10 5) (field w 5 5) (field w 0 3)) = _
  rw [show field w 20 5 = d from field_at hw hp 5 rfl, show field w 15 5 = a from field_at hw hp 4 rfl, show field w 10 5 = b from field_at hw hp 3 rfl, show field w 5 5 = c from field_at hw hp 2 rfl, show field w 0 3 = g from field_at hw hp 0 rfl]

theorem fms (d a b c g : Nat) : Statement (.fms d a b c g) := by
  intro w hwf he
  have hr : ([.dest d, .source a, .source b, .source c, .field g 3] : List Operand).all Operand.fits = true := fits_of_wellFormed hwf
  simp only [List.all_cons, List.all_nil, Operand.fits, Bool.and_eq_true, decide_eq_true_eq, and_true] at hr
  have hp : ∀ seg ∈ ([(g, 3), (1, 2), (c, 5), (b, 5), (a, 5), (d, 5), (49, 7)] : List (Nat × Nat)), seg.1 < 2 ^ seg.2 := by simp; omega
  have hw : w = packed [(g, 3), (1, 2), (c, 5), (b, 5), (a, 5), (d, 5), (49, 7)] := by
    have e : place 0x62000008 [(d, 20), (a, 15), (b, 10), (c, 5), (g, 0)] = w := Option.some.inj he
    simp only [place, packed] at e ⊢; omega
  refine ⟨lt_of hw hp rfl, ?_⟩
  show byOpcode (field w 25 7) w = _
  rw [show field w 25 7 = 49 from field_at hw hp 6 rfl]
  show opcode31 (field w 3 2) w = _
  rw [show field w 3 2 = 1 from field_at hw hp 1 rfl]
  show Except.ok (Instr.fms (field w 20 5) (field w 15 5) (field w 10 5) (field w 5 5) (field w 0 3)) = _
  rw [show field w 20 5 = d from field_at hw hp 5 rfl, show field w 15 5 = a from field_at hw hp 4 rfl, show field w 10 5 = b from field_at hw hp 3 rfl, show field w 5 5 = c from field_at hw hp 2 rfl, show field w 0 3 = g from field_at hw hp 0 rfl]

theorem fnma (d a b c g : Nat) : Statement (.fnma d a b c g) := by
  intro w hwf he
  have hr : ([.dest d, .source a, .source b, .source c, .field g 3] : List Operand).all Operand.fits = true := fits_of_wellFormed hwf
  simp only [List.all_cons, List.all_nil, Operand.fits, Bool.and_eq_true, decide_eq_true_eq, and_true] at hr
  have hp : ∀ seg ∈ ([(g, 3), (2, 2), (c, 5), (b, 5), (a, 5), (d, 5), (49, 7)] : List (Nat × Nat)), seg.1 < 2 ^ seg.2 := by simp; omega
  have hw : w = packed [(g, 3), (2, 2), (c, 5), (b, 5), (a, 5), (d, 5), (49, 7)] := by
    have e : place 0x62000010 [(d, 20), (a, 15), (b, 10), (c, 5), (g, 0)] = w := Option.some.inj he
    simp only [place, packed] at e ⊢; omega
  refine ⟨lt_of hw hp rfl, ?_⟩
  show byOpcode (field w 25 7) w = _
  rw [show field w 25 7 = 49 from field_at hw hp 6 rfl]
  show opcode31 (field w 3 2) w = _
  rw [show field w 3 2 = 2 from field_at hw hp 1 rfl]
  show Except.ok (Instr.fnma (field w 20 5) (field w 15 5) (field w 10 5) (field w 5 5) (field w 0 3)) = _
  rw [show field w 20 5 = d from field_at hw hp 5 rfl, show field w 15 5 = a from field_at hw hp 4 rfl, show field w 10 5 = b from field_at hw hp 3 rfl, show field w 5 5 = c from field_at hw hp 2 rfl, show field w 0 3 = g from field_at hw hp 0 rfl]

theorem fnms (d a b c g : Nat) : Statement (.fnms d a b c g) := by
  intro w hwf he
  have hr : ([.dest d, .source a, .source b, .source c, .field g 3] : List Operand).all Operand.fits = true := fits_of_wellFormed hwf
  simp only [List.all_cons, List.all_nil, Operand.fits, Bool.and_eq_true, decide_eq_true_eq, and_true] at hr
  have hp : ∀ seg ∈ ([(g, 3), (3, 2), (c, 5), (b, 5), (a, 5), (d, 5), (49, 7)] : List (Nat × Nat)), seg.1 < 2 ^ seg.2 := by simp; omega
  have hw : w = packed [(g, 3), (3, 2), (c, 5), (b, 5), (a, 5), (d, 5), (49, 7)] := by
    have e : place 0x62000018 [(d, 20), (a, 15), (b, 10), (c, 5), (g, 0)] = w := Option.some.inj he
    simp only [place, packed] at e ⊢; omega
  refine ⟨lt_of hw hp rfl, ?_⟩
  show byOpcode (field w 25 7) w = _
  rw [show field w 25 7 = 49 from field_at hw hp 6 rfl]
  show opcode31 (field w 3 2) w = _
  rw [show field w 3 2 = 3 from field_at hw hp 1 rfl]
  show Except.ok (Instr.fnms (field w 20 5) (field w 15 5) (field w 10 5) (field w 5 5) (field w 0 3)) = _
  rw [show field w 20 5 = d from field_at hw hp 5 rfl, show field w 15 5 = a from field_at hw hp 4 rfl, show field w 10 5 = b from field_at hw hp 3 rfl, show field w 5 5 = c from field_at hw hp 2 rfl, show field w 0 3 = g from field_at hw hp 0 rfl]

theorem fcmpEq (p a b fmt g : Nat) : Statement (.fcmpEq p a b fmt g) := by
  intro w hwf he
  have hr : ([.pred p, .source a, .source b, .field fmt 2, .field g 3] : List Operand).all Operand.fits = true := fits_of_wellFormed hwf
  simp only [List.all_cons, List.all_nil, Operand.fits, Bool.and_eq_true, decide_eq_true_eq, and_true] at hr
  have hp : ∀ seg ∈ ([(g, 3), (0, 5), (fmt, 2), (b, 5), (a, 5), (p, 5), (50, 7)] : List (Nat × Nat)), seg.1 < 2 ^ seg.2 := by simp; omega
  have hw : w = packed [(g, 3), (0, 5), (fmt, 2), (b, 5), (a, 5), (p, 5), (50, 7)] := by
    have e : place 0x64000000 [(p, 20), (a, 15), (b, 10), (fmt, 8), (g, 0)] = w := Option.some.inj he
    simp only [place, packed] at e ⊢; omega
  refine ⟨lt_of hw hp rfl, ?_⟩
  show byOpcode (field w 25 7) w = _
  rw [show field w 25 7 = 50 from field_at hw hp 6 rfl]
  show opcode32 (field w 3 5) w = _
  rw [show field w 3 5 = 0 from field_at hw hp 1 rfl]
  show Except.ok (Instr.fcmpEq (field w 20 5) (field w 15 5) (field w 10 5) (field w 8 2) (field w 0 3)) = _
  rw [show field w 20 5 = p from field_at hw hp 5 rfl, show field w 15 5 = a from field_at hw hp 4 rfl, show field w 10 5 = b from field_at hw hp 3 rfl, show field w 8 2 = fmt from field_at hw hp 2 rfl, show field w 0 3 = g from field_at hw hp 0 rfl]

theorem fcmpNe (p a b fmt g : Nat) : Statement (.fcmpNe p a b fmt g) := by
  intro w hwf he
  have hr : ([.pred p, .source a, .source b, .field fmt 2, .field g 3] : List Operand).all Operand.fits = true := fits_of_wellFormed hwf
  simp only [List.all_cons, List.all_nil, Operand.fits, Bool.and_eq_true, decide_eq_true_eq, and_true] at hr
  have hp : ∀ seg ∈ ([(g, 3), (1, 5), (fmt, 2), (b, 5), (a, 5), (p, 5), (50, 7)] : List (Nat × Nat)), seg.1 < 2 ^ seg.2 := by simp; omega
  have hw : w = packed [(g, 3), (1, 5), (fmt, 2), (b, 5), (a, 5), (p, 5), (50, 7)] := by
    have e : place 0x64000008 [(p, 20), (a, 15), (b, 10), (fmt, 8), (g, 0)] = w := Option.some.inj he
    simp only [place, packed] at e ⊢; omega
  refine ⟨lt_of hw hp rfl, ?_⟩
  show byOpcode (field w 25 7) w = _
  rw [show field w 25 7 = 50 from field_at hw hp 6 rfl]
  show opcode32 (field w 3 5) w = _
  rw [show field w 3 5 = 1 from field_at hw hp 1 rfl]
  show Except.ok (Instr.fcmpNe (field w 20 5) (field w 15 5) (field w 10 5) (field w 8 2) (field w 0 3)) = _
  rw [show field w 20 5 = p from field_at hw hp 5 rfl, show field w 15 5 = a from field_at hw hp 4 rfl, show field w 10 5 = b from field_at hw hp 3 rfl, show field w 8 2 = fmt from field_at hw hp 2 rfl, show field w 0 3 = g from field_at hw hp 0 rfl]

theorem fcmpLt (p a b fmt g : Nat) : Statement (.fcmpLt p a b fmt g) := by
  intro w hwf he
  have hr : ([.pred p, .source a, .source b, .field fmt 2, .field g 3] : List Operand).all Operand.fits = true := fits_of_wellFormed hwf
  simp only [List.all_cons, List.all_nil, Operand.fits, Bool.and_eq_true, decide_eq_true_eq, and_true] at hr
  have hp : ∀ seg ∈ ([(g, 3), (2, 5), (fmt, 2), (b, 5), (a, 5), (p, 5), (50, 7)] : List (Nat × Nat)), seg.1 < 2 ^ seg.2 := by simp; omega
  have hw : w = packed [(g, 3), (2, 5), (fmt, 2), (b, 5), (a, 5), (p, 5), (50, 7)] := by
    have e : place 0x64000010 [(p, 20), (a, 15), (b, 10), (fmt, 8), (g, 0)] = w := Option.some.inj he
    simp only [place, packed] at e ⊢; omega
  refine ⟨lt_of hw hp rfl, ?_⟩
  show byOpcode (field w 25 7) w = _
  rw [show field w 25 7 = 50 from field_at hw hp 6 rfl]
  show opcode32 (field w 3 5) w = _
  rw [show field w 3 5 = 2 from field_at hw hp 1 rfl]
  show Except.ok (Instr.fcmpLt (field w 20 5) (field w 15 5) (field w 10 5) (field w 8 2) (field w 0 3)) = _
  rw [show field w 20 5 = p from field_at hw hp 5 rfl, show field w 15 5 = a from field_at hw hp 4 rfl, show field w 10 5 = b from field_at hw hp 3 rfl, show field w 8 2 = fmt from field_at hw hp 2 rfl, show field w 0 3 = g from field_at hw hp 0 rfl]

theorem fcmpLe (p a b fmt g : Nat) : Statement (.fcmpLe p a b fmt g) := by
  intro w hwf he
  have hr : ([.pred p, .source a, .source b, .field fmt 2, .field g 3] : List Operand).all Operand.fits = true := fits_of_wellFormed hwf
  simp only [List.all_cons, List.all_nil, Operand.fits, Bool.and_eq_true, decide_eq_true_eq, and_true] at hr
  have hp : ∀ seg ∈ ([(g, 3), (3, 5), (fmt, 2), (b, 5), (a, 5), (p, 5), (50, 7)] : List (Nat × Nat)), seg.1 < 2 ^ seg.2 := by simp; omega
  have hw : w = packed [(g, 3), (3, 5), (fmt, 2), (b, 5), (a, 5), (p, 5), (50, 7)] := by
    have e : place 0x64000018 [(p, 20), (a, 15), (b, 10), (fmt, 8), (g, 0)] = w := Option.some.inj he
    simp only [place, packed] at e ⊢; omega
  refine ⟨lt_of hw hp rfl, ?_⟩
  show byOpcode (field w 25 7) w = _
  rw [show field w 25 7 = 50 from field_at hw hp 6 rfl]
  show opcode32 (field w 3 5) w = _
  rw [show field w 3 5 = 3 from field_at hw hp 1 rfl]
  show Except.ok (Instr.fcmpLe (field w 20 5) (field w 15 5) (field w 10 5) (field w 8 2) (field w 0 3)) = _
  rw [show field w 20 5 = p from field_at hw hp 5 rfl, show field w 15 5 = a from field_at hw hp 4 rfl, show field w 10 5 = b from field_at hw hp 3 rfl, show field w 8 2 = fmt from field_at hw hp 2 rfl, show field w 0 3 = g from field_at hw hp 0 rfl]

theorem fcmpUn (p a b fmt g : Nat) : Statement (.fcmpUn p a b fmt g) := by
  intro w hwf he
  have hr : ([.pred p, .source a, .source b, .field fmt 2, .field g 3] : List Operand).all Operand.fits = true := fits_of_wellFormed hwf
  simp only [List.all_cons, List.all_nil, Operand.fits, Bool.and_eq_true, decide_eq_true_eq, and_true] at hr
  have hp : ∀ seg ∈ ([(g, 3), (4, 5), (fmt, 2), (b, 5), (a, 5), (p, 5), (50, 7)] : List (Nat × Nat)), seg.1 < 2 ^ seg.2 := by simp; omega
  have hw : w = packed [(g, 3), (4, 5), (fmt, 2), (b, 5), (a, 5), (p, 5), (50, 7)] := by
    have e : place 0x64000020 [(p, 20), (a, 15), (b, 10), (fmt, 8), (g, 0)] = w := Option.some.inj he
    simp only [place, packed] at e ⊢; omega
  refine ⟨lt_of hw hp rfl, ?_⟩
  show byOpcode (field w 25 7) w = _
  rw [show field w 25 7 = 50 from field_at hw hp 6 rfl]
  show opcode32 (field w 3 5) w = _
  rw [show field w 3 5 = 4 from field_at hw hp 1 rfl]
  show Except.ok (Instr.fcmpUn (field w 20 5) (field w 15 5) (field w 10 5) (field w 8 2) (field w 0 3)) = _
  rw [show field w 20 5 = p from field_at hw hp 5 rfl, show field w 15 5 = a from field_at hw hp 4 rfl, show field w 10 5 = b from field_at hw hp 3 rfl, show field w 8 2 = fmt from field_at hw hp 2 rfl, show field w 0 3 = g from field_at hw hp 0 rfl]

theorem fsqrt (d a g : Nat) : Statement (.fsqrt d a g) := by
  intro w hwf he
  have hr : ([.dest d, .source a, .field g 3] : List Operand).all Operand.fits = true := fits_of_wellFormed hwf
  simp only [List.all_cons, List.all_nil, Operand.fits, Bool.and_eq_true, decide_eq_true_eq, and_true] at hr
  have hp : ∀ seg ∈ ([(g, 3), (0, 7), (0, 5), (a, 5), (d, 5), (51, 7)] : List (Nat × Nat)), seg.1 < 2 ^ seg.2 := by simp; omega
  have hw : w = packed [(g, 3), (0, 7), (0, 5), (a, 5), (d, 5), (51, 7)] := by
    have e : place 0x66000000 [(d, 20), (a, 15), (g, 0)] = w := Option.some.inj he
    simp only [place, packed] at e ⊢; omega
  refine ⟨lt_of hw hp rfl, ?_⟩
  show byOpcode (field w 25 7) w = _
  rw [show field w 25 7 = 51 from field_at hw hp 5 rfl]
  show opcode33 (field w 3 7) w = _
  rw [show field w 3 7 = 0 from field_at hw hp 1 rfl]
  show Except.ok (Instr.fsqrt (field w 20 5) (field w 15 5) (field w 0 3)) = _
  rw [show field w 20 5 = d from field_at hw hp 4 rfl, show field w 15 5 = a from field_at hw hp 3 rfl, show field w 0 3 = g from field_at hw hp 0 rfl]

theorem rcp (d a g : Nat) : Statement (.rcp d a g) := by
  intro w hwf he
  have hr : ([.dest d, .source a, .field g 3] : List Operand).all Operand.fits = true := fits_of_wellFormed hwf
  simp only [List.all_cons, List.all_nil, Operand.fits, Bool.and_eq_true, decide_eq_true_eq, and_true] at hr
  have hp : ∀ seg ∈ ([(g, 3), (1, 7), (0, 5), (a, 5), (d, 5), (51, 7)] : List (Nat × Nat)), seg.1 < 2 ^ seg.2 := by simp; omega
  have hw : w = packed [(g, 3), (1, 7), (0, 5), (a, 5), (d, 5), (51, 7)] := by
    have e : place 0x66000008 [(d, 20), (a, 15), (g, 0)] = w := Option.some.inj he
    simp only [place, packed] at e ⊢; omega
  refine ⟨lt_of hw hp rfl, ?_⟩
  show byOpcode (field w 25 7) w = _
  rw [show field w 25 7 = 51 from field_at hw hp 5 rfl]
  show opcode33 (field w 3 7) w = _
  rw [show field w 3 7 = 1 from field_at hw hp 1 rfl]
  show Except.ok (Instr.rcp (field w 20 5) (field w 15 5) (field w 0 3)) = _
  rw [show field w 20 5 = d from field_at hw hp 4 rfl, show field w 15 5 = a from field_at hw hp 3 rfl, show field w 0 3 = g from field_at hw hp 0 rfl]

theorem rsqrt (d a g : Nat) : Statement (.rsqrt d a g) := by
  intro w hwf he
  have hr : ([.dest d, .source a, .field g 3] : List Operand).all Operand.fits = true := fits_of_wellFormed hwf
  simp only [List.all_cons, List.all_nil, Operand.fits, Bool.and_eq_true, decide_eq_true_eq, and_true] at hr
  have hp : ∀ seg ∈ ([(g, 3), (2, 7), (0, 5), (a, 5), (d, 5), (51, 7)] : List (Nat × Nat)), seg.1 < 2 ^ seg.2 := by simp; omega
  have hw : w = packed [(g, 3), (2, 7), (0, 5), (a, 5), (d, 5), (51, 7)] := by
    have e : place 0x66000010 [(d, 20), (a, 15), (g, 0)] = w := Option.some.inj he
    simp only [place, packed] at e ⊢; omega
  refine ⟨lt_of hw hp rfl, ?_⟩
  show byOpcode (field w 25 7) w = _
  rw [show field w 25 7 = 51 from field_at hw hp 5 rfl]
  show opcode33 (field w 3 7) w = _
  rw [show field w 3 7 = 2 from field_at hw hp 1 rfl]
  show Except.ok (Instr.rsqrt (field w 20 5) (field w 15 5) (field w 0 3)) = _
  rw [show field w 20 5 = d from field_at hw hp 4 rfl, show field w 15 5 = a from field_at hw hp 3 rfl, show field w 0 3 = g from field_at hw hp 0 rfl]

theorem exp2 (d a g : Nat) : Statement (.exp2 d a g) := by
  intro w hwf he
  have hr : ([.dest d, .source a, .field g 3] : List Operand).all Operand.fits = true := fits_of_wellFormed hwf
  simp only [List.all_cons, List.all_nil, Operand.fits, Bool.and_eq_true, decide_eq_true_eq, and_true] at hr
  have hp : ∀ seg ∈ ([(g, 3), (3, 7), (0, 5), (a, 5), (d, 5), (51, 7)] : List (Nat × Nat)), seg.1 < 2 ^ seg.2 := by simp; omega
  have hw : w = packed [(g, 3), (3, 7), (0, 5), (a, 5), (d, 5), (51, 7)] := by
    have e : place 0x66000018 [(d, 20), (a, 15), (g, 0)] = w := Option.some.inj he
    simp only [place, packed] at e ⊢; omega
  refine ⟨lt_of hw hp rfl, ?_⟩
  show byOpcode (field w 25 7) w = _
  rw [show field w 25 7 = 51 from field_at hw hp 5 rfl]
  show opcode33 (field w 3 7) w = _
  rw [show field w 3 7 = 3 from field_at hw hp 1 rfl]
  show Except.ok (Instr.exp2 (field w 20 5) (field w 15 5) (field w 0 3)) = _
  rw [show field w 20 5 = d from field_at hw hp 4 rfl, show field w 15 5 = a from field_at hw hp 3 rfl, show field w 0 3 = g from field_at hw hp 0 rfl]

theorem log2 (d a g : Nat) : Statement (.log2 d a g) := by
  intro w hwf he
  have hr : ([.dest d, .source a, .field g 3] : List Operand).all Operand.fits = true := fits_of_wellFormed hwf
  simp only [List.all_cons, List.all_nil, Operand.fits, Bool.and_eq_true, decide_eq_true_eq, and_true] at hr
  have hp : ∀ seg ∈ ([(g, 3), (4, 7), (0, 5), (a, 5), (d, 5), (51, 7)] : List (Nat × Nat)), seg.1 < 2 ^ seg.2 := by simp; omega
  have hw : w = packed [(g, 3), (4, 7), (0, 5), (a, 5), (d, 5), (51, 7)] := by
    have e : place 0x66000020 [(d, 20), (a, 15), (g, 0)] = w := Option.some.inj he
    simp only [place, packed] at e ⊢; omega
  refine ⟨lt_of hw hp rfl, ?_⟩
  show byOpcode (field w 25 7) w = _
  rw [show field w 25 7 = 51 from field_at hw hp 5 rfl]
  show opcode33 (field w 3 7) w = _
  rw [show field w 3 7 = 4 from field_at hw hp 1 rfl]
  show Except.ok (Instr.log2 (field w 20 5) (field w 15 5) (field w 0 3)) = _
  rw [show field w 20 5 = d from field_at hw hp 4 rfl, show field w 15 5 = a from field_at hw hp 3 rfl, show field w 0 3 = g from field_at hw hp 0 rfl]

theorem cvt (d a t u g : Nat) : Statement (.cvt d a t u g) := by
  intro w hwf he
  have hr : ([.dest d, .source a, .field t 3, .field u 3, .field g 3] : List Operand).all Operand.fits = true := fits_of_wellFormed hwf
  simp only [List.all_cons, List.all_nil, Operand.fits, Bool.and_eq_true, decide_eq_true_eq, and_true] at hr
  have hp : ∀ seg ∈ ([(g, 3), (0, 1), (u, 3), (t, 3), (0, 5), (a, 5), (d, 5), (52, 7)] : List (Nat × Nat)), seg.1 < 2 ^ seg.2 := by simp; omega
  have hw : w = packed [(g, 3), (0, 1), (u, 3), (t, 3), (0, 5), (a, 5), (d, 5), (52, 7)] := by
    have e : place 0x68000000 [(d, 20), (a, 15), (t, 7), (u, 4), (g, 0)] = w := Option.some.inj he
    simp only [place, packed] at e ⊢; omega
  refine ⟨lt_of hw hp rfl, ?_⟩
  show byOpcode (field w 25 7) w = _
  rw [show field w 25 7 = 52 from field_at hw hp 7 rfl]
  show opcode34 (field w 3 1) w = _
  rw [show field w 3 1 = 0 from field_at hw hp 1 rfl]
  show Except.ok (Instr.cvt (field w 20 5) (field w 15 5) (field w 7 3) (field w 4 3) (field w 0 3)) = _
  rw [show field w 20 5 = d from field_at hw hp 6 rfl, show field w 15 5 = a from field_at hw hp 5 rfl, show field w 7 3 = t from field_at hw hp 3 rfl, show field w 4 3 = u from field_at hw hp 2 rfl, show field w 0 3 = g from field_at hw hp 0 rfl]

theorem cvto (d a t u g : Nat) : Statement (.cvto d a t u g) := by
  intro w hwf he
  have hr : ([.dest d, .source a, .field t 3, .field u 3, .field g 3] : List Operand).all Operand.fits = true := fits_of_wellFormed hwf
  simp only [List.all_cons, List.all_nil, Operand.fits, Bool.and_eq_true, decide_eq_true_eq, and_true] at hr
  have hp : ∀ seg ∈ ([(g, 3), (1, 1), (u, 3), (t, 3), (0, 5), (a, 5), (d, 5), (52, 7)] : List (Nat × Nat)), seg.1 < 2 ^ seg.2 := by simp; omega
  have hw : w = packed [(g, 3), (1, 1), (u, 3), (t, 3), (0, 5), (a, 5), (d, 5), (52, 7)] := by
    have e : place 0x68000008 [(d, 20), (a, 15), (t, 7), (u, 4), (g, 0)] = w := Option.some.inj he
    simp only [place, packed] at e ⊢; omega
  refine ⟨lt_of hw hp rfl, ?_⟩
  show byOpcode (field w 25 7) w = _
  rw [show field w 25 7 = 52 from field_at hw hp 7 rfl]
  show opcode34 (field w 3 1) w = _
  rw [show field w 3 1 = 1 from field_at hw hp 1 rfl]
  show Except.ok (Instr.cvto (field w 20 5) (field w 15 5) (field w 7 3) (field w 4 3) (field w 0 3)) = _
  rw [show field w 20 5 = d from field_at hw hp 6 rfl, show field w 15 5 = a from field_at hw hp 5 rfl, show field w 7 3 = t from field_at hw hp 3 rfl, show field w 4 3 = u from field_at hw hp 2 rfl, show field w 0 3 = g from field_at hw hp 0 rfl]

theorem xacc (a b fmt g : Nat) : Statement (.xacc a b fmt g) := by
  intro w hwf he
  have hr : ([.source a, .source b, .field fmt 2, .field g 3] : List Operand).all Operand.fits = true := fits_of_wellFormed hwf
  simp only [List.all_cons, List.all_nil, Operand.fits, Bool.and_eq_true, decide_eq_true_eq, and_true] at hr
  have hp : ∀ seg ∈ ([(g, 3), (0, 5), (fmt, 2), (b, 5), (a, 5), (0, 5), (53, 7)] : List (Nat × Nat)), seg.1 < 2 ^ seg.2 := by simp; omega
  have hw : w = packed [(g, 3), (0, 5), (fmt, 2), (b, 5), (a, 5), (0, 5), (53, 7)] := by
    have e : place 0x6a000000 [(a, 15), (b, 10), (fmt, 8), (g, 0)] = w := Option.some.inj he
    simp only [place, packed] at e ⊢; omega
  refine ⟨lt_of hw hp rfl, ?_⟩
  show byOpcode (field w 25 7) w = _
  rw [show field w 25 7 = 53 from field_at hw hp 6 rfl]
  show opcode35 (field w 3 5) w = _
  rw [show field w 3 5 = 0 from field_at hw hp 1 rfl]
  show Except.ok (Instr.xacc (field w 15 5) (field w 10 5) (field w 8 2) (field w 0 3)) = _
  rw [show field w 15 5 = a from field_at hw hp 4 rfl, show field w 10 5 = b from field_at hw hp 3 rfl, show field w 8 2 = fmt from field_at hw hp 2 rfl, show field w 0 3 = g from field_at hw hp 0 rfl]

theorem xaccp (a b fmt g : Nat) : Statement (.xaccp a b fmt g) := by
  intro w hwf he
  have hr : ([.source a, .source b, .field fmt 2, .field g 3] : List Operand).all Operand.fits = true := fits_of_wellFormed hwf
  simp only [List.all_cons, List.all_nil, Operand.fits, Bool.and_eq_true, decide_eq_true_eq, and_true] at hr
  have hp : ∀ seg ∈ ([(g, 3), (1, 5), (fmt, 2), (b, 5), (a, 5), (0, 5), (53, 7)] : List (Nat × Nat)), seg.1 < 2 ^ seg.2 := by simp; omega
  have hw : w = packed [(g, 3), (1, 5), (fmt, 2), (b, 5), (a, 5), (0, 5), (53, 7)] := by
    have e : place 0x6a000008 [(a, 15), (b, 10), (fmt, 8), (g, 0)] = w := Option.some.inj he
    simp only [place, packed] at e ⊢; omega
  refine ⟨lt_of hw hp rfl, ?_⟩
  show byOpcode (field w 25 7) w = _
  rw [show field w 25 7 = 53 from field_at hw hp 6 rfl]
  show opcode35 (field w 3 5) w = _
  rw [show field w 3 5 = 1 from field_at hw hp 1 rfl]
  show Except.ok (Instr.xaccp (field w 15 5) (field w 10 5) (field w 8 2) (field w 0 3)) = _
  rw [show field w 15 5 = a from field_at hw hp 4 rfl, show field w 10 5 = b from field_at hw hp 3 rfl, show field w 8 2 = fmt from field_at hw hp 2 rfl, show field w 0 3 = g from field_at hw hp 0 rfl]

theorem xrnd (d a fmt g : Nat) : Statement (.xrnd d a fmt g) := by
  intro w hwf he
  have hr : ([.dest d, .source a, .field fmt 2, .field g 3] : List Operand).all Operand.fits = true := fits_of_wellFormed hwf
  simp only [List.all_cons, List.all_nil, Operand.fits, Bool.and_eq_true, decide_eq_true_eq, and_true] at hr
  have hp : ∀ seg ∈ ([(g, 3), (2, 5), (fmt, 2), (0, 5), (a, 5), (d, 5), (53, 7)] : List (Nat × Nat)), seg.1 < 2 ^ seg.2 := by simp; omega
  have hw : w = packed [(g, 3), (2, 5), (fmt, 2), (0, 5), (a, 5), (d, 5), (53, 7)] := by
    have e : place 0x6a000010 [(d, 20), (a, 15), (fmt, 8), (g, 0)] = w := Option.some.inj he
    simp only [place, packed] at e ⊢; omega
  refine ⟨lt_of hw hp rfl, ?_⟩
  show byOpcode (field w 25 7) w = _
  rw [show field w 25 7 = 53 from field_at hw hp 6 rfl]
  show opcode35 (field w 3 5) w = _
  rw [show field w 3 5 = 2 from field_at hw hp 1 rfl]
  show Except.ok (Instr.xrnd (field w 20 5) (field w 15 5) (field w 8 2) (field w 0 3)) = _
  rw [show field w 20 5 = d from field_at hw hp 5 rfl, show field w 15 5 = a from field_at hw hp 4 rfl, show field w 8 2 = fmt from field_at hw hp 2 rfl, show field w 0 3 = g from field_at hw hp 0 rfl]

theorem xmrg (a b g : Nat) : Statement (.xmrg a b g) := by
  intro w hwf he
  have hr : ([.source a, .source b, .field g 3] : List Operand).all Operand.fits = true := fits_of_wellFormed hwf
  simp only [List.all_cons, List.all_nil, Operand.fits, Bool.and_eq_true, decide_eq_true_eq, and_true] at hr
  have hp : ∀ seg ∈ ([(g, 3), (3, 5), (0, 2), (b, 5), (a, 5), (0, 5), (53, 7)] : List (Nat × Nat)), seg.1 < 2 ^ seg.2 := by simp; omega
  have hw : w = packed [(g, 3), (3, 5), (0, 2), (b, 5), (a, 5), (0, 5), (53, 7)] := by
    have e : place 0x6a000018 [(a, 15), (b, 10), (g, 0)] = w := Option.some.inj he
    simp only [place, packed] at e ⊢; omega
  refine ⟨lt_of hw hp rfl, ?_⟩
  show byOpcode (field w 25 7) w = _
  rw [show field w 25 7 = 53 from field_at hw hp 6 rfl]
  show opcode35 (field w 3 5) w = _
  rw [show field w 3 5 = 3 from field_at hw hp 1 rfl]
  have c0 : field w 15 5 = a := field_at hw hp 4 rfl
  have c1 : field w 10 5 = b := field_at hw hp 3 rfl
  have c2 : field w 0 3 = g := field_at hw hp 0 rfl
  have c3 : field w 8 2 = 0 := field_at hw hp 2 rfl
  simp [opcode35, c0, c1, c2, c3]

theorem xclr (a g : Nat) : Statement (.xclr a g) := by
  intro w hwf he
  have hr : ([.source a, .field g 3] : List Operand).all Operand.fits = true := fits_of_wellFormed hwf
  simp only [List.all_cons, List.all_nil, Operand.fits, Bool.and_eq_true, decide_eq_true_eq, and_true] at hr
  have hp : ∀ seg ∈ ([(g, 3), (4, 5), (0, 2), (0, 5), (a, 5), (0, 5), (53, 7)] : List (Nat × Nat)), seg.1 < 2 ^ seg.2 := by simp; omega
  have hw : w = packed [(g, 3), (4, 5), (0, 2), (0, 5), (a, 5), (0, 5), (53, 7)] := by
    have e : place 0x6a000020 [(a, 15), (g, 0)] = w := Option.some.inj he
    simp only [place, packed] at e ⊢; omega
  refine ⟨lt_of hw hp rfl, ?_⟩
  show byOpcode (field w 25 7) w = _
  rw [show field w 25 7 = 53 from field_at hw hp 6 rfl]
  show opcode35 (field w 3 5) w = _
  rw [show field w 3 5 = 4 from field_at hw hp 1 rfl]
  have c0 : field w 15 5 = a := field_at hw hp 4 rfl
  have c1 : field w 0 3 = g := field_at hw hp 0 rfl
  have c2 : field w 8 2 = 0 := field_at hw hp 2 rfl
  simp [opcode35, c0, c1, c2]

theorem fli (d imm : Nat) : Statement (.fli d imm) := by
  intro w hwf he
  have hr : ([.dest d, .field imm 20] : List Operand).all Operand.fits = true := fits_of_wellFormed hwf
  simp only [List.all_cons, List.all_nil, Operand.fits, Bool.and_eq_true, decide_eq_true_eq, and_true] at hr
  have hp : ∀ seg ∈ ([(imm, 20), (d, 5), (54, 7)] : List (Nat × Nat)), seg.1 < 2 ^ seg.2 := by simp; omega
  have hw : w = packed [(imm, 20), (d, 5), (54, 7)] := by
    have e : place 0x6c000000 [(d, 20), (imm, 0)] = w := Option.some.inj he
    simp only [place, packed] at e ⊢; omega
  refine ⟨lt_of hw hp rfl, ?_⟩
  show byOpcode (field w 25 7) w = _
  rw [show field w 25 7 = 54 from field_at hw hp 2 rfl]
  show Except.ok (Instr.fli (field w 20 5) (field w 0 20)) = _
  rw [show field w 20 5 = d from field_at hw hp 1 rfl, show field w 0 20 = imm from field_at hw hp 0 rfl]

theorem vadd (d a b sz sgn g : Nat) : Statement (.vadd d a b sz sgn g) := by
  intro w hwf he
  have hr : ([.wide d, .wide a, .wide b, .field sz 2, .field sgn 1, .field g 3] : List Operand).all Operand.fits = true := fits_of_wellFormed hwf
  simp only [List.all_cons, List.all_nil, Operand.fits, Bool.and_eq_true, decide_eq_true_eq, and_true] at hr
  have hp : ∀ seg ∈ ([(g, 3), (0, 4), (sgn, 1), (sz, 2), (b, 5), (a, 5), (d, 5), (56, 7)] : List (Nat × Nat)), seg.1 < 2 ^ seg.2 := by simp; omega
  have hw : w = packed [(g, 3), (0, 4), (sgn, 1), (sz, 2), (b, 5), (a, 5), (d, 5), (56, 7)] := by
    have e : place 0x70000000 [(d, 20), (a, 15), (b, 10), (sz, 8), (sgn, 7), (g, 0)] = w := Option.some.inj he
    simp only [place, packed] at e ⊢; omega
  refine ⟨lt_of hw hp rfl, ?_⟩
  show byOpcode (field w 25 7) w = _
  rw [show field w 25 7 = 56 from field_at hw hp 7 rfl]
  show opcode38 (field w 3 4) w = _
  rw [show field w 3 4 = 0 from field_at hw hp 1 rfl]
  show Except.ok (Instr.vadd (field w 20 5) (field w 15 5) (field w 10 5) (field w 8 2) (field w 7 1) (field w 0 3)) = _
  rw [show field w 20 5 = d from field_at hw hp 6 rfl, show field w 15 5 = a from field_at hw hp 5 rfl, show field w 10 5 = b from field_at hw hp 4 rfl, show field w 8 2 = sz from field_at hw hp 3 rfl, show field w 7 1 = sgn from field_at hw hp 2 rfl, show field w 0 3 = g from field_at hw hp 0 rfl]

theorem vsub (d a b sz sgn g : Nat) : Statement (.vsub d a b sz sgn g) := by
  intro w hwf he
  have hr : ([.wide d, .wide a, .wide b, .field sz 2, .field sgn 1, .field g 3] : List Operand).all Operand.fits = true := fits_of_wellFormed hwf
  simp only [List.all_cons, List.all_nil, Operand.fits, Bool.and_eq_true, decide_eq_true_eq, and_true] at hr
  have hp : ∀ seg ∈ ([(g, 3), (1, 4), (sgn, 1), (sz, 2), (b, 5), (a, 5), (d, 5), (56, 7)] : List (Nat × Nat)), seg.1 < 2 ^ seg.2 := by simp; omega
  have hw : w = packed [(g, 3), (1, 4), (sgn, 1), (sz, 2), (b, 5), (a, 5), (d, 5), (56, 7)] := by
    have e : place 0x70000008 [(d, 20), (a, 15), (b, 10), (sz, 8), (sgn, 7), (g, 0)] = w := Option.some.inj he
    simp only [place, packed] at e ⊢; omega
  refine ⟨lt_of hw hp rfl, ?_⟩
  show byOpcode (field w 25 7) w = _
  rw [show field w 25 7 = 56 from field_at hw hp 7 rfl]
  show opcode38 (field w 3 4) w = _
  rw [show field w 3 4 = 1 from field_at hw hp 1 rfl]
  show Except.ok (Instr.vsub (field w 20 5) (field w 15 5) (field w 10 5) (field w 8 2) (field w 7 1) (field w 0 3)) = _
  rw [show field w 20 5 = d from field_at hw hp 6 rfl, show field w 15 5 = a from field_at hw hp 5 rfl, show field w 10 5 = b from field_at hw hp 4 rfl, show field w 8 2 = sz from field_at hw hp 3 rfl, show field w 7 1 = sgn from field_at hw hp 2 rfl, show field w 0 3 = g from field_at hw hp 0 rfl]

theorem vand (d a b sz sgn g : Nat) : Statement (.vand d a b sz sgn g) := by
  intro w hwf he
  have hr : ([.wide d, .wide a, .wide b, .field sz 2, .field sgn 1, .field g 3] : List Operand).all Operand.fits = true := fits_of_wellFormed hwf
  simp only [List.all_cons, List.all_nil, Operand.fits, Bool.and_eq_true, decide_eq_true_eq, and_true] at hr
  have hp : ∀ seg ∈ ([(g, 3), (2, 4), (sgn, 1), (sz, 2), (b, 5), (a, 5), (d, 5), (56, 7)] : List (Nat × Nat)), seg.1 < 2 ^ seg.2 := by simp; omega
  have hw : w = packed [(g, 3), (2, 4), (sgn, 1), (sz, 2), (b, 5), (a, 5), (d, 5), (56, 7)] := by
    have e : place 0x70000010 [(d, 20), (a, 15), (b, 10), (sz, 8), (sgn, 7), (g, 0)] = w := Option.some.inj he
    simp only [place, packed] at e ⊢; omega
  refine ⟨lt_of hw hp rfl, ?_⟩
  show byOpcode (field w 25 7) w = _
  rw [show field w 25 7 = 56 from field_at hw hp 7 rfl]
  show opcode38 (field w 3 4) w = _
  rw [show field w 3 4 = 2 from field_at hw hp 1 rfl]
  show Except.ok (Instr.vand (field w 20 5) (field w 15 5) (field w 10 5) (field w 8 2) (field w 7 1) (field w 0 3)) = _
  rw [show field w 20 5 = d from field_at hw hp 6 rfl, show field w 15 5 = a from field_at hw hp 5 rfl, show field w 10 5 = b from field_at hw hp 4 rfl, show field w 8 2 = sz from field_at hw hp 3 rfl, show field w 7 1 = sgn from field_at hw hp 2 rfl, show field w 0 3 = g from field_at hw hp 0 rfl]

theorem vor (d a b sz sgn g : Nat) : Statement (.vor d a b sz sgn g) := by
  intro w hwf he
  have hr : ([.wide d, .wide a, .wide b, .field sz 2, .field sgn 1, .field g 3] : List Operand).all Operand.fits = true := fits_of_wellFormed hwf
  simp only [List.all_cons, List.all_nil, Operand.fits, Bool.and_eq_true, decide_eq_true_eq, and_true] at hr
  have hp : ∀ seg ∈ ([(g, 3), (3, 4), (sgn, 1), (sz, 2), (b, 5), (a, 5), (d, 5), (56, 7)] : List (Nat × Nat)), seg.1 < 2 ^ seg.2 := by simp; omega
  have hw : w = packed [(g, 3), (3, 4), (sgn, 1), (sz, 2), (b, 5), (a, 5), (d, 5), (56, 7)] := by
    have e : place 0x70000018 [(d, 20), (a, 15), (b, 10), (sz, 8), (sgn, 7), (g, 0)] = w := Option.some.inj he
    simp only [place, packed] at e ⊢; omega
  refine ⟨lt_of hw hp rfl, ?_⟩
  show byOpcode (field w 25 7) w = _
  rw [show field w 25 7 = 56 from field_at hw hp 7 rfl]
  show opcode38 (field w 3 4) w = _
  rw [show field w 3 4 = 3 from field_at hw hp 1 rfl]
  show Except.ok (Instr.vor (field w 20 5) (field w 15 5) (field w 10 5) (field w 8 2) (field w 7 1) (field w 0 3)) = _
  rw [show field w 20 5 = d from field_at hw hp 6 rfl, show field w 15 5 = a from field_at hw hp 5 rfl, show field w 10 5 = b from field_at hw hp 4 rfl, show field w 8 2 = sz from field_at hw hp 3 rfl, show field w 7 1 = sgn from field_at hw hp 2 rfl, show field w 0 3 = g from field_at hw hp 0 rfl]

theorem vxor (d a b sz sgn g : Nat) : Statement (.vxor d a b sz sgn g) := by
  intro w hwf he
  have hr : ([.wide d, .wide a, .wide b, .field sz 2, .field sgn 1, .field g 3] : List Operand).all Operand.fits = true := fits_of_wellFormed hwf
  simp only [List.all_cons, List.all_nil, Operand.fits, Bool.and_eq_true, decide_eq_true_eq, and_true] at hr
  have hp : ∀ seg ∈ ([(g, 3), (4, 4), (sgn, 1), (sz, 2), (b, 5), (a, 5), (d, 5), (56, 7)] : List (Nat × Nat)), seg.1 < 2 ^ seg.2 := by simp; omega
  have hw : w = packed [(g, 3), (4, 4), (sgn, 1), (sz, 2), (b, 5), (a, 5), (d, 5), (56, 7)] := by
    have e : place 0x70000020 [(d, 20), (a, 15), (b, 10), (sz, 8), (sgn, 7), (g, 0)] = w := Option.some.inj he
    simp only [place, packed] at e ⊢; omega
  refine ⟨lt_of hw hp rfl, ?_⟩
  show byOpcode (field w 25 7) w = _
  rw [show field w 25 7 = 56 from field_at hw hp 7 rfl]
  show opcode38 (field w 3 4) w = _
  rw [show field w 3 4 = 4 from field_at hw hp 1 rfl]
  show Except.ok (Instr.vxor (field w 20 5) (field w 15 5) (field w 10 5) (field w 8 2) (field w 7 1) (field w 0 3)) = _
  rw [show field w 20 5 = d from field_at hw hp 6 rfl, show field w 15 5 = a from field_at hw hp 5 rfl, show field w 10 5 = b from field_at hw hp 4 rfl, show field w 8 2 = sz from field_at hw hp 3 rfl, show field w 7 1 = sgn from field_at hw hp 2 rfl, show field w 0 3 = g from field_at hw hp 0 rfl]

theorem vandn (d a b sz sgn g : Nat) : Statement (.vandn d a b sz sgn g) := by
  intro w hwf he
  have hr : ([.wide d, .wide a, .wide b, .field sz 2, .field sgn 1, .field g 3] : List Operand).all Operand.fits = true := fits_of_wellFormed hwf
  simp only [List.all_cons, List.all_nil, Operand.fits, Bool.and_eq_true, decide_eq_true_eq, and_true] at hr
  have hp : ∀ seg ∈ ([(g, 3), (5, 4), (sgn, 1), (sz, 2), (b, 5), (a, 5), (d, 5), (56, 7)] : List (Nat × Nat)), seg.1 < 2 ^ seg.2 := by simp; omega
  have hw : w = packed [(g, 3), (5, 4), (sgn, 1), (sz, 2), (b, 5), (a, 5), (d, 5), (56, 7)] := by
    have e : place 0x70000028 [(d, 20), (a, 15), (b, 10), (sz, 8), (sgn, 7), (g, 0)] = w := Option.some.inj he
    simp only [place, packed] at e ⊢; omega
  refine ⟨lt_of hw hp rfl, ?_⟩
  show byOpcode (field w 25 7) w = _
  rw [show field w 25 7 = 56 from field_at hw hp 7 rfl]
  show opcode38 (field w 3 4) w = _
  rw [show field w 3 4 = 5 from field_at hw hp 1 rfl]
  show Except.ok (Instr.vandn (field w 20 5) (field w 15 5) (field w 10 5) (field w 8 2) (field w 7 1) (field w 0 3)) = _
  rw [show field w 20 5 = d from field_at hw hp 6 rfl, show field w 15 5 = a from field_at hw hp 5 rfl, show field w 10 5 = b from field_at hw hp 4 rfl, show field w 8 2 = sz from field_at hw hp 3 rfl, show field w 7 1 = sgn from field_at hw hp 2 rfl, show field w 0 3 = g from field_at hw hp 0 rfl]

theorem vorn (d a b sz sgn g : Nat) : Statement (.vorn d a b sz sgn g) := by
  intro w hwf he
  have hr : ([.wide d, .wide a, .wide b, .field sz 2, .field sgn 1, .field g 3] : List Operand).all Operand.fits = true := fits_of_wellFormed hwf
  simp only [List.all_cons, List.all_nil, Operand.fits, Bool.and_eq_true, decide_eq_true_eq, and_true] at hr
  have hp : ∀ seg ∈ ([(g, 3), (6, 4), (sgn, 1), (sz, 2), (b, 5), (a, 5), (d, 5), (56, 7)] : List (Nat × Nat)), seg.1 < 2 ^ seg.2 := by simp; omega
  have hw : w = packed [(g, 3), (6, 4), (sgn, 1), (sz, 2), (b, 5), (a, 5), (d, 5), (56, 7)] := by
    have e : place 0x70000030 [(d, 20), (a, 15), (b, 10), (sz, 8), (sgn, 7), (g, 0)] = w := Option.some.inj he
    simp only [place, packed] at e ⊢; omega
  refine ⟨lt_of hw hp rfl, ?_⟩
  show byOpcode (field w 25 7) w = _
  rw [show field w 25 7 = 56 from field_at hw hp 7 rfl]
  show opcode38 (field w 3 4) w = _
  rw [show field w 3 4 = 6 from field_at hw hp 1 rfl]
  show Except.ok (Instr.vorn (field w 20 5) (field w 15 5) (field w 10 5) (field w 8 2) (field w 7 1) (field w 0 3)) = _
  rw [show field w 20 5 = d from field_at hw hp 6 rfl, show field w 15 5 = a from field_at hw hp 5 rfl, show field w 10 5 = b from field_at hw hp 4 rfl, show field w 8 2 = sz from field_at hw hp 3 rfl, show field w 7 1 = sgn from field_at hw hp 2 rfl, show field w 0 3 = g from field_at hw hp 0 rfl]

theorem vxnor (d a b sz sgn g : Nat) : Statement (.vxnor d a b sz sgn g) := by
  intro w hwf he
  have hr : ([.wide d, .wide a, .wide b, .field sz 2, .field sgn 1, .field g 3] : List Operand).all Operand.fits = true := fits_of_wellFormed hwf
  simp only [List.all_cons, List.all_nil, Operand.fits, Bool.and_eq_true, decide_eq_true_eq, and_true] at hr
  have hp : ∀ seg ∈ ([(g, 3), (7, 4), (sgn, 1), (sz, 2), (b, 5), (a, 5), (d, 5), (56, 7)] : List (Nat × Nat)), seg.1 < 2 ^ seg.2 := by simp; omega
  have hw : w = packed [(g, 3), (7, 4), (sgn, 1), (sz, 2), (b, 5), (a, 5), (d, 5), (56, 7)] := by
    have e : place 0x70000038 [(d, 20), (a, 15), (b, 10), (sz, 8), (sgn, 7), (g, 0)] = w := Option.some.inj he
    simp only [place, packed] at e ⊢; omega
  refine ⟨lt_of hw hp rfl, ?_⟩
  show byOpcode (field w 25 7) w = _
  rw [show field w 25 7 = 56 from field_at hw hp 7 rfl]
  show opcode38 (field w 3 4) w = _
  rw [show field w 3 4 = 7 from field_at hw hp 1 rfl]
  show Except.ok (Instr.vxnor (field w 20 5) (field w 15 5) (field w 10 5) (field w 8 2) (field w 7 1) (field w 0 3)) = _
  rw [show field w 20 5 = d from field_at hw hp 6 rfl, show field w 15 5 = a from field_at hw hp 5 rfl, show field w 10 5 = b from field_at hw hp 4 rfl, show field w 8 2 = sz from field_at hw hp 3 rfl, show field w 7 1 = sgn from field_at hw hp 2 rfl, show field w 0 3 = g from field_at hw hp 0 rfl]

theorem vshl (d a b sz sgn g : Nat) : Statement (.vshl d a b sz sgn g) := by
  intro w hwf he
  have hr : ([.wide d, .wide a, .wide b, .field sz 2, .field sgn 1, .field g 3] : List Operand).all Operand.fits = true := fits_of_wellFormed hwf
  simp only [List.all_cons, List.all_nil, Operand.fits, Bool.and_eq_true, decide_eq_true_eq, and_true] at hr
  have hp : ∀ seg ∈ ([(g, 3), (8, 4), (sgn, 1), (sz, 2), (b, 5), (a, 5), (d, 5), (56, 7)] : List (Nat × Nat)), seg.1 < 2 ^ seg.2 := by simp; omega
  have hw : w = packed [(g, 3), (8, 4), (sgn, 1), (sz, 2), (b, 5), (a, 5), (d, 5), (56, 7)] := by
    have e : place 0x70000040 [(d, 20), (a, 15), (b, 10), (sz, 8), (sgn, 7), (g, 0)] = w := Option.some.inj he
    simp only [place, packed] at e ⊢; omega
  refine ⟨lt_of hw hp rfl, ?_⟩
  show byOpcode (field w 25 7) w = _
  rw [show field w 25 7 = 56 from field_at hw hp 7 rfl]
  show opcode38 (field w 3 4) w = _
  rw [show field w 3 4 = 8 from field_at hw hp 1 rfl]
  show Except.ok (Instr.vshl (field w 20 5) (field w 15 5) (field w 10 5) (field w 8 2) (field w 7 1) (field w 0 3)) = _
  rw [show field w 20 5 = d from field_at hw hp 6 rfl, show field w 15 5 = a from field_at hw hp 5 rfl, show field w 10 5 = b from field_at hw hp 4 rfl, show field w 8 2 = sz from field_at hw hp 3 rfl, show field w 7 1 = sgn from field_at hw hp 2 rfl, show field w 0 3 = g from field_at hw hp 0 rfl]

theorem vshr (d a b sz sgn g : Nat) : Statement (.vshr d a b sz sgn g) := by
  intro w hwf he
  have hr : ([.wide d, .wide a, .wide b, .field sz 2, .field sgn 1, .field g 3] : List Operand).all Operand.fits = true := fits_of_wellFormed hwf
  simp only [List.all_cons, List.all_nil, Operand.fits, Bool.and_eq_true, decide_eq_true_eq, and_true] at hr
  have hp : ∀ seg ∈ ([(g, 3), (9, 4), (sgn, 1), (sz, 2), (b, 5), (a, 5), (d, 5), (56, 7)] : List (Nat × Nat)), seg.1 < 2 ^ seg.2 := by simp; omega
  have hw : w = packed [(g, 3), (9, 4), (sgn, 1), (sz, 2), (b, 5), (a, 5), (d, 5), (56, 7)] := by
    have e : place 0x70000048 [(d, 20), (a, 15), (b, 10), (sz, 8), (sgn, 7), (g, 0)] = w := Option.some.inj he
    simp only [place, packed] at e ⊢; omega
  refine ⟨lt_of hw hp rfl, ?_⟩
  show byOpcode (field w 25 7) w = _
  rw [show field w 25 7 = 56 from field_at hw hp 7 rfl]
  show opcode38 (field w 3 4) w = _
  rw [show field w 3 4 = 9 from field_at hw hp 1 rfl]
  show Except.ok (Instr.vshr (field w 20 5) (field w 15 5) (field w 10 5) (field w 8 2) (field w 7 1) (field w 0 3)) = _
  rw [show field w 20 5 = d from field_at hw hp 6 rfl, show field w 15 5 = a from field_at hw hp 5 rfl, show field w 10 5 = b from field_at hw hp 4 rfl, show field w 8 2 = sz from field_at hw hp 3 rfl, show field w 7 1 = sgn from field_at hw hp 2 rfl, show field w 0 3 = g from field_at hw hp 0 rfl]

theorem vsra (d a b sz sgn g : Nat) : Statement (.vsra d a b sz sgn g) := by
  intro w hwf he
  have hr : ([.wide d, .wide a, .wide b, .field sz 2, .field sgn 1, .field g 3] : List Operand).all Operand.fits = true := fits_of_wellFormed hwf
  simp only [List.all_cons, List.all_nil, Operand.fits, Bool.and_eq_true, decide_eq_true_eq, and_true] at hr
  have hp : ∀ seg ∈ ([(g, 3), (10, 4), (sgn, 1), (sz, 2), (b, 5), (a, 5), (d, 5), (56, 7)] : List (Nat × Nat)), seg.1 < 2 ^ seg.2 := by simp; omega
  have hw : w = packed [(g, 3), (10, 4), (sgn, 1), (sz, 2), (b, 5), (a, 5), (d, 5), (56, 7)] := by
    have e : place 0x70000050 [(d, 20), (a, 15), (b, 10), (sz, 8), (sgn, 7), (g, 0)] = w := Option.some.inj he
    simp only [place, packed] at e ⊢; omega
  refine ⟨lt_of hw hp rfl, ?_⟩
  show byOpcode (field w 25 7) w = _
  rw [show field w 25 7 = 56 from field_at hw hp 7 rfl]
  show opcode38 (field w 3 4) w = _
  rw [show field w 3 4 = 10 from field_at hw hp 1 rfl]
  show Except.ok (Instr.vsra (field w 20 5) (field w 15 5) (field w 10 5) (field w 8 2) (field w 7 1) (field w 0 3)) = _
  rw [show field w 20 5 = d from field_at hw hp 6 rfl, show field w 15 5 = a from field_at hw hp 5 rfl, show field w 10 5 = b from field_at hw hp 4 rfl, show field w 8 2 = sz from field_at hw hp 3 rfl, show field w 7 1 = sgn from field_at hw hp 2 rfl, show field w 0 3 = g from field_at hw hp 0 rfl]

theorem vrol (d a b sz sgn g : Nat) : Statement (.vrol d a b sz sgn g) := by
  intro w hwf he
  have hr : ([.wide d, .wide a, .wide b, .field sz 2, .field sgn 1, .field g 3] : List Operand).all Operand.fits = true := fits_of_wellFormed hwf
  simp only [List.all_cons, List.all_nil, Operand.fits, Bool.and_eq_true, decide_eq_true_eq, and_true] at hr
  have hp : ∀ seg ∈ ([(g, 3), (11, 4), (sgn, 1), (sz, 2), (b, 5), (a, 5), (d, 5), (56, 7)] : List (Nat × Nat)), seg.1 < 2 ^ seg.2 := by simp; omega
  have hw : w = packed [(g, 3), (11, 4), (sgn, 1), (sz, 2), (b, 5), (a, 5), (d, 5), (56, 7)] := by
    have e : place 0x70000058 [(d, 20), (a, 15), (b, 10), (sz, 8), (sgn, 7), (g, 0)] = w := Option.some.inj he
    simp only [place, packed] at e ⊢; omega
  refine ⟨lt_of hw hp rfl, ?_⟩
  show byOpcode (field w 25 7) w = _
  rw [show field w 25 7 = 56 from field_at hw hp 7 rfl]
  show opcode38 (field w 3 4) w = _
  rw [show field w 3 4 = 11 from field_at hw hp 1 rfl]
  show Except.ok (Instr.vrol (field w 20 5) (field w 15 5) (field w 10 5) (field w 8 2) (field w 7 1) (field w 0 3)) = _
  rw [show field w 20 5 = d from field_at hw hp 6 rfl, show field w 15 5 = a from field_at hw hp 5 rfl, show field w 10 5 = b from field_at hw hp 4 rfl, show field w 8 2 = sz from field_at hw hp 3 rfl, show field w 7 1 = sgn from field_at hw hp 2 rfl, show field w 0 3 = g from field_at hw hp 0 rfl]

theorem vror (d a b sz sgn g : Nat) : Statement (.vror d a b sz sgn g) := by
  intro w hwf he
  have hr : ([.wide d, .wide a, .wide b, .field sz 2, .field sgn 1, .field g 3] : List Operand).all Operand.fits = true := fits_of_wellFormed hwf
  simp only [List.all_cons, List.all_nil, Operand.fits, Bool.and_eq_true, decide_eq_true_eq, and_true] at hr
  have hp : ∀ seg ∈ ([(g, 3), (12, 4), (sgn, 1), (sz, 2), (b, 5), (a, 5), (d, 5), (56, 7)] : List (Nat × Nat)), seg.1 < 2 ^ seg.2 := by simp; omega
  have hw : w = packed [(g, 3), (12, 4), (sgn, 1), (sz, 2), (b, 5), (a, 5), (d, 5), (56, 7)] := by
    have e : place 0x70000060 [(d, 20), (a, 15), (b, 10), (sz, 8), (sgn, 7), (g, 0)] = w := Option.some.inj he
    simp only [place, packed] at e ⊢; omega
  refine ⟨lt_of hw hp rfl, ?_⟩
  show byOpcode (field w 25 7) w = _
  rw [show field w 25 7 = 56 from field_at hw hp 7 rfl]
  show opcode38 (field w 3 4) w = _
  rw [show field w 3 4 = 12 from field_at hw hp 1 rfl]
  show Except.ok (Instr.vror (field w 20 5) (field w 15 5) (field w 10 5) (field w 8 2) (field w 7 1) (field w 0 3)) = _
  rw [show field w 20 5 = d from field_at hw hp 6 rfl, show field w 15 5 = a from field_at hw hp 5 rfl, show field w 10 5 = b from field_at hw hp 4 rfl, show field w 8 2 = sz from field_at hw hp 3 rfl, show field w 7 1 = sgn from field_at hw hp 2 rfl, show field w 0 3 = g from field_at hw hp 0 rfl]

theorem vadds (d a b sz sgn g : Nat) : Statement (.vadds d a b sz sgn g) := by
  intro w hwf he
  have hr : ([.wide d, .wide a, .wide b, .field sz 2, .field sgn 1, .field g 3] : List Operand).all Operand.fits = true := fits_of_wellFormed hwf
  simp only [List.all_cons, List.all_nil, Operand.fits, Bool.and_eq_true, decide_eq_true_eq, and_true] at hr
  have hp : ∀ seg ∈ ([(g, 3), (13, 4), (sgn, 1), (sz, 2), (b, 5), (a, 5), (d, 5), (56, 7)] : List (Nat × Nat)), seg.1 < 2 ^ seg.2 := by simp; omega
  have hw : w = packed [(g, 3), (13, 4), (sgn, 1), (sz, 2), (b, 5), (a, 5), (d, 5), (56, 7)] := by
    have e : place 0x70000068 [(d, 20), (a, 15), (b, 10), (sz, 8), (sgn, 7), (g, 0)] = w := Option.some.inj he
    simp only [place, packed] at e ⊢; omega
  refine ⟨lt_of hw hp rfl, ?_⟩
  show byOpcode (field w 25 7) w = _
  rw [show field w 25 7 = 56 from field_at hw hp 7 rfl]
  show opcode38 (field w 3 4) w = _
  rw [show field w 3 4 = 13 from field_at hw hp 1 rfl]
  show Except.ok (Instr.vadds (field w 20 5) (field w 15 5) (field w 10 5) (field w 8 2) (field w 7 1) (field w 0 3)) = _
  rw [show field w 20 5 = d from field_at hw hp 6 rfl, show field w 15 5 = a from field_at hw hp 5 rfl, show field w 10 5 = b from field_at hw hp 4 rfl, show field w 8 2 = sz from field_at hw hp 3 rfl, show field w 7 1 = sgn from field_at hw hp 2 rfl, show field w 0 3 = g from field_at hw hp 0 rfl]

theorem vsubs (d a b sz sgn g : Nat) : Statement (.vsubs d a b sz sgn g) := by
  intro w hwf he
  have hr : ([.wide d, .wide a, .wide b, .field sz 2, .field sgn 1, .field g 3] : List Operand).all Operand.fits = true := fits_of_wellFormed hwf
  simp only [List.all_cons, List.all_nil, Operand.fits, Bool.and_eq_true, decide_eq_true_eq, and_true] at hr
  have hp : ∀ seg ∈ ([(g, 3), (14, 4), (sgn, 1), (sz, 2), (b, 5), (a, 5), (d, 5), (56, 7)] : List (Nat × Nat)), seg.1 < 2 ^ seg.2 := by simp; omega
  have hw : w = packed [(g, 3), (14, 4), (sgn, 1), (sz, 2), (b, 5), (a, 5), (d, 5), (56, 7)] := by
    have e : place 0x70000070 [(d, 20), (a, 15), (b, 10), (sz, 8), (sgn, 7), (g, 0)] = w := Option.some.inj he
    simp only [place, packed] at e ⊢; omega
  refine ⟨lt_of hw hp rfl, ?_⟩
  show byOpcode (field w 25 7) w = _
  rw [show field w 25 7 = 56 from field_at hw hp 7 rfl]
  show opcode38 (field w 3 4) w = _
  rw [show field w 3 4 = 14 from field_at hw hp 1 rfl]
  show Except.ok (Instr.vsubs (field w 20 5) (field w 15 5) (field w 10 5) (field w 8 2) (field w 7 1) (field w 0 3)) = _
  rw [show field w 20 5 = d from field_at hw hp 6 rfl, show field w 15 5 = a from field_at hw hp 5 rfl, show field w 10 5 = b from field_at hw hp 4 rfl, show field w 8 2 = sz from field_at hw hp 3 rfl, show field w 7 1 = sgn from field_at hw hp 2 rfl, show field w 0 3 = g from field_at hw hp 0 rfl]

theorem vfadd (d a b fmt g : Nat) : Statement (.vfadd d a b fmt g) := by
  intro w hwf he
  have hr : ([.wide d, .wide a, .wide b, .field fmt 2, .field g 3] : List Operand).all Operand.fits = true := fits_of_wellFormed hwf
  simp only [List.all_cons, List.all_nil, Operand.fits, Bool.and_eq_true, decide_eq_true_eq, and_true] at hr
  have hp : ∀ seg ∈ ([(g, 3), (0, 5), (fmt, 2), (b, 5), (a, 5), (d, 5), (57, 7)] : List (Nat × Nat)), seg.1 < 2 ^ seg.2 := by simp; omega
  have hw : w = packed [(g, 3), (0, 5), (fmt, 2), (b, 5), (a, 5), (d, 5), (57, 7)] := by
    have e : place 0x72000000 [(d, 20), (a, 15), (b, 10), (fmt, 8), (g, 0)] = w := Option.some.inj he
    simp only [place, packed] at e ⊢; omega
  refine ⟨lt_of hw hp rfl, ?_⟩
  show byOpcode (field w 25 7) w = _
  rw [show field w 25 7 = 57 from field_at hw hp 6 rfl]
  show opcode39 (field w 3 5) w = _
  rw [show field w 3 5 = 0 from field_at hw hp 1 rfl]
  show Except.ok (Instr.vfadd (field w 20 5) (field w 15 5) (field w 10 5) (field w 8 2) (field w 0 3)) = _
  rw [show field w 20 5 = d from field_at hw hp 5 rfl, show field w 15 5 = a from field_at hw hp 4 rfl, show field w 10 5 = b from field_at hw hp 3 rfl, show field w 8 2 = fmt from field_at hw hp 2 rfl, show field w 0 3 = g from field_at hw hp 0 rfl]

theorem vfsub (d a b fmt g : Nat) : Statement (.vfsub d a b fmt g) := by
  intro w hwf he
  have hr : ([.wide d, .wide a, .wide b, .field fmt 2, .field g 3] : List Operand).all Operand.fits = true := fits_of_wellFormed hwf
  simp only [List.all_cons, List.all_nil, Operand.fits, Bool.and_eq_true, decide_eq_true_eq, and_true] at hr
  have hp : ∀ seg ∈ ([(g, 3), (1, 5), (fmt, 2), (b, 5), (a, 5), (d, 5), (57, 7)] : List (Nat × Nat)), seg.1 < 2 ^ seg.2 := by simp; omega
  have hw : w = packed [(g, 3), (1, 5), (fmt, 2), (b, 5), (a, 5), (d, 5), (57, 7)] := by
    have e : place 0x72000008 [(d, 20), (a, 15), (b, 10), (fmt, 8), (g, 0)] = w := Option.some.inj he
    simp only [place, packed] at e ⊢; omega
  refine ⟨lt_of hw hp rfl, ?_⟩
  show byOpcode (field w 25 7) w = _
  rw [show field w 25 7 = 57 from field_at hw hp 6 rfl]
  show opcode39 (field w 3 5) w = _
  rw [show field w 3 5 = 1 from field_at hw hp 1 rfl]
  show Except.ok (Instr.vfsub (field w 20 5) (field w 15 5) (field w 10 5) (field w 8 2) (field w 0 3)) = _
  rw [show field w 20 5 = d from field_at hw hp 5 rfl, show field w 15 5 = a from field_at hw hp 4 rfl, show field w 10 5 = b from field_at hw hp 3 rfl, show field w 8 2 = fmt from field_at hw hp 2 rfl, show field w 0 3 = g from field_at hw hp 0 rfl]

theorem vfmul (d a b fmt g : Nat) : Statement (.vfmul d a b fmt g) := by
  intro w hwf he
  have hr : ([.wide d, .wide a, .wide b, .field fmt 2, .field g 3] : List Operand).all Operand.fits = true := fits_of_wellFormed hwf
  simp only [List.all_cons, List.all_nil, Operand.fits, Bool.and_eq_true, decide_eq_true_eq, and_true] at hr
  have hp : ∀ seg ∈ ([(g, 3), (2, 5), (fmt, 2), (b, 5), (a, 5), (d, 5), (57, 7)] : List (Nat × Nat)), seg.1 < 2 ^ seg.2 := by simp; omega
  have hw : w = packed [(g, 3), (2, 5), (fmt, 2), (b, 5), (a, 5), (d, 5), (57, 7)] := by
    have e : place 0x72000010 [(d, 20), (a, 15), (b, 10), (fmt, 8), (g, 0)] = w := Option.some.inj he
    simp only [place, packed] at e ⊢; omega
  refine ⟨lt_of hw hp rfl, ?_⟩
  show byOpcode (field w 25 7) w = _
  rw [show field w 25 7 = 57 from field_at hw hp 6 rfl]
  show opcode39 (field w 3 5) w = _
  rw [show field w 3 5 = 2 from field_at hw hp 1 rfl]
  show Except.ok (Instr.vfmul (field w 20 5) (field w 15 5) (field w 10 5) (field w 8 2) (field w 0 3)) = _
  rw [show field w 20 5 = d from field_at hw hp 5 rfl, show field w 15 5 = a from field_at hw hp 4 rfl, show field w 10 5 = b from field_at hw hp 3 rfl, show field w 8 2 = fmt from field_at hw hp 2 rfl, show field w 0 3 = g from field_at hw hp 0 rfl]

theorem vfdiv (d a b fmt g : Nat) : Statement (.vfdiv d a b fmt g) := by
  intro w hwf he
  have hr : ([.wide d, .wide a, .wide b, .field fmt 2, .field g 3] : List Operand).all Operand.fits = true := fits_of_wellFormed hwf
  simp only [List.all_cons, List.all_nil, Operand.fits, Bool.and_eq_true, decide_eq_true_eq, and_true] at hr
  have hp : ∀ seg ∈ ([(g, 3), (3, 5), (fmt, 2), (b, 5), (a, 5), (d, 5), (57, 7)] : List (Nat × Nat)), seg.1 < 2 ^ seg.2 := by simp; omega
  have hw : w = packed [(g, 3), (3, 5), (fmt, 2), (b, 5), (a, 5), (d, 5), (57, 7)] := by
    have e : place 0x72000018 [(d, 20), (a, 15), (b, 10), (fmt, 8), (g, 0)] = w := Option.some.inj he
    simp only [place, packed] at e ⊢; omega
  refine ⟨lt_of hw hp rfl, ?_⟩
  show byOpcode (field w 25 7) w = _
  rw [show field w 25 7 = 57 from field_at hw hp 6 rfl]
  show opcode39 (field w 3 5) w = _
  rw [show field w 3 5 = 3 from field_at hw hp 1 rfl]
  show Except.ok (Instr.vfdiv (field w 20 5) (field w 15 5) (field w 10 5) (field w 8 2) (field w 0 3)) = _
  rw [show field w 20 5 = d from field_at hw hp 5 rfl, show field w 15 5 = a from field_at hw hp 4 rfl, show field w 10 5 = b from field_at hw hp 3 rfl, show field w 8 2 = fmt from field_at hw hp 2 rfl, show field w 0 3 = g from field_at hw hp 0 rfl]

theorem vfmin (d a b fmt g : Nat) : Statement (.vfmin d a b fmt g) := by
  intro w hwf he
  have hr : ([.wide d, .wide a, .wide b, .field fmt 2, .field g 3] : List Operand).all Operand.fits = true := fits_of_wellFormed hwf
  simp only [List.all_cons, List.all_nil, Operand.fits, Bool.and_eq_true, decide_eq_true_eq, and_true] at hr
  have hp : ∀ seg ∈ ([(g, 3), (4, 5), (fmt, 2), (b, 5), (a, 5), (d, 5), (57, 7)] : List (Nat × Nat)), seg.1 < 2 ^ seg.2 := by simp; omega
  have hw : w = packed [(g, 3), (4, 5), (fmt, 2), (b, 5), (a, 5), (d, 5), (57, 7)] := by
    have e : place 0x72000020 [(d, 20), (a, 15), (b, 10), (fmt, 8), (g, 0)] = w := Option.some.inj he
    simp only [place, packed] at e ⊢; omega
  refine ⟨lt_of hw hp rfl, ?_⟩
  show byOpcode (field w 25 7) w = _
  rw [show field w 25 7 = 57 from field_at hw hp 6 rfl]
  show opcode39 (field w 3 5) w = _
  rw [show field w 3 5 = 4 from field_at hw hp 1 rfl]
  show Except.ok (Instr.vfmin (field w 20 5) (field w 15 5) (field w 10 5) (field w 8 2) (field w 0 3)) = _
  rw [show field w 20 5 = d from field_at hw hp 5 rfl, show field w 15 5 = a from field_at hw hp 4 rfl, show field w 10 5 = b from field_at hw hp 3 rfl, show field w 8 2 = fmt from field_at hw hp 2 rfl, show field w 0 3 = g from field_at hw hp 0 rfl]

theorem vfmax (d a b fmt g : Nat) : Statement (.vfmax d a b fmt g) := by
  intro w hwf he
  have hr : ([.wide d, .wide a, .wide b, .field fmt 2, .field g 3] : List Operand).all Operand.fits = true := fits_of_wellFormed hwf
  simp only [List.all_cons, List.all_nil, Operand.fits, Bool.and_eq_true, decide_eq_true_eq, and_true] at hr
  have hp : ∀ seg ∈ ([(g, 3), (5, 5), (fmt, 2), (b, 5), (a, 5), (d, 5), (57, 7)] : List (Nat × Nat)), seg.1 < 2 ^ seg.2 := by simp; omega
  have hw : w = packed [(g, 3), (5, 5), (fmt, 2), (b, 5), (a, 5), (d, 5), (57, 7)] := by
    have e : place 0x72000028 [(d, 20), (a, 15), (b, 10), (fmt, 8), (g, 0)] = w := Option.some.inj he
    simp only [place, packed] at e ⊢; omega
  refine ⟨lt_of hw hp rfl, ?_⟩
  show byOpcode (field w 25 7) w = _
  rw [show field w 25 7 = 57 from field_at hw hp 6 rfl]
  show opcode39 (field w 3 5) w = _
  rw [show field w 3 5 = 5 from field_at hw hp 1 rfl]
  show Except.ok (Instr.vfmax (field w 20 5) (field w 15 5) (field w 10 5) (field w 8 2) (field w 0 3)) = _
  rw [show field w 20 5 = d from field_at hw hp 5 rfl, show field w 15 5 = a from field_at hw hp 4 rfl, show field w 10 5 = b from field_at hw hp 3 rfl, show field w 8 2 = fmt from field_at hw hp 2 rfl, show field w 0 3 = g from field_at hw hp 0 rfl]

theorem vfabs (d a fmt g : Nat) : Statement (.vfabs d a fmt g) := by
  intro w hwf he
  have hr : ([.wide d, .wide a, .field fmt 2, .field g 3] : List Operand).all Operand.fits = true := fits_of_wellFormed hwf
  simp only [List.all_cons, List.all_nil, Operand.fits, Bool.and_eq_true, decide_eq_true_eq, and_true] at hr
  have hp : ∀ seg ∈ ([(g, 3), (6, 5), (fmt, 2), (0, 5), (a, 5), (d, 5), (57, 7)] : List (Nat × Nat)), seg.1 < 2 ^ seg.2 := by simp; omega
  have hw : w = packed [(g, 3), (6, 5), (fmt, 2), (0, 5), (a, 5), (d, 5), (57, 7)] := by
    have e : place 0x72000030 [(d, 20), (a, 15), (fmt, 8), (g, 0)] = w := Option.some.inj he
    simp only [place, packed] at e ⊢; omega
  refine ⟨lt_of hw hp rfl, ?_⟩
  show byOpcode (field w 25 7) w = _
  rw [show field w 25 7 = 57 from field_at hw hp 6 rfl]
  show opcode39 (field w 3 5) w = _
  rw [show field w 3 5 = 6 from field_at hw hp 1 rfl]
  show Except.ok (Instr.vfabs (field w 20 5) (field w 15 5) (field w 8 2) (field w 0 3)) = _
  rw [show field w 20 5 = d from field_at hw hp 5 rfl, show field w 15 5 = a from field_at hw hp 4 rfl, show field w 8 2 = fmt from field_at hw hp 2 rfl, show field w 0 3 = g from field_at hw hp 0 rfl]

theorem vfneg (d a fmt g : Nat) : Statement (.vfneg d a fmt g) := by
  intro w hwf he
  have hr : ([.wide d, .wide a, .field fmt 2, .field g 3] : List Operand).all Operand.fits = true := fits_of_wellFormed hwf
  simp only [List.all_cons, List.all_nil, Operand.fits, Bool.and_eq_true, decide_eq_true_eq, and_true] at hr
  have hp : ∀ seg ∈ ([(g, 3), (7, 5), (fmt, 2), (0, 5), (a, 5), (d, 5), (57, 7)] : List (Nat × Nat)), seg.1 < 2 ^ seg.2 := by simp; omega
  have hw : w = packed [(g, 3), (7, 5), (fmt, 2), (0, 5), (a, 5), (d, 5), (57, 7)] := by
    have e : place 0x72000038 [(d, 20), (a, 15), (fmt, 8), (g, 0)] = w := Option.some.inj he
    simp only [place, packed] at e ⊢; omega
  refine ⟨lt_of hw hp rfl, ?_⟩
  show byOpcode (field w 25 7) w = _
  rw [show field w 25 7 = 57 from field_at hw hp 6 rfl]
  show opcode39 (field w 3 5) w = _
  rw [show field w 3 5 = 7 from field_at hw hp 1 rfl]
  show Except.ok (Instr.vfneg (field w 20 5) (field w 15 5) (field w 8 2) (field w 0 3)) = _
  rw [show field w 20 5 = d from field_at hw hp 5 rfl, show field w 15 5 = a from field_at hw hp 4 rfl, show field w 8 2 = fmt from field_at hw hp 2 rfl, show field w 0 3 = g from field_at hw hp 0 rfl]

theorem vfma (d a b c g : Nat) : Statement (.vfma d a b c g) := by
  intro w hwf he
  have hr : ([.wide d, .wide a, .wide b, .wide c, .field g 3] : List Operand).all Operand.fits = true := fits_of_wellFormed hwf
  simp only [List.all_cons, List.all_nil, Operand.fits, Bool.and_eq_true, decide_eq_true_eq, and_true] at hr
  have hp : ∀ seg ∈ ([(g, 3), (0, 2), (c, 5), (b, 5), (a, 5), (d, 5), (58, 7)] : List (Nat × Nat)), seg.1 < 2 ^ seg.2 := by simp; omega
  have hw : w = packed [(g, 3), (0, 2), (c, 5), (b, 5), (a, 5), (d, 5), (58, 7)] := by
    have e : place 0x74000000 [(d, 20), (a, 15), (b, 10), (c, 5), (g, 0)] = w := Option.some.inj he
    simp only [place, packed] at e ⊢; omega
  refine ⟨lt_of hw hp rfl, ?_⟩
  show byOpcode (field w 25 7) w = _
  rw [show field w 25 7 = 58 from field_at hw hp 6 rfl]
  show opcode3a (field w 3 2) w = _
  rw [show field w 3 2 = 0 from field_at hw hp 1 rfl]
  show Except.ok (Instr.vfma (field w 20 5) (field w 15 5) (field w 10 5) (field w 5 5) (field w 0 3)) = _
  rw [show field w 20 5 = d from field_at hw hp 5 rfl, show field w 15 5 = a from field_at hw hp 4 rfl, show field w 10 5 = b from field_at hw hp 3 rfl, show field w 5 5 = c from field_at hw hp 2 rfl, show field w 0 3 = g from field_at hw hp 0 rfl]

theorem vfms (d a b c g : Nat) : Statement (.vfms d a b c g) := by
  intro w hwf he
  have hr : ([.wide d, .wide a, .wide b, .wide c, .field g 3] : List Operand).all Operand.fits = true := fits_of_wellFormed hwf
  simp only [List.all_cons, List.all_nil, Operand.fits, Bool.and_eq_true, decide_eq_true_eq, and_true] at hr
  have hp : ∀ seg ∈ ([(g, 3), (1, 2), (c, 5), (b, 5), (a, 5), (d, 5), (58, 7)] : List (Nat × Nat)), seg.1 < 2 ^ seg.2 := by simp; omega
  have hw : w = packed [(g, 3), (1, 2), (c, 5), (b, 5), (a, 5), (d, 5), (58, 7)] := by
    have e : place 0x74000008 [(d, 20), (a, 15), (b, 10), (c, 5), (g, 0)] = w := Option.some.inj he
    simp only [place, packed] at e ⊢; omega
  refine ⟨lt_of hw hp rfl, ?_⟩
  show byOpcode (field w 25 7) w = _
  rw [show field w 25 7 = 58 from field_at hw hp 6 rfl]
  show opcode3a (field w 3 2) w = _
  rw [show field w 3 2 = 1 from field_at hw hp 1 rfl]
  show Except.ok (Instr.vfms (field w 20 5) (field w 15 5) (field w 10 5) (field w 5 5) (field w 0 3)) = _
  rw [show field w 20 5 = d from field_at hw hp 5 rfl, show field w 15 5 = a from field_at hw hp 4 rfl, show field w 10 5 = b from field_at hw hp 3 rfl, show field w 5 5 = c from field_at hw hp 2 rfl, show field w 0 3 = g from field_at hw hp 0 rfl]

theorem vfnma (d a b c g : Nat) : Statement (.vfnma d a b c g) := by
  intro w hwf he
  have hr : ([.wide d, .wide a, .wide b, .wide c, .field g 3] : List Operand).all Operand.fits = true := fits_of_wellFormed hwf
  simp only [List.all_cons, List.all_nil, Operand.fits, Bool.and_eq_true, decide_eq_true_eq, and_true] at hr
  have hp : ∀ seg ∈ ([(g, 3), (2, 2), (c, 5), (b, 5), (a, 5), (d, 5), (58, 7)] : List (Nat × Nat)), seg.1 < 2 ^ seg.2 := by simp; omega
  have hw : w = packed [(g, 3), (2, 2), (c, 5), (b, 5), (a, 5), (d, 5), (58, 7)] := by
    have e : place 0x74000010 [(d, 20), (a, 15), (b, 10), (c, 5), (g, 0)] = w := Option.some.inj he
    simp only [place, packed] at e ⊢; omega
  refine ⟨lt_of hw hp rfl, ?_⟩
  show byOpcode (field w 25 7) w = _
  rw [show field w 25 7 = 58 from field_at hw hp 6 rfl]
  show opcode3a (field w 3 2) w = _
  rw [show field w 3 2 = 2 from field_at hw hp 1 rfl]
  show Except.ok (Instr.vfnma (field w 20 5) (field w 15 5) (field w 10 5) (field w 5 5) (field w 0 3)) = _
  rw [show field w 20 5 = d from field_at hw hp 5 rfl, show field w 15 5 = a from field_at hw hp 4 rfl, show field w 10 5 = b from field_at hw hp 3 rfl, show field w 5 5 = c from field_at hw hp 2 rfl, show field w 0 3 = g from field_at hw hp 0 rfl]

theorem vfnms (d a b c g : Nat) : Statement (.vfnms d a b c g) := by
  intro w hwf he
  have hr : ([.wide d, .wide a, .wide b, .wide c, .field g 3] : List Operand).all Operand.fits = true := fits_of_wellFormed hwf
  simp only [List.all_cons, List.all_nil, Operand.fits, Bool.and_eq_true, decide_eq_true_eq, and_true] at hr
  have hp : ∀ seg ∈ ([(g, 3), (3, 2), (c, 5), (b, 5), (a, 5), (d, 5), (58, 7)] : List (Nat × Nat)), seg.1 < 2 ^ seg.2 := by simp; omega
  have hw : w = packed [(g, 3), (3, 2), (c, 5), (b, 5), (a, 5), (d, 5), (58, 7)] := by
    have e : place 0x74000018 [(d, 20), (a, 15), (b, 10), (c, 5), (g, 0)] = w := Option.some.inj he
    simp only [place, packed] at e ⊢; omega
  refine ⟨lt_of hw hp rfl, ?_⟩
  show byOpcode (field w 25 7) w = _
  rw [show field w 25 7 = 58 from field_at hw hp 6 rfl]
  show opcode3a (field w 3 2) w = _
  rw [show field w 3 2 = 3 from field_at hw hp 1 rfl]
  show Except.ok (Instr.vfnms (field w 20 5) (field w 15 5) (field w 10 5) (field w 5 5) (field w 0 3)) = _
  rw [show field w 20 5 = d from field_at hw hp 5 rfl, show field w 15 5 = a from field_at hw hp 4 rfl, show field w 10 5 = b from field_at hw hp 3 rfl, show field w 5 5 = c from field_at hw hp 2 rfl, show field w 0 3 = g from field_at hw hp 0 rfl]

theorem vcmpEq (d a b t g : Nat) : Statement (.vcmpEq d a b t g) := by
  intro w hwf he
  have hr : ([.wide d, .wide a, .wide b, .field t 3, .field g 3] : List Operand).all Operand.fits = true := fits_of_wellFormed hwf
  simp only [List.all_cons, List.all_nil, Operand.fits, Bool.and_eq_true, decide_eq_true_eq, and_true] at hr
  have hp : ∀ seg ∈ ([(g, 3), (0, 4), (t, 3), (b, 5), (a, 5), (d, 5), (59, 7)] : List (Nat × Nat)), seg.1 < 2 ^ seg.2 := by simp; omega
  have hw : w = packed [(g, 3), (0, 4), (t, 3), (b, 5), (a, 5), (d, 5), (59, 7)] := by
    have e : place 0x76000000 [(d, 20), (a, 15), (b, 10), (t, 7), (g, 0)] = w := Option.some.inj he
    simp only [place, packed] at e ⊢; omega
  refine ⟨lt_of hw hp rfl, ?_⟩
  show byOpcode (field w 25 7) w = _
  rw [show field w 25 7 = 59 from field_at hw hp 6 rfl]
  show opcode3b (field w 3 4) w = _
  rw [show field w 3 4 = 0 from field_at hw hp 1 rfl]
  show Except.ok (Instr.vcmpEq (field w 20 5) (field w 15 5) (field w 10 5) (field w 7 3) (field w 0 3)) = _
  rw [show field w 20 5 = d from field_at hw hp 5 rfl, show field w 15 5 = a from field_at hw hp 4 rfl, show field w 10 5 = b from field_at hw hp 3 rfl, show field w 7 3 = t from field_at hw hp 2 rfl, show field w 0 3 = g from field_at hw hp 0 rfl]

theorem vcmpNe (d a b t g : Nat) : Statement (.vcmpNe d a b t g) := by
  intro w hwf he
  have hr : ([.wide d, .wide a, .wide b, .field t 3, .field g 3] : List Operand).all Operand.fits = true := fits_of_wellFormed hwf
  simp only [List.all_cons, List.all_nil, Operand.fits, Bool.and_eq_true, decide_eq_true_eq, and_true] at hr
  have hp : ∀ seg ∈ ([(g, 3), (1, 4), (t, 3), (b, 5), (a, 5), (d, 5), (59, 7)] : List (Nat × Nat)), seg.1 < 2 ^ seg.2 := by simp; omega
  have hw : w = packed [(g, 3), (1, 4), (t, 3), (b, 5), (a, 5), (d, 5), (59, 7)] := by
    have e : place 0x76000008 [(d, 20), (a, 15), (b, 10), (t, 7), (g, 0)] = w := Option.some.inj he
    simp only [place, packed] at e ⊢; omega
  refine ⟨lt_of hw hp rfl, ?_⟩
  show byOpcode (field w 25 7) w = _
  rw [show field w 25 7 = 59 from field_at hw hp 6 rfl]
  show opcode3b (field w 3 4) w = _
  rw [show field w 3 4 = 1 from field_at hw hp 1 rfl]
  show Except.ok (Instr.vcmpNe (field w 20 5) (field w 15 5) (field w 10 5) (field w 7 3) (field w 0 3)) = _
  rw [show field w 20 5 = d from field_at hw hp 5 rfl, show field w 15 5 = a from field_at hw hp 4 rfl, show field w 10 5 = b from field_at hw hp 3 rfl, show field w 7 3 = t from field_at hw hp 2 rfl, show field w 0 3 = g from field_at hw hp 0 rfl]

theorem vcmpLt (d a b t g : Nat) : Statement (.vcmpLt d a b t g) := by
  intro w hwf he
  have hr : ([.wide d, .wide a, .wide b, .field t 3, .field g 3] : List Operand).all Operand.fits = true := fits_of_wellFormed hwf
  simp only [List.all_cons, List.all_nil, Operand.fits, Bool.and_eq_true, decide_eq_true_eq, and_true] at hr
  have hp : ∀ seg ∈ ([(g, 3), (2, 4), (t, 3), (b, 5), (a, 5), (d, 5), (59, 7)] : List (Nat × Nat)), seg.1 < 2 ^ seg.2 := by simp; omega
  have hw : w = packed [(g, 3), (2, 4), (t, 3), (b, 5), (a, 5), (d, 5), (59, 7)] := by
    have e : place 0x76000010 [(d, 20), (a, 15), (b, 10), (t, 7), (g, 0)] = w := Option.some.inj he
    simp only [place, packed] at e ⊢; omega
  refine ⟨lt_of hw hp rfl, ?_⟩
  show byOpcode (field w 25 7) w = _
  rw [show field w 25 7 = 59 from field_at hw hp 6 rfl]
  show opcode3b (field w 3 4) w = _
  rw [show field w 3 4 = 2 from field_at hw hp 1 rfl]
  show Except.ok (Instr.vcmpLt (field w 20 5) (field w 15 5) (field w 10 5) (field w 7 3) (field w 0 3)) = _
  rw [show field w 20 5 = d from field_at hw hp 5 rfl, show field w 15 5 = a from field_at hw hp 4 rfl, show field w 10 5 = b from field_at hw hp 3 rfl, show field w 7 3 = t from field_at hw hp 2 rfl, show field w 0 3 = g from field_at hw hp 0 rfl]

theorem vcmpLe (d a b t g : Nat) : Statement (.vcmpLe d a b t g) := by
  intro w hwf he
  have hr : ([.wide d, .wide a, .wide b, .field t 3, .field g 3] : List Operand).all Operand.fits = true := fits_of_wellFormed hwf
  simp only [List.all_cons, List.all_nil, Operand.fits, Bool.and_eq_true, decide_eq_true_eq, and_true] at hr
  have hp : ∀ seg ∈ ([(g, 3), (3, 4), (t, 3), (b, 5), (a, 5), (d, 5), (59, 7)] : List (Nat × Nat)), seg.1 < 2 ^ seg.2 := by simp; omega
  have hw : w = packed [(g, 3), (3, 4), (t, 3), (b, 5), (a, 5), (d, 5), (59, 7)] := by
    have e : place 0x76000018 [(d, 20), (a, 15), (b, 10), (t, 7), (g, 0)] = w := Option.some.inj he
    simp only [place, packed] at e ⊢; omega
  refine ⟨lt_of hw hp rfl, ?_⟩
  show byOpcode (field w 25 7) w = _
  rw [show field w 25 7 = 59 from field_at hw hp 6 rfl]
  show opcode3b (field w 3 4) w = _
  rw [show field w 3 4 = 3 from field_at hw hp 1 rfl]
  show Except.ok (Instr.vcmpLe (field w 20 5) (field w 15 5) (field w 10 5) (field w 7 3) (field w 0 3)) = _
  rw [show field w 20 5 = d from field_at hw hp 5 rfl, show field w 15 5 = a from field_at hw hp 4 rfl, show field w 10 5 = b from field_at hw hp 3 rfl, show field w 7 3 = t from field_at hw hp 2 rfl, show field w 0 3 = g from field_at hw hp 0 rfl]

theorem vcmpLtz (d a t g : Nat) : Statement (.vcmpLtz d a t g) := by
  intro w hwf he
  have hr : ([.wide d, .wide a, .field t 3, .field g 3] : List Operand).all Operand.fits = true := fits_of_wellFormed hwf
  simp only [List.all_cons, List.all_nil, Operand.fits, Bool.and_eq_true, decide_eq_true_eq, and_true] at hr
  have hp : ∀ seg ∈ ([(g, 3), (4, 4), (t, 3), (0, 5), (a, 5), (d, 5), (59, 7)] : List (Nat × Nat)), seg.1 < 2 ^ seg.2 := by simp; omega
  have hw : w = packed [(g, 3), (4, 4), (t, 3), (0, 5), (a, 5), (d, 5), (59, 7)] := by
    have e : place 0x76000020 [(d, 20), (a, 15), (t, 7), (g, 0)] = w := Option.some.inj he
    simp only [place, packed] at e ⊢; omega
  refine ⟨lt_of hw hp rfl, ?_⟩
  show byOpcode (field w 25 7) w = _
  rw [show field w 25 7 = 59 from field_at hw hp 6 rfl]
  show opcode3b (field w 3 4) w = _
  rw [show field w 3 4 = 4 from field_at hw hp 1 rfl]
  show Except.ok (Instr.vcmpLtz (field w 20 5) (field w 15 5) (field w 7 3) (field w 0 3)) = _
  rw [show field w 20 5 = d from field_at hw hp 5 rfl, show field w 15 5 = a from field_at hw hp 4 rfl, show field w 7 3 = t from field_at hw hp 2 rfl, show field w 0 3 = g from field_at hw hp 0 rfl]

theorem vcmpLez (d a t g : Nat) : Statement (.vcmpLez d a t g) := by
  intro w hwf he
  have hr : ([.wide d, .wide a, .field t 3, .field g 3] : List Operand).all Operand.fits = true := fits_of_wellFormed hwf
  simp only [List.all_cons, List.all_nil, Operand.fits, Bool.and_eq_true, decide_eq_true_eq, and_true] at hr
  have hp : ∀ seg ∈ ([(g, 3), (5, 4), (t, 3), (0, 5), (a, 5), (d, 5), (59, 7)] : List (Nat × Nat)), seg.1 < 2 ^ seg.2 := by simp; omega
  have hw : w = packed [(g, 3), (5, 4), (t, 3), (0, 5), (a, 5), (d, 5), (59, 7)] := by
    have e : place 0x76000028 [(d, 20), (a, 15), (t, 7), (g, 0)] = w := Option.some.inj he
    simp only [place, packed] at e ⊢; omega
  refine ⟨lt_of hw hp rfl, ?_⟩
  show byOpcode (field w 25 7) w = _
  rw [show field w 25 7 = 59 from field_at hw hp 6 rfl]
  show opcode3b (field w 3 4) w = _
  rw [show field w 3 4 = 5 from field_at hw hp 1 rfl]
  show Except.ok (Instr.vcmpLez (field w 20 5) (field w 15 5) (field w 7 3) (field w 0 3)) = _
  rw [show field w 20 5 = d from field_at hw hp 5 rfl, show field w 15 5 = a from field_at hw hp 4 rfl, show field w 7 3 = t from field_at hw hp 2 rfl, show field w 0 3 = g from field_at hw hp 0 rfl]

theorem vredSum (d a t g : Nat) : Statement (.vredSum d a t g) := by
  intro w hwf he
  have hr : ([.dest d, .wide a, .field t 3, .field g 3] : List Operand).all Operand.fits = true := fits_of_wellFormed hwf
  simp only [List.all_cons, List.all_nil, Operand.fits, Bool.and_eq_true, decide_eq_true_eq, and_true] at hr
  have hp : ∀ seg ∈ ([(g, 3), (0, 4), (t, 3), (0, 5), (a, 5), (d, 5), (60, 7)] : List (Nat × Nat)), seg.1 < 2 ^ seg.2 := by simp; omega
  have hw : w = packed [(g, 3), (0, 4), (t, 3), (0, 5), (a, 5), (d, 5), (60, 7)] := by
    have e : place 0x78000000 [(d, 20), (a, 15), (t, 7), (g, 0)] = w := Option.some.inj he
    simp only [place, packed] at e ⊢; omega
  refine ⟨lt_of hw hp rfl, ?_⟩
  show byOpcode (field w 25 7) w = _
  rw [show field w 25 7 = 60 from field_at hw hp 6 rfl]
  show opcode3c (field w 3 4) w = _
  rw [show field w 3 4 = 0 from field_at hw hp 1 rfl]
  show Except.ok (Instr.vredSum (field w 20 5) (field w 15 5) (field w 7 3) (field w 0 3)) = _
  rw [show field w 20 5 = d from field_at hw hp 5 rfl, show field w 15 5 = a from field_at hw hp 4 rfl, show field w 7 3 = t from field_at hw hp 2 rfl, show field w 0 3 = g from field_at hw hp 0 rfl]

theorem vredMin (d a t g : Nat) : Statement (.vredMin d a t g) := by
  intro w hwf he
  have hr : ([.dest d, .wide a, .field t 3, .field g 3] : List Operand).all Operand.fits = true := fits_of_wellFormed hwf
  simp only [List.all_cons, List.all_nil, Operand.fits, Bool.and_eq_true, decide_eq_true_eq, and_true] at hr
  have hp : ∀ seg ∈ ([(g, 3), (1, 4), (t, 3), (0, 5), (a, 5), (d, 5), (60, 7)] : List (Nat × Nat)), seg.1 < 2 ^ seg.2 := by simp; omega
  have hw : w = packed [(g, 3), (1, 4), (t, 3), (0, 5), (a, 5), (d, 5), (60, 7)] := by
    have e : place 0x78000008 [(d, 20), (a, 15), (t, 7), (g, 0)] = w := Option.some.inj he
    simp only [place, packed] at e ⊢; omega
  refine ⟨lt_of hw hp rfl, ?_⟩
  show byOpcode (field w 25 7) w = _
  rw [show field w 25 7 = 60 from field_at hw hp 6 rfl]
  show opcode3c (field w 3 4) w = _
  rw [show field w 3 4 = 1 from field_at hw hp 1 rfl]
  show Except.ok (Instr.vredMin (field w 20 5) (field w 15 5) (field w 7 3) (field w 0 3)) = _
  rw [show field w 20 5 = d from field_at hw hp 5 rfl, show field w 15 5 = a from field_at hw hp 4 rfl, show field w 7 3 = t from field_at hw hp 2 rfl, show field w 0 3 = g from field_at hw hp 0 rfl]

theorem vredMax (d a t g : Nat) : Statement (.vredMax d a t g) := by
  intro w hwf he
  have hr : ([.dest d, .wide a, .field t 3, .field g 3] : List Operand).all Operand.fits = true := fits_of_wellFormed hwf
  simp only [List.all_cons, List.all_nil, Operand.fits, Bool.and_eq_true, decide_eq_true_eq, and_true] at hr
  have hp : ∀ seg ∈ ([(g, 3), (2, 4), (t, 3), (0, 5), (a, 5), (d, 5), (60, 7)] : List (Nat × Nat)), seg.1 < 2 ^ seg.2 := by simp; omega
  have hw : w = packed [(g, 3), (2, 4), (t, 3), (0, 5), (a, 5), (d, 5), (60, 7)] := by
    have e : place 0x78000010 [(d, 20), (a, 15), (t, 7), (g, 0)] = w := Option.some.inj he
    simp only [place, packed] at e ⊢; omega
  refine ⟨lt_of hw hp rfl, ?_⟩
  show byOpcode (field w 25 7) w = _
  rw [show field w 25 7 = 60 from field_at hw hp 6 rfl]
  show opcode3c (field w 3 4) w = _
  rw [show field w 3 4 = 2 from field_at hw hp 1 rfl]
  show Except.ok (Instr.vredMax (field w 20 5) (field w 15 5) (field w 7 3) (field w 0 3)) = _
  rw [show field w 20 5 = d from field_at hw hp 5 rfl, show field w 15 5 = a from field_at hw hp 4 rfl, show field w 7 3 = t from field_at hw hp 2 rfl, show field w 0 3 = g from field_at hw hp 0 rfl]

theorem vredAnd (d a t g : Nat) : Statement (.vredAnd d a t g) := by
  intro w hwf he
  have hr : ([.dest d, .wide a, .field t 3, .field g 3] : List Operand).all Operand.fits = true := fits_of_wellFormed hwf
  simp only [List.all_cons, List.all_nil, Operand.fits, Bool.and_eq_true, decide_eq_true_eq, and_true] at hr
  have hp : ∀ seg ∈ ([(g, 3), (3, 4), (t, 3), (0, 5), (a, 5), (d, 5), (60, 7)] : List (Nat × Nat)), seg.1 < 2 ^ seg.2 := by simp; omega
  have hw : w = packed [(g, 3), (3, 4), (t, 3), (0, 5), (a, 5), (d, 5), (60, 7)] := by
    have e : place 0x78000018 [(d, 20), (a, 15), (t, 7), (g, 0)] = w := Option.some.inj he
    simp only [place, packed] at e ⊢; omega
  refine ⟨lt_of hw hp rfl, ?_⟩
  show byOpcode (field w 25 7) w = _
  rw [show field w 25 7 = 60 from field_at hw hp 6 rfl]
  show opcode3c (field w 3 4) w = _
  rw [show field w 3 4 = 3 from field_at hw hp 1 rfl]
  show Except.ok (Instr.vredAnd (field w 20 5) (field w 15 5) (field w 7 3) (field w 0 3)) = _
  rw [show field w 20 5 = d from field_at hw hp 5 rfl, show field w 15 5 = a from field_at hw hp 4 rfl, show field w 7 3 = t from field_at hw hp 2 rfl, show field w 0 3 = g from field_at hw hp 0 rfl]

theorem vredOr (d a t g : Nat) : Statement (.vredOr d a t g) := by
  intro w hwf he
  have hr : ([.dest d, .wide a, .field t 3, .field g 3] : List Operand).all Operand.fits = true := fits_of_wellFormed hwf
  simp only [List.all_cons, List.all_nil, Operand.fits, Bool.and_eq_true, decide_eq_true_eq, and_true] at hr
  have hp : ∀ seg ∈ ([(g, 3), (4, 4), (t, 3), (0, 5), (a, 5), (d, 5), (60, 7)] : List (Nat × Nat)), seg.1 < 2 ^ seg.2 := by simp; omega
  have hw : w = packed [(g, 3), (4, 4), (t, 3), (0, 5), (a, 5), (d, 5), (60, 7)] := by
    have e : place 0x78000020 [(d, 20), (a, 15), (t, 7), (g, 0)] = w := Option.some.inj he
    simp only [place, packed] at e ⊢; omega
  refine ⟨lt_of hw hp rfl, ?_⟩
  show byOpcode (field w 25 7) w = _
  rw [show field w 25 7 = 60 from field_at hw hp 6 rfl]
  show opcode3c (field w 3 4) w = _
  rw [show field w 3 4 = 4 from field_at hw hp 1 rfl]
  show Except.ok (Instr.vredOr (field w 20 5) (field w 15 5) (field w 7 3) (field w 0 3)) = _
  rw [show field w 20 5 = d from field_at hw hp 5 rfl, show field w 15 5 = a from field_at hw hp 4 rfl, show field w 7 3 = t from field_at hw hp 2 rfl, show field w 0 3 = g from field_at hw hp 0 rfl]

theorem vredXor (d a t g : Nat) : Statement (.vredXor d a t g) := by
  intro w hwf he
  have hr : ([.dest d, .wide a, .field t 3, .field g 3] : List Operand).all Operand.fits = true := fits_of_wellFormed hwf
  simp only [List.all_cons, List.all_nil, Operand.fits, Bool.and_eq_true, decide_eq_true_eq, and_true] at hr
  have hp : ∀ seg ∈ ([(g, 3), (5, 4), (t, 3), (0, 5), (a, 5), (d, 5), (60, 7)] : List (Nat × Nat)), seg.1 < 2 ^ seg.2 := by simp; omega
  have hw : w = packed [(g, 3), (5, 4), (t, 3), (0, 5), (a, 5), (d, 5), (60, 7)] := by
    have e : place 0x78000028 [(d, 20), (a, 15), (t, 7), (g, 0)] = w := Option.some.inj he
    simp only [place, packed] at e ⊢; omega
  refine ⟨lt_of hw hp rfl, ?_⟩
  show byOpcode (field w 25 7) w = _
  rw [show field w 25 7 = 60 from field_at hw hp 6 rfl]
  show opcode3c (field w 3 4) w = _
  rw [show field w 3 4 = 5 from field_at hw hp 1 rfl]
  show Except.ok (Instr.vredXor (field w 20 5) (field w 15 5) (field w 7 3) (field w 0 3)) = _
  rw [show field w 20 5 = d from field_at hw hp 5 rfl, show field w 15 5 = a from field_at hw hp 4 rfl, show field w 7 3 = t from field_at hw hp 2 rfl, show field w 0 3 = g from field_at hw hp 0 rfl]

theorem vshuf (d a b l g : Nat) : Statement (.vshuf d a b l g) := by
  intro w hwf he
  have hr : ([.wide d, .wide a, .wide b, .field l 2, .field g 3] : List Operand).all Operand.fits = true := fits_of_wellFormed hwf
  simp only [List.all_cons, List.all_nil, Operand.fits, Bool.and_eq_true, decide_eq_true_eq, and_true] at hr
  have hp : ∀ seg ∈ ([(g, 3), (0, 5), (l, 2), (b, 5), (a, 5), (d, 5), (61, 7)] : List (Nat × Nat)), seg.1 < 2 ^ seg.2 := by simp; omega
  have hw : w = packed [(g, 3), (0, 5), (l, 2), (b, 5), (a, 5), (d, 5), (61, 7)] := by
    have e : place 0x7a000000 [(d, 20), (a, 15), (b, 10), (l, 8), (g, 0)] = w := Option.some.inj he
    simp only [place, packed] at e ⊢; omega
  refine ⟨lt_of hw hp rfl, ?_⟩
  show byOpcode (field w 25 7) w = _
  rw [show field w 25 7 = 61 from field_at hw hp 6 rfl]
  show opcode3d (field w 3 5) w = _
  rw [show field w 3 5 = 0 from field_at hw hp 1 rfl]
  show Except.ok (Instr.vshuf (field w 20 5) (field w 15 5) (field w 10 5) (field w 8 2) (field w 0 3)) = _
  rw [show field w 20 5 = d from field_at hw hp 5 rfl, show field w 15 5 = a from field_at hw hp 4 rfl, show field w 10 5 = b from field_at hw hp 3 rfl, show field w 8 2 = l from field_at hw hp 2 rfl, show field w 0 3 = g from field_at hw hp 0 rfl]

theorem vrotl (d a b l g : Nat) : Statement (.vrotl d a b l g) := by
  intro w hwf he
  have hr : ([.wide d, .wide a, .source b, .field l 2, .field g 3] : List Operand).all Operand.fits = true := fits_of_wellFormed hwf
  simp only [List.all_cons, List.all_nil, Operand.fits, Bool.and_eq_true, decide_eq_true_eq, and_true] at hr
  have hp : ∀ seg ∈ ([(g, 3), (1, 5), (l, 2), (b, 5), (a, 5), (d, 5), (61, 7)] : List (Nat × Nat)), seg.1 < 2 ^ seg.2 := by simp; omega
  have hw : w = packed [(g, 3), (1, 5), (l, 2), (b, 5), (a, 5), (d, 5), (61, 7)] := by
    have e : place 0x7a000008 [(d, 20), (a, 15), (b, 10), (l, 8), (g, 0)] = w := Option.some.inj he
    simp only [place, packed] at e ⊢; omega
  refine ⟨lt_of hw hp rfl, ?_⟩
  show byOpcode (field w 25 7) w = _
  rw [show field w 25 7 = 61 from field_at hw hp 6 rfl]
  show opcode3d (field w 3 5) w = _
  rw [show field w 3 5 = 1 from field_at hw hp 1 rfl]
  show Except.ok (Instr.vrotl (field w 20 5) (field w 15 5) (field w 10 5) (field w 8 2) (field w 0 3)) = _
  rw [show field w 20 5 = d from field_at hw hp 5 rfl, show field w 15 5 = a from field_at hw hp 4 rfl, show field w 10 5 = b from field_at hw hp 3 rfl, show field w 8 2 = l from field_at hw hp 2 rfl, show field w 0 3 = g from field_at hw hp 0 rfl]

theorem vzip (d a b l g : Nat) : Statement (.vzip d a b l g) := by
  intro w hwf he
  have hr : ([.wide d, .wide a, .wide b, .field l 2, .field g 3] : List Operand).all Operand.fits = true := fits_of_wellFormed hwf
  simp only [List.all_cons, List.all_nil, Operand.fits, Bool.and_eq_true, decide_eq_true_eq, and_true] at hr
  have hp : ∀ seg ∈ ([(g, 3), (2, 5), (l, 2), (b, 5), (a, 5), (d, 5), (61, 7)] : List (Nat × Nat)), seg.1 < 2 ^ seg.2 := by simp; omega
  have hw : w = packed [(g, 3), (2, 5), (l, 2), (b, 5), (a, 5), (d, 5), (61, 7)] := by
    have e : place 0x7a000010 [(d, 20), (a, 15), (b, 10), (l, 8), (g, 0)] = w := Option.some.inj he
    simp only [place, packed] at e ⊢; omega
  refine ⟨lt_of hw hp rfl, ?_⟩
  show byOpcode (field w 25 7) w = _
  rw [show field w 25 7 = 61 from field_at hw hp 6 rfl]
  show opcode3d (field w 3 5) w = _
  rw [show field w 3 5 = 2 from field_at hw hp 1 rfl]
  show Except.ok (Instr.vzip (field w 20 5) (field w 15 5) (field w 10 5) (field w 8 2) (field w 0 3)) = _
  rw [show field w 20 5 = d from field_at hw hp 5 rfl, show field w 15 5 = a from field_at hw hp 4 rfl, show field w 10 5 = b from field_at hw hp 3 rfl, show field w 8 2 = l from field_at hw hp 2 rfl, show field w 0 3 = g from field_at hw hp 0 rfl]

theorem vunzip (d a b l g : Nat) : Statement (.vunzip d a b l g) := by
  intro w hwf he
  have hr : ([.wide d, .wide a, .wide b, .field l 2, .field g 3] : List Operand).all Operand.fits = true := fits_of_wellFormed hwf
  simp only [List.all_cons, List.all_nil, Operand.fits, Bool.and_eq_true, decide_eq_true_eq, and_true] at hr
  have hp : ∀ seg ∈ ([(g, 3), (3, 5), (l, 2), (b, 5), (a, 5), (d, 5), (61, 7)] : List (Nat × Nat)), seg.1 < 2 ^ seg.2 := by simp; omega
  have hw : w = packed [(g, 3), (3, 5), (l, 2), (b, 5), (a, 5), (d, 5), (61, 7)] := by
    have e : place 0x7a000018 [(d, 20), (a, 15), (b, 10), (l, 8), (g, 0)] = w := Option.some.inj he
    simp only [place, packed] at e ⊢; omega
  refine ⟨lt_of hw hp rfl, ?_⟩
  show byOpcode (field w 25 7) w = _
  rw [show field w 25 7 = 61 from field_at hw hp 6 rfl]
  show opcode3d (field w 3 5) w = _
  rw [show field w 3 5 = 3 from field_at hw hp 1 rfl]
  show Except.ok (Instr.vunzip (field w 20 5) (field w 15 5) (field w 10 5) (field w 8 2) (field w 0 3)) = _
  rw [show field w 20 5 = d from field_at hw hp 5 rfl, show field w 15 5 = a from field_at hw hp 4 rfl, show field w 10 5 = b from field_at hw hp 3 rfl, show field w 8 2 = l from field_at hw hp 2 rfl, show field w 0 3 = g from field_at hw hp 0 rfl]

theorem vcvt (d a k t u g : Nat) : Statement (.vcvt d a k t u g) := by
  intro w hwf he
  have hr : ([.wide d, .wide a, .field k 5, .field t 3, .field u 3, .field g 3] : List Operand).all Operand.fits = true := fits_of_wellFormed hwf
  simp only [List.all_cons, List.all_nil, Operand.fits, Bool.and_eq_true, decide_eq_true_eq, and_true] at hr
  have hp : ∀ seg ∈ ([(g, 3), (0, 1), (u, 3), (t, 3), (k, 5), (a, 5), (d, 5), (62, 7)] : List (Nat × Nat)), seg.1 < 2 ^ seg.2 := by simp; omega
  have hw : w = packed [(g, 3), (0, 1), (u, 3), (t, 3), (k, 5), (a, 5), (d, 5), (62, 7)] := by
    have e : place 0x7c000000 [(d, 20), (a, 15), (k, 10), (t, 7), (u, 4), (g, 0)] = w := Option.some.inj he
    simp only [place, packed] at e ⊢; omega
  refine ⟨lt_of hw hp rfl, ?_⟩
  show byOpcode (field w 25 7) w = _
  rw [show field w 25 7 = 62 from field_at hw hp 7 rfl]
  show opcode3e (field w 3 1) w = _
  rw [show field w 3 1 = 0 from field_at hw hp 1 rfl]
  show Except.ok (Instr.vcvt (field w 20 5) (field w 15 5) (field w 10 5) (field w 7 3) (field w 4 3) (field w 0 3)) = _
  rw [show field w 20 5 = d from field_at hw hp 6 rfl, show field w 15 5 = a from field_at hw hp 5 rfl, show field w 10 5 = k from field_at hw hp 4 rfl, show field w 7 3 = t from field_at hw hp 3 rfl, show field w 4 3 = u from field_at hw hp 2 rfl, show field w 0 3 = g from field_at hw hp 0 rfl]

theorem vcvto (d a k t u g : Nat) : Statement (.vcvto d a k t u g) := by
  intro w hwf he
  have hr : ([.wide d, .wide a, .field k 5, .field t 3, .field u 3, .field g 3] : List Operand).all Operand.fits = true := fits_of_wellFormed hwf
  simp only [List.all_cons, List.all_nil, Operand.fits, Bool.and_eq_true, decide_eq_true_eq, and_true] at hr
  have hp : ∀ seg ∈ ([(g, 3), (1, 1), (u, 3), (t, 3), (k, 5), (a, 5), (d, 5), (62, 7)] : List (Nat × Nat)), seg.1 < 2 ^ seg.2 := by simp; omega
  have hw : w = packed [(g, 3), (1, 1), (u, 3), (t, 3), (k, 5), (a, 5), (d, 5), (62, 7)] := by
    have e : place 0x7c000008 [(d, 20), (a, 15), (k, 10), (t, 7), (u, 4), (g, 0)] = w := Option.some.inj he
    simp only [place, packed] at e ⊢; omega
  refine ⟨lt_of hw hp rfl, ?_⟩
  show byOpcode (field w 25 7) w = _
  rw [show field w 25 7 = 62 from field_at hw hp 7 rfl]
  show opcode3e (field w 3 1) w = _
  rw [show field w 3 1 = 1 from field_at hw hp 1 rfl]
  show Except.ok (Instr.vcvto (field w 20 5) (field w 15 5) (field w 10 5) (field w 7 3) (field w 4 3) (field w 0 3)) = _
  rw [show field w 20 5 = d from field_at hw hp 6 rfl, show field w 15 5 = a from field_at hw hp 5 rfl, show field w 10 5 = k from field_at hw hp 4 rfl, show field w 7 3 = t from field_at hw hp 3 rfl, show field w 4 3 = u from field_at hw hp 2 rfl, show field w 0 3 = g from field_at hw hp 0 rfl]

theorem vsel (d a b l g : Nat) : Statement (.vsel d a b l g) := by
  intro w hwf he
  have hr : ([.wide d, .wide a, .wide b, .field l 2, .field g 3] : List Operand).all Operand.fits = true := fits_of_wellFormed hwf
  simp only [List.all_cons, List.all_nil, Operand.fits, Bool.and_eq_true, decide_eq_true_eq, and_true] at hr
  have hp : ∀ seg ∈ ([(g, 3), (0, 5), (l, 2), (b, 5), (a, 5), (d, 5), (63, 7)] : List (Nat × Nat)), seg.1 < 2 ^ seg.2 := by simp; omega
  have hw : w = packed [(g, 3), (0, 5), (l, 2), (b, 5), (a, 5), (d, 5), (63, 7)] := by
    have e : place 0x7e000000 [(d, 20), (a, 15), (b, 10), (l, 8), (g, 0)] = w := Option.some.inj he
    simp only [place, packed] at e ⊢; omega
  refine ⟨lt_of hw hp rfl, ?_⟩
  show byOpcode (field w 25 7) w = _
  rw [show field w 25 7 = 63 from field_at hw hp 6 rfl]
  show opcode3f (field w 3 5) w = _
  rw [show field w 3 5 = 0 from field_at hw hp 1 rfl]
  show Except.ok (Instr.vsel (field w 20 5) (field w 15 5) (field w 10 5) (field w 8 2) (field w 0 3)) = _
  rw [show field w 20 5 = d from field_at hw hp 5 rfl, show field w 15 5 = a from field_at hw hp 4 rfl, show field w 10 5 = b from field_at hw hp 3 rfl, show field w 8 2 = l from field_at hw hp 2 rfl, show field w 0 3 = g from field_at hw hp 0 rfl]

theorem vdot (d a b t g : Nat) : Statement (.vdot d a b t g) := by
  intro w hwf he
  have hr : ([.wide d, .wide a, .wide b, .field t 2, .field g 3] : List Operand).all Operand.fits = true := fits_of_wellFormed hwf
  simp only [List.all_cons, List.all_nil, Operand.fits, Bool.and_eq_true, decide_eq_true_eq, and_true] at hr
  have hp : ∀ seg ∈ ([(g, 3), (0, 5), (t, 2), (b, 5), (a, 5), (d, 5), (64, 7)] : List (Nat × Nat)), seg.1 < 2 ^ seg.2 := by simp; omega
  have hw : w = packed [(g, 3), (0, 5), (t, 2), (b, 5), (a, 5), (d, 5), (64, 7)] := by
    have e : place 0x80000000 [(d, 20), (a, 15), (b, 10), (t, 8), (g, 0)] = w := Option.some.inj he
    simp only [place, packed] at e ⊢; omega
  refine ⟨lt_of hw hp rfl, ?_⟩
  show byOpcode (field w 25 7) w = _
  rw [show field w 25 7 = 64 from field_at hw hp 6 rfl]
  show opcode40 (field w 3 5) w = _
  rw [show field w 3 5 = 0 from field_at hw hp 1 rfl]
  show Except.ok (Instr.vdot (field w 20 5) (field w 15 5) (field w 10 5) (field w 8 2) (field w 0 3)) = _
  rw [show field w 20 5 = d from field_at hw hp 5 rfl, show field w 15 5 = a from field_at hw hp 4 rfl, show field w 10 5 = b from field_at hw hp 3 rfl, show field w 8 2 = t from field_at hw hp 2 rfl, show field w 0 3 = g from field_at hw hp 0 rfl]

theorem vsplat (d a l k g : Nat) : Statement (.vsplat d a l k g) := by
  intro w hwf he
  have hr : ([.wide d, .source a, .field l 2, .field k 10, .field g 3] : List Operand).all Operand.fits = true := fits_of_wellFormed hwf
  simp only [List.all_cons, List.all_nil, Operand.fits, Bool.and_eq_true, decide_eq_true_eq, and_true] at hr
  have hp : ∀ seg ∈ ([(g, 3), (k, 10), (l, 2), (a, 5), (d, 5), (65, 7)] : List (Nat × Nat)), seg.1 < 2 ^ seg.2 := by simp; omega
  have hw : w = packed [(g, 3), (k, 10), (l, 2), (a, 5), (d, 5), (65, 7)] := by
    have e : place 0x82000000 [(d, 20), (a, 15), (l, 13), (k, 3), (g, 0)] = w := Option.some.inj he
    simp only [place, packed] at e ⊢; omega
  refine ⟨lt_of hw hp rfl, ?_⟩
  show byOpcode (field w 25 7) w = _
  rw [show field w 25 7 = 65 from field_at hw hp 5 rfl]
  show Except.ok (Instr.vsplat (field w 20 5) (field w 15 5) (field w 13 2) (field w 3 10) (field w 0 3)) = _
  rw [show field w 20 5 = d from field_at hw hp 4 rfl, show field w 15 5 = a from field_at hw hp 3 rfl, show field w 13 2 = l from field_at hw hp 2 rfl, show field w 3 10 = k from field_at hw hp 1 rfl, show field w 0 3 = g from field_at hw hp 0 rfl]

theorem gang2 (g : Nat) : Statement (.gang2 g) := by
  intro w hwf he
  have hr : ([.field g 3] : List Operand).all Operand.fits = true := fits_of_wellFormed hwf
  simp only [List.all_cons, List.all_nil, Operand.fits, Bool.and_eq_true, decide_eq_true_eq, and_true] at hr
  have hp : ∀ seg ∈ ([(g, 3), (0, 7), (0, 15), (66, 7)] : List (Nat × Nat)), seg.1 < 2 ^ seg.2 := by simp; omega
  have hw : w = packed [(g, 3), (0, 7), (0, 15), (66, 7)] := by
    have e : place 0x84000000 [(g, 0)] = w := Option.some.inj he
    simp only [place, packed] at e ⊢; omega
  refine ⟨lt_of hw hp rfl, ?_⟩
  show byOpcode (field w 25 7) w = _
  rw [show field w 25 7 = 66 from field_at hw hp 3 rfl]
  show opcode42 (field w 3 7) w = _
  rw [show field w 3 7 = 0 from field_at hw hp 1 rfl]
  show Except.ok (Instr.gang2 (field w 0 3)) = _
  rw [show field w 0 3 = g from field_at hw hp 0 rfl]

theorem gang4 (g : Nat) : Statement (.gang4 g) := by
  intro w hwf he
  have hr : ([.field g 3] : List Operand).all Operand.fits = true := fits_of_wellFormed hwf
  simp only [List.all_cons, List.all_nil, Operand.fits, Bool.and_eq_true, decide_eq_true_eq, and_true] at hr
  have hp : ∀ seg ∈ ([(g, 3), (1, 7), (0, 15), (66, 7)] : List (Nat × Nat)), seg.1 < 2 ^ seg.2 := by simp; omega
  have hw : w = packed [(g, 3), (1, 7), (0, 15), (66, 7)] := by
    have e : place 0x84000008 [(g, 0)] = w := Option.some.inj he
    simp only [place, packed] at e ⊢; omega
  refine ⟨lt_of hw hp rfl, ?_⟩
  show byOpcode (field w 25 7) w = _
  rw [show field w 25 7 = 66 from field_at hw hp 3 rfl]
  show opcode42 (field w 3 7) w = _
  rw [show field w 3 7 = 1 from field_at hw hp 1 rfl]
  show Except.ok (Instr.gang4 (field w 0 3)) = _
  rw [show field w 0 3 = g from field_at hw hp 0 rfl]

theorem gang8 (g : Nat) : Statement (.gang8 g) := by
  intro w hwf he
  have hr : ([.field g 3] : List Operand).all Operand.fits = true := fits_of_wellFormed hwf
  simp only [List.all_cons, List.all_nil, Operand.fits, Bool.and_eq_true, decide_eq_true_eq, and_true] at hr
  have hp : ∀ seg ∈ ([(g, 3), (2, 7), (0, 15), (66, 7)] : List (Nat × Nat)), seg.1 < 2 ^ seg.2 := by simp; omega
  have hw : w = packed [(g, 3), (2, 7), (0, 15), (66, 7)] := by
    have e : place 0x84000010 [(g, 0)] = w := Option.some.inj he
    simp only [place, packed] at e ⊢; omega
  refine ⟨lt_of hw hp rfl, ?_⟩
  show byOpcode (field w 25 7) w = _
  rw [show field w 25 7 = 66 from field_at hw hp 3 rfl]
  show opcode42 (field w 3 7) w = _
  rw [show field w 3 7 = 2 from field_at hw hp 1 rfl]
  show Except.ok (Instr.gang8 (field w 0 3)) = _
  rw [show field w 0 3 = g from field_at hw hp 0 rfl]

theorem disband (g : Nat) : Statement (.disband g) := by
  intro w hwf he
  have hr : ([.field g 3] : List Operand).all Operand.fits = true := fits_of_wellFormed hwf
  simp only [List.all_cons, List.all_nil, Operand.fits, Bool.and_eq_true, decide_eq_true_eq, and_true] at hr
  have hp : ∀ seg ∈ ([(g, 3), (3, 7), (0, 15), (66, 7)] : List (Nat × Nat)), seg.1 < 2 ^ seg.2 := by simp; omega
  have hw : w = packed [(g, 3), (3, 7), (0, 15), (66, 7)] := by
    have e : place 0x84000018 [(g, 0)] = w := Option.some.inj he
    simp only [place, packed] at e ⊢; omega
  refine ⟨lt_of hw hp rfl, ?_⟩
  show byOpcode (field w 25 7) w = _
  rw [show field w 25 7 = 66 from field_at hw hp 3 rfl]
  show opcode42 (field w 3 7) w = _
  rw [show field w 3 7 = 3 from field_at hw hp 1 rfl]
  show Except.ok (Instr.disband (field w 0 3)) = _
  rw [show field w 0 3 = g from field_at hw hp 0 rfl]

theorem ngetG (d a b g : Nat) : Statement (.ngetG d a b g) := by
  intro w hwf he
  have hr : ([.noPort d, .source a, .noPort b, .field g 3] : List Operand).all Operand.fits = true := fits_of_wellFormed hwf
  simp only [List.all_cons, List.all_nil, Operand.fits, Bool.and_eq_true, decide_eq_true_eq, and_true] at hr
  have hp : ∀ seg ∈ ([(g, 3), (0, 7), (b, 5), (a, 5), (d, 5), (67, 7)] : List (Nat × Nat)), seg.1 < 2 ^ seg.2 := by simp; omega
  have hw : w = packed [(g, 3), (0, 7), (b, 5), (a, 5), (d, 5), (67, 7)] := by
    have e : place 0x86000000 [(d, 20), (a, 15), (b, 10), (g, 0)] = w := Option.some.inj he
    simp only [place, packed] at e ⊢; omega
  refine ⟨lt_of hw hp rfl, ?_⟩
  show byOpcode (field w 25 7) w = _
  rw [show field w 25 7 = 67 from field_at hw hp 5 rfl]
  show opcode43 (field w 3 7) w = _
  rw [show field w 3 7 = 0 from field_at hw hp 1 rfl]
  show Except.ok (Instr.ngetG (field w 20 5) (field w 15 5) (field w 10 5) (field w 0 3)) = _
  rw [show field w 20 5 = d from field_at hw hp 4 rfl, show field w 15 5 = a from field_at hw hp 3 rfl, show field w 10 5 = b from field_at hw hp 2 rfl, show field w 0 3 = g from field_at hw hp 0 rfl]

theorem ngetS (d a b g : Nat) : Statement (.ngetS d a b g) := by
  intro w hwf he
  have hr : ([.noPort d, .source a, .source b, .field g 3] : List Operand).all Operand.fits = true := fits_of_wellFormed hwf
  simp only [List.all_cons, List.all_nil, Operand.fits, Bool.and_eq_true, decide_eq_true_eq, and_true] at hr
  have hp : ∀ seg ∈ ([(g, 3), (1, 7), (b, 5), (a, 5), (d, 5), (67, 7)] : List (Nat × Nat)), seg.1 < 2 ^ seg.2 := by simp; omega
  have hw : w = packed [(g, 3), (1, 7), (b, 5), (a, 5), (d, 5), (67, 7)] := by
    have e : place 0x86000008 [(d, 20), (a, 15), (b, 10), (g, 0)] = w := Option.some.inj he
    simp only [place, packed] at e ⊢; omega
  refine ⟨lt_of hw hp rfl, ?_⟩
  show byOpcode (field w 25 7) w = _
  rw [show field w 25 7 = 67 from field_at hw hp 5 rfl]
  show opcode43 (field w 3 7) w = _
  rw [show field w 3 7 = 1 from field_at hw hp 1 rfl]
  show Except.ok (Instr.ngetS (field w 20 5) (field w 15 5) (field w 10 5) (field w 0 3)) = _
  rw [show field w 20 5 = d from field_at hw hp 4 rfl, show field w 15 5 = a from field_at hw hp 3 rfl, show field w 10 5 = b from field_at hw hp 2 rfl, show field w 0 3 = g from field_at hw hp 0 rfl]

theorem nput (d a b g : Nat) : Statement (.nput d a b g) := by
  intro w hwf he
  have hr : ([.noPort d, .source a, .source b, .field g 3] : List Operand).all Operand.fits = true := fits_of_wellFormed hwf
  simp only [List.all_cons, List.all_nil, Operand.fits, Bool.and_eq_true, decide_eq_true_eq, and_true] at hr
  have hp : ∀ seg ∈ ([(g, 3), (0, 7), (b, 5), (a, 5), (d, 5), (68, 7)] : List (Nat × Nat)), seg.1 < 2 ^ seg.2 := by simp; omega
  have hw : w = packed [(g, 3), (0, 7), (b, 5), (a, 5), (d, 5), (68, 7)] := by
    have e : place 0x88000000 [(d, 20), (a, 15), (b, 10), (g, 0)] = w := Option.some.inj he
    simp only [place, packed] at e ⊢; omega
  refine ⟨lt_of hw hp rfl, ?_⟩
  show byOpcode (field w 25 7) w = _
  rw [show field w 25 7 = 68 from field_at hw hp 5 rfl]
  show opcode44 (field w 3 7) w = _
  rw [show field w 3 7 = 0 from field_at hw hp 1 rfl]
  show Except.ok (Instr.nput (field w 20 5) (field w 15 5) (field w 10 5) (field w 0 3)) = _
  rw [show field w 20 5 = d from field_at hw hp 4 rfl, show field w 15 5 = a from field_at hw hp 3 rfl, show field w 10 5 = b from field_at hw hp 2 rfl, show field w 0 3 = g from field_at hw hp 0 rfl]

theorem ld (d a off sz z g : Nat) : Statement (.ld d a off sz z g) := by
  intro w hwf he
  have hr : ([.dest d, .source a, .field off 9, .field sz 2, .field z 1, .field g 3] : List Operand).all Operand.fits = true := fits_of_wellFormed hwf
  simp only [List.all_cons, List.all_nil, Operand.fits, Bool.and_eq_true, decide_eq_true_eq, and_true] at hr
  have hp : ∀ seg ∈ ([(g, 3), (z, 1), (sz, 2), (off, 9), (a, 5), (d, 5), (72, 7)] : List (Nat × Nat)), seg.1 < 2 ^ seg.2 := by simp; omega
  have hw : w = packed [(g, 3), (z, 1), (sz, 2), (off, 9), (a, 5), (d, 5), (72, 7)] := by
    have e : place 0x90000000 [(d, 20), (a, 15), (off, 6), (sz, 4), (z, 3), (g, 0)] = w := Option.some.inj he
    simp only [place, packed] at e ⊢; omega
  refine ⟨lt_of hw hp rfl, ?_⟩
  show byOpcode (field w 25 7) w = _
  rw [show field w 25 7 = 72 from field_at hw hp 6 rfl]
  show Except.ok (Instr.ld (field w 20 5) (field w 15 5) (field w 6 9) (field w 4 2) (field w 3 1) (field w 0 3)) = _
  rw [show field w 20 5 = d from field_at hw hp 5 rfl, show field w 15 5 = a from field_at hw hp 4 rfl, show field w 6 9 = off from field_at hw hp 3 rfl, show field w 4 2 = sz from field_at hw hp 2 rfl, show field w 3 1 = z from field_at hw hp 1 rfl, show field w 0 3 = g from field_at hw hp 0 rfl]

theorem st (d a off sz g : Nat) : Statement (.st d a off sz g) := by
  intro w hwf he
  have hr : ([.source d, .source a, .field off 9, .field sz 2, .field g 3] : List Operand).all Operand.fits = true := fits_of_wellFormed hwf
  simp only [List.all_cons, List.all_nil, Operand.fits, Bool.and_eq_true, decide_eq_true_eq, and_true] at hr
  have hp : ∀ seg ∈ ([(g, 3), (0, 1), (sz, 2), (off, 9), (a, 5), (d, 5), (73, 7)] : List (Nat × Nat)), seg.1 < 2 ^ seg.2 := by simp; omega
  have hw : w = packed [(g, 3), (0, 1), (sz, 2), (off, 9), (a, 5), (d, 5), (73, 7)] := by
    have e : place 0x92000000 [(d, 20), (a, 15), (off, 6), (sz, 4), (g, 0)] = w := Option.some.inj he
    simp only [place, packed] at e ⊢; omega
  refine ⟨lt_of hw hp rfl, ?_⟩
  show byOpcode (field w 25 7) w = _
  rw [show field w 25 7 = 73 from field_at hw hp 6 rfl]
  show Except.ok (Instr.st (field w 20 5) (field w 15 5) (field w 6 9) (field w 4 2) (field w 0 3)) = _
  rw [show field w 20 5 = d from field_at hw hp 5 rfl, show field w 15 5 = a from field_at hw hp 4 rfl, show field w 6 9 = off from field_at hw hp 3 rfl, show field w 4 2 = sz from field_at hw hp 2 rfl, show field w 0 3 = g from field_at hw hp 0 rfl]

theorem ldw (d a off g : Nat) : Statement (.ldw d a off g) := by
  intro w hwf he
  have hr : ([.wide d, .source a, .field off 9, .field g 3] : List Operand).all Operand.fits = true := fits_of_wellFormed hwf
  simp only [List.all_cons, List.all_nil, Operand.fits, Bool.and_eq_true, decide_eq_true_eq, and_true] at hr
  have hp : ∀ seg ∈ ([(g, 3), (0, 3), (off, 9), (a, 5), (d, 5), (74, 7)] : List (Nat × Nat)), seg.1 < 2 ^ seg.2 := by simp; omega
  have hw : w = packed [(g, 3), (0, 3), (off, 9), (a, 5), (d, 5), (74, 7)] := by
    have e : place 0x94000000 [(d, 20), (a, 15), (off, 6), (g, 0)] = w := Option.some.inj he
    simp only [place, packed] at e ⊢; omega
  refine ⟨lt_of hw hp rfl, ?_⟩
  show byOpcode (field w 25 7) w = _
  rw [show field w 25 7 = 74 from field_at hw hp 5 rfl]
  show Except.ok (Instr.ldw (field w 20 5) (field w 15 5) (field w 6 9) (field w 0 3)) = _
  rw [show field w 20 5 = d from field_at hw hp 4 rfl, show field w 15 5 = a from field_at hw hp 3 rfl, show field w 6 9 = off from field_at hw hp 2 rfl, show field w 0 3 = g from field_at hw hp 0 rfl]

theorem stw (d a off g : Nat) : Statement (.stw d a off g) := by
  intro w hwf he
  have hr : ([.wide d, .source a, .field off 9, .field g 3] : List Operand).all Operand.fits = true := fits_of_wellFormed hwf
  simp only [List.all_cons, List.all_nil, Operand.fits, Bool.and_eq_true, decide_eq_true_eq, and_true] at hr
  have hp : ∀ seg ∈ ([(g, 3), (0, 3), (off, 9), (a, 5), (d, 5), (75, 7)] : List (Nat × Nat)), seg.1 < 2 ^ seg.2 := by simp; omega
  have hw : w = packed [(g, 3), (0, 3), (off, 9), (a, 5), (d, 5), (75, 7)] := by
    have e : place 0x96000000 [(d, 20), (a, 15), (off, 6), (g, 0)] = w := Option.some.inj he
    simp only [place, packed] at e ⊢; omega
  refine ⟨lt_of hw hp rfl, ?_⟩
  show byOpcode (field w 25 7) w = _
  rw [show field w 25 7 = 75 from field_at hw hp 5 rfl]
  show Except.ok (Instr.stw (field w 20 5) (field w 15 5) (field w 6 9) (field w 0 3)) = _
  rw [show field w 20 5 = d from field_at hw hp 4 rfl, show field w 15 5 = a from field_at hw hp 3 rfl, show field w 6 9 = off from field_at hw hp 2 rfl, show field w 0 3 = g from field_at hw hp 0 rfl]

theorem ldx (d a b sz sgn sc g : Nat) : Statement (.ldx d a b sz sgn sc g) := by
  intro w hwf he
  have hr : ([.dest d, .source a, .source b, .field sz 2, .field sgn 1, .field sc 2, .field g 3] : List Operand).all Operand.fits = true := fits_of_wellFormed hwf
  simp only [List.all_cons, List.all_nil, Operand.fits, Bool.and_eq_true, decide_eq_true_eq, and_true] at hr
  have hp : ∀ seg ∈ ([(g, 3), (sc, 2), (0, 2), (sgn, 1), (sz, 2), (b, 5), (a, 5), (d, 5), (76, 7)] : List (Nat × Nat)), seg.1 < 2 ^ seg.2 := by simp; omega
  have hw : w = packed [(g, 3), (sc, 2), (0, 2), (sgn, 1), (sz, 2), (b, 5), (a, 5), (d, 5), (76, 7)] := by
    have e : place 0x98000000 [(d, 20), (a, 15), (b, 10), (sz, 8), (sgn, 7), (sc, 3), (g, 0)] = w := Option.some.inj he
    simp only [place, packed] at e ⊢; omega
  refine ⟨lt_of hw hp rfl, ?_⟩
  show byOpcode (field w 25 7) w = _
  rw [show field w 25 7 = 76 from field_at hw hp 8 rfl]
  show opcode4c (field w 5 2) w = _
  rw [show field w 5 2 = 0 from field_at hw hp 2 rfl]
  show Except.ok (Instr.ldx (field w 20 5) (field w 15 5) (field w 10 5) (field w 8 2) (field w 7 1) (field w 3 2) (field w 0 3)) = _
  rw [show field w 20 5 = d from field_at hw hp 7 rfl, show field w 15 5 = a from field_at hw hp 6 rfl, show field w 10 5 = b from field_at hw hp 5 rfl, show field w 8 2 = sz from field_at hw hp 4 rfl, show field w 7 1 = sgn from field_at hw hp 3 rfl, show field w 3 2 = sc from field_at hw hp 1 rfl, show field w 0 3 = g from field_at hw hp 0 rfl]

theorem stx (d a b sz sc g : Nat) : Statement (.stx d a b sz sc g) := by
  intro w hwf he
  have hr : ([.source d, .source a, .source b, .field sz 2, .field sc 2, .field g 3] : List Operand).all Operand.fits = true := fits_of_wellFormed hwf
  simp only [List.all_cons, List.all_nil, Operand.fits, Bool.and_eq_true, decide_eq_true_eq, and_true] at hr
  have hp : ∀ seg ∈ ([(g, 3), (sc, 2), (0, 2), (0, 1), (sz, 2), (b, 5), (a, 5), (d, 5), (77, 7)] : List (Nat × Nat)), seg.1 < 2 ^ seg.2 := by simp; omega
  have hw : w = packed [(g, 3), (sc, 2), (0, 2), (0, 1), (sz, 2), (b, 5), (a, 5), (d, 5), (77, 7)] := by
    have e : place 0x9a000000 [(d, 20), (a, 15), (b, 10), (sz, 8), (sc, 3), (g, 0)] = w := Option.some.inj he
    simp only [place, packed] at e ⊢; omega
  refine ⟨lt_of hw hp rfl, ?_⟩
  show byOpcode (field w 25 7) w = _
  rw [show field w 25 7 = 77 from field_at hw hp 8 rfl]
  show opcode4d (field w 5 2) w = _
  rw [show field w 5 2 = 0 from field_at hw hp 2 rfl]
  show (if field w 7 1 = 0 then Except.ok (Instr.stx (field w 20 5) (field w 15 5) (field w 10 5) (field w 8 2) (field w 3 2) (field w 0 3)) else Except.error 1) = _
  rw [if_pos (show field w 7 1 = 0 from field_at hw hp 3 rfl)]
  show Except.ok (Instr.stx (field w 20 5) (field w 15 5) (field w 10 5) (field w 8 2) (field w 3 2) (field w 0 3)) = _
  rw [show field w 20 5 = d from field_at hw hp 7 rfl, show field w 15 5 = a from field_at hw hp 6 rfl, show field w 10 5 = b from field_at hw hp 5 rfl, show field w 8 2 = sz from field_at hw hp 4 rfl, show field w 3 2 = sc from field_at hw hp 1 rfl, show field w 0 3 = g from field_at hw hp 0 rfl]

theorem gld (d a off sz z g : Nat) : Statement (.gld d a off sz z g) := by
  intro w hwf he
  have hr : ([.noPort d, .source a, .field off 9, .field sz 2, .field z 1, .field g 3] : List Operand).all Operand.fits = true := fits_of_wellFormed hwf
  simp only [List.all_cons, List.all_nil, Operand.fits, Bool.and_eq_true, decide_eq_true_eq, and_true] at hr
  have hp : ∀ seg ∈ ([(g, 3), (z, 1), (sz, 2), (off, 9), (a, 5), (d, 5), (80, 7)] : List (Nat × Nat)), seg.1 < 2 ^ seg.2 := by simp; omega
  have hw : w = packed [(g, 3), (z, 1), (sz, 2), (off, 9), (a, 5), (d, 5), (80, 7)] := by
    have e : place 0xa0000000 [(d, 20), (a, 15), (off, 6), (sz, 4), (z, 3), (g, 0)] = w := Option.some.inj he
    simp only [place, packed] at e ⊢; omega
  refine ⟨lt_of hw hp rfl, ?_⟩
  show byOpcode (field w 25 7) w = _
  rw [show field w 25 7 = 80 from field_at hw hp 6 rfl]
  show Except.ok (Instr.gld (field w 20 5) (field w 15 5) (field w 6 9) (field w 4 2) (field w 3 1) (field w 0 3)) = _
  rw [show field w 20 5 = d from field_at hw hp 5 rfl, show field w 15 5 = a from field_at hw hp 4 rfl, show field w 6 9 = off from field_at hw hp 3 rfl, show field w 4 2 = sz from field_at hw hp 2 rfl, show field w 3 1 = z from field_at hw hp 1 rfl, show field w 0 3 = g from field_at hw hp 0 rfl]

theorem gst (d a off sz g : Nat) : Statement (.gst d a off sz g) := by
  intro w hwf he
  have hr : ([.source d, .source a, .field off 9, .field sz 2, .field g 3] : List Operand).all Operand.fits = true := fits_of_wellFormed hwf
  simp only [List.all_cons, List.all_nil, Operand.fits, Bool.and_eq_true, decide_eq_true_eq, and_true] at hr
  have hp : ∀ seg ∈ ([(g, 3), (0, 1), (sz, 2), (off, 9), (a, 5), (d, 5), (81, 7)] : List (Nat × Nat)), seg.1 < 2 ^ seg.2 := by simp; omega
  have hw : w = packed [(g, 3), (0, 1), (sz, 2), (off, 9), (a, 5), (d, 5), (81, 7)] := by
    have e : place 0xa2000000 [(d, 20), (a, 15), (off, 6), (sz, 4), (g, 0)] = w := Option.some.inj he
    simp only [place, packed] at e ⊢; omega
  refine ⟨lt_of hw hp rfl, ?_⟩
  show byOpcode (field w 25 7) w = _
  rw [show field w 25 7 = 81 from field_at hw hp 6 rfl]
  show Except.ok (Instr.gst (field w 20 5) (field w 15 5) (field w 6 9) (field w 4 2) (field w 0 3)) = _
  rw [show field w 20 5 = d from field_at hw hp 5 rfl, show field w 15 5 = a from field_at hw hp 4 rfl, show field w 6 9 = off from field_at hw hp 3 rfl, show field w 4 2 = sz from field_at hw hp 2 rfl, show field w 0 3 = g from field_at hw hp 0 rfl]

theorem pref (a off g : Nat) : Statement (.pref a off g) := by
  intro w hwf he
  have hr : ([.source a, .field off 9, .field g 3] : List Operand).all Operand.fits = true := fits_of_wellFormed hwf
  simp only [List.all_cons, List.all_nil, Operand.fits, Bool.and_eq_true, decide_eq_true_eq, and_true] at hr
  have hp : ∀ seg ∈ ([(g, 3), (0, 3), (off, 9), (a, 5), (0, 5), (86, 7)] : List (Nat × Nat)), seg.1 < 2 ^ seg.2 := by simp; omega
  have hw : w = packed [(g, 3), (0, 3), (off, 9), (a, 5), (0, 5), (86, 7)] := by
    have e : place 0xac000000 [(a, 15), (off, 6), (g, 0)] = w := Option.some.inj he
    simp only [place, packed] at e ⊢; omega
  refine ⟨lt_of hw hp rfl, ?_⟩
  show byOpcode (field w 25 7) w = _
  rw [show field w 25 7 = 86 from field_at hw hp 5 rfl]
  show opcode56 w = _
  have c0 : field w 15 5 = a := field_at hw hp 3 rfl
  have c1 : field w 6 9 = off := field_at hw hp 2 rfl
  have c2 : field w 0 3 = g := field_at hw hp 0 rfl
  have c3 : field w 20 5 = 0 := field_at hw hp 4 rfl
  simp [opcode56, c0, c1, c2, c3]

theorem prefTier (a off g : Nat) : Statement (.prefTier a off g) := by
  intro w hwf he
  have hr : ([.source a, .field off 9, .field g 3] : List Operand).all Operand.fits = true := fits_of_wellFormed hwf
  simp only [List.all_cons, List.all_nil, Operand.fits, Bool.and_eq_true, decide_eq_true_eq, and_true] at hr
  have hp : ∀ seg ∈ ([(g, 3), (0, 3), (off, 9), (a, 5), (1, 5), (86, 7)] : List (Nat × Nat)), seg.1 < 2 ^ seg.2 := by simp; omega
  have hw : w = packed [(g, 3), (0, 3), (off, 9), (a, 5), (1, 5), (86, 7)] := by
    have e : place 0xac100000 [(a, 15), (off, 6), (g, 0)] = w := Option.some.inj he
    simp only [place, packed] at e ⊢; omega
  refine ⟨lt_of hw hp rfl, ?_⟩
  show byOpcode (field w 25 7) w = _
  rw [show field w 25 7 = 86 from field_at hw hp 5 rfl]
  show opcode56 w = _
  have c0 : field w 15 5 = a := field_at hw hp 3 rfl
  have c1 : field w 6 9 = off := field_at hw hp 2 rfl
  have c2 : field w 0 3 = g := field_at hw hp 0 rfl
  have c3 : field w 20 5 = 1 := field_at hw hp 4 rfl
  simp [opcode56, c0, c1, c2, c3]

theorem cpy (cv n a b g : Nat) : Statement (.cpy cv n a b g) := by
  intro w hwf he
  have hr : ([.field cv 1, .field n 2, .source a, .source b, .field g 3] : List Operand).all Operand.fits = true := fits_of_wellFormed hwf
  simp only [List.all_cons, List.all_nil, Operand.fits, Bool.and_eq_true, decide_eq_true_eq, and_true] at hr
  have hp : ∀ seg ∈ ([(g, 3), (0, 5), (b, 5), (a, 5), (n, 2), (cv, 1), (0, 1), (0, 3), (82, 7)] : List (Nat × Nat)), seg.1 < 2 ^ seg.2 := by simp; omega
  have hw : w = packed [(g, 3), (0, 5), (b, 5), (a, 5), (n, 2), (cv, 1), (0, 1), (0, 3), (82, 7)] := by
    have e : place 0xa4000000 [(cv, 20), (n, 18), (a, 13), (b, 8), (g, 0)] = w := Option.some.inj he
    simp only [place, packed] at e ⊢; omega
  refine ⟨lt_of hw hp rfl, ?_⟩
  show byOpcode (field w 25 7) w = _
  rw [show field w 25 7 = 82 from field_at hw hp 8 rfl]
  show opcode52 w = _
  have c0 : field w 20 1 = cv := field_at hw hp 5 rfl
  have c1 : field w 18 2 = n := field_at hw hp 4 rfl
  have c2 : field w 13 5 = a := field_at hw hp 3 rfl
  have c3 : field w 8 5 = b := field_at hw hp 2 rfl
  have c4 : field w 0 3 = g := field_at hw hp 0 rfl
  have c5 : field w 22 3 = 0 := field_at hw hp 7 rfl
  have c6 : field w 21 1 = 0 := field_at hw hp 6 rfl
  simp [opcode52, c0, c1, c2, c3, c4, c5, c6]

theorem cpyArm (cv n b t g : Nat) : Statement (.cpyArm cv n b t g) := by
  intro w hwf he
  have hr : ([.field cv 1, .field n 2, .source b, .field t 3, .field g 3] : List Operand).all Operand.fits = true := fits_of_wellFormed hwf
  simp only [List.all_cons, List.all_nil, Operand.fits, Bool.and_eq_true, decide_eq_true_eq, and_true] at hr
  have hp : ∀ seg ∈ ([(g, 3), (t, 3), (0, 2), (b, 5), (0, 5), (n, 2), (cv, 1), (1, 1), (0, 3), (82, 7)] : List (Nat × Nat)), seg.1 < 2 ^ seg.2 := by simp; omega
  have hw : w = packed [(g, 3), (t, 3), (0, 2), (b, 5), (0, 5), (n, 2), (cv, 1), (1, 1), (0, 3), (82, 7)] := by
    have e : place 0xa4200000 [(cv, 20), (n, 18), (b, 8), (t, 3), (g, 0)] = w := Option.some.inj he
    simp only [place, packed] at e ⊢; omega
  refine ⟨lt_of hw hp rfl, ?_⟩
  show byOpcode (field w 25 7) w = _
  rw [show field w 25 7 = 82 from field_at hw hp 9 rfl]
  show opcode52 w = _
  have c0 : field w 20 1 = cv := field_at hw hp 6 rfl
  have c1 : field w 18 2 = n := field_at hw hp 5 rfl
  have c2 : field w 8 5 = b := field_at hw hp 3 rfl
  have c3 : field w 3 3 = t := field_at hw hp 1 rfl
  have c4 : field w 0 3 = g := field_at hw hp 0 rfl
  have c5 : field w 22 3 = 0 := field_at hw hp 8 rfl
  have c6 : field w 21 1 = 1 := field_at hw hp 7 rfl
  simp [opcode52, c0, c1, c2, c3, c4, c5, c6]

theorem wait (nl ns nc nt nm g : Nat) : Statement (.wait nl ns nc nt nm g) := by
  intro w hwf he
  have hr : ([.field nl 4, .field ns 4, .field nc 4, .field nt 4, .field nm 4, .field g 3] : List Operand).all Operand.fits = true := fits_of_wellFormed hwf
  simp only [List.all_cons, List.all_nil, Operand.fits, Bool.and_eq_true, decide_eq_true_eq, and_true] at hr
  have hp : ∀ seg ∈ ([(g, 3), (0, 2), (nm, 4), (nt, 4), (nc, 4), (ns, 4), (nl, 4), (83, 7)] : List (Nat × Nat)), seg.1 < 2 ^ seg.2 := by simp; omega
  have hw : w = packed [(g, 3), (0, 2), (nm, 4), (nt, 4), (nc, 4), (ns, 4), (nl, 4), (83, 7)] := by
    have e : place 0xa6000000 [(nl, 21), (ns, 17), (nc, 13), (nt, 9), (nm, 5), (g, 0)] = w := Option.some.inj he
    simp only [place, packed] at e ⊢; omega
  refine ⟨lt_of hw hp rfl, ?_⟩
  show byOpcode (field w 25 7) w = _
  rw [show field w 25 7 = 83 from field_at hw hp 7 rfl]
  show Except.ok (Instr.wait (field w 21 4) (field w 17 4) (field w 13 4) (field w 9 4) (field w 5 4) (field w 0 3)) = _
  rw [show field w 21 4 = nl from field_at hw hp 6 rfl, show field w 17 4 = ns from field_at hw hp 5 rfl, show field w 13 4 = nc from field_at hw hp 4 rfl, show field w 9 4 = nt from field_at hw hp 3 rfl, show field w 5 4 = nm from field_at hw hp 2 rfl, show field w 0 3 = g from field_at hw hp 0 rfl]

theorem fence (a g : Nat) : Statement (.fence a g) := by
  intro w hwf he
  have hr : ([.source a, .field g 3] : List Operand).all Operand.fits = true := fits_of_wellFormed hwf
  simp only [List.all_cons, List.all_nil, Operand.fits, Bool.and_eq_true, decide_eq_true_eq, and_true] at hr
  have hp : ∀ seg ∈ ([(g, 3), (0, 7), (0, 5), (a, 5), (0, 5), (84, 7)] : List (Nat × Nat)), seg.1 < 2 ^ seg.2 := by simp; omega
  have hw : w = packed [(g, 3), (0, 7), (0, 5), (a, 5), (0, 5), (84, 7)] := by
    have e : place 0xa8000000 [(a, 15), (g, 0)] = w := Option.some.inj he
    simp only [place, packed] at e ⊢; omega
  refine ⟨lt_of hw hp rfl, ?_⟩
  show byOpcode (field w 25 7) w = _
  rw [show field w 25 7 = 84 from field_at hw hp 5 rfl]
  show opcode54 (field w 3 7) w = _
  rw [show field w 3 7 = 0 from field_at hw hp 1 rfl]
  show Except.ok (Instr.fence (field w 15 5) (field w 0 3)) = _
  rw [show field w 15 5 = a from field_at hw hp 3 rfl, show field w 0 3 = g from field_at hw hp 0 rfl]

theorem owner (d a b g : Nat) : Statement (.owner d a b g) := by
  intro w hwf he
  have hr : ([.dest d, .source a, .source b, .field g 3] : List Operand).all Operand.fits = true := fits_of_wellFormed hwf
  simp only [List.all_cons, List.all_nil, Operand.fits, Bool.and_eq_true, decide_eq_true_eq, and_true] at hr
  have hp : ∀ seg ∈ ([(g, 3), (0, 7), (b, 5), (a, 5), (d, 5), (85, 7)] : List (Nat × Nat)), seg.1 < 2 ^ seg.2 := by simp; omega
  have hw : w = packed [(g, 3), (0, 7), (b, 5), (a, 5), (d, 5), (85, 7)] := by
    have e : place 0xaa000000 [(d, 20), (a, 15), (b, 10), (g, 0)] = w := Option.some.inj he
    simp only [place, packed] at e ⊢; omega
  refine ⟨lt_of hw hp rfl, ?_⟩
  show byOpcode (field w 25 7) w = _
  rw [show field w 25 7 = 85 from field_at hw hp 5 rfl]
  show opcode55 (field w 3 7) w = _
  rw [show field w 3 7 = 0 from field_at hw hp 1 rfl]
  show Except.ok (Instr.owner (field w 20 5) (field w 15 5) (field w 10 5) (field w 0 3)) = _
  rw [show field w 20 5 = d from field_at hw hp 4 rfl, show field w 15 5 = a from field_at hw hp 3 rfl, show field w 10 5 = b from field_at hw hp 2 rfl, show field w 0 3 = g from field_at hw hp 0 rfl]

theorem send (pri ch fl h d kind g : Nat) : Statement (.send pri ch fl h d kind g) := by
  intro w hwf he
  have hr : ([.field pri 1, .field ch 2, .field fl 3, .counter h, .counter d, .field kind 3, .field g 3] : List Operand).all Operand.fits = true := fits_of_wellFormed hwf
  simp only [List.all_cons, List.all_nil, Operand.fits, Bool.and_eq_true, decide_eq_true_eq, and_true] at hr
  have hp : ∀ seg ∈ ([(g, 3), (0, 3), (kind, 3), (d, 5), (h, 5), (fl, 3), (ch, 2), (pri, 1), (88, 7)] : List (Nat × Nat)), seg.1 < 2 ^ seg.2 := by simp; omega
  have hw : w = packed [(g, 3), (0, 3), (kind, 3), (d, 5), (h, 5), (fl, 3), (ch, 2), (pri, 1), (88, 7)] := by
    have e : place 0xb0000000 [(pri, 24), (ch, 22), (fl, 19), (h, 14), (d, 9), (kind, 6), (g, 0)] = w := Option.some.inj he
    simp only [place, packed] at e ⊢; omega
  refine ⟨lt_of hw hp rfl, ?_⟩
  show byOpcode (field w 25 7) w = _
  rw [show field w 25 7 = 88 from field_at hw hp 8 rfl]
  show Except.ok (Instr.send (field w 24 1) (field w 22 2) (field w 19 3) (field w 14 5) (field w 9 5) (field w 6 3) (field w 0 3)) = _
  rw [show field w 24 1 = pri from field_at hw hp 7 rfl, show field w 22 2 = ch from field_at hw hp 6 rfl, show field w 19 3 = fl from field_at hw hp 5 rfl, show field w 14 5 = h from field_at hw hp 4 rfl, show field w 9 5 = d from field_at hw hp 3 rfl, show field w 6 3 = kind from field_at hw hp 2 rfl, show field w 0 3 = g from field_at hw hp 0 rfl]

theorem sendm (pri ch fl h d kind g : Nat) : Statement (.sendm pri ch fl h d kind g) := by
  intro w hwf he
  have hr : ([.field pri 1, .field ch 2, .field fl 3, .counter h, .counter d, .field kind 3, .field g 3] : List Operand).all Operand.fits = true := fits_of_wellFormed hwf
  simp only [List.all_cons, List.all_nil, Operand.fits, Bool.and_eq_true, decide_eq_true_eq, and_true] at hr
  have hp : ∀ seg ∈ ([(g, 3), (0, 3), (kind, 3), (d, 5), (h, 5), (fl, 3), (ch, 2), (pri, 1), (89, 7)] : List (Nat × Nat)), seg.1 < 2 ^ seg.2 := by simp; omega
  have hw : w = packed [(g, 3), (0, 3), (kind, 3), (d, 5), (h, 5), (fl, 3), (ch, 2), (pri, 1), (89, 7)] := by
    have e : place 0xb2000000 [(pri, 24), (ch, 22), (fl, 19), (h, 14), (d, 9), (kind, 6), (g, 0)] = w := Option.some.inj he
    simp only [place, packed] at e ⊢; omega
  refine ⟨lt_of hw hp rfl, ?_⟩
  show byOpcode (field w 25 7) w = _
  rw [show field w 25 7 = 89 from field_at hw hp 8 rfl]
  show Except.ok (Instr.sendm (field w 24 1) (field w 22 2) (field w 19 3) (field w 14 5) (field w 9 5) (field w 6 3) (field w 0 3)) = _
  rw [show field w 24 1 = pri from field_at hw hp 7 rfl, show field w 22 2 = ch from field_at hw hp 6 rfl, show field w 19 3 = fl from field_at hw hp 5 rfl, show field w 14 5 = h from field_at hw hp 4 rfl, show field w 9 5 = d from field_at hw hp 3 rfl, show field w 6 3 = kind from field_at hw hp 2 rfl, show field w 0 3 = g from field_at hw hp 0 rfl]

theorem reply (fl h g : Nat) : Statement (.reply fl h g) := by
  intro w hwf he
  have hr : ([.field fl 3, .counter h, .field g 3] : List Operand).all Operand.fits = true := fits_of_wellFormed hwf
  simp only [List.all_cons, List.all_nil, Operand.fits, Bool.and_eq_true, decide_eq_true_eq, and_true] at hr
  have hp : ∀ seg ∈ ([(g, 3), (24, 11), (h, 5), (fl, 3), (4, 3), (95, 7)] : List (Nat × Nat)), seg.1 < 2 ^ seg.2 := by simp; omega
  have hw : w = packed [(g, 3), (24, 11), (h, 5), (fl, 3), (4, 3), (95, 7)] := by
    have e : place 0xbf0000c0 [(fl, 19), (h, 14), (g, 0)] = w := Option.some.inj he
    simp only [place, packed] at e ⊢; omega
  refine ⟨lt_of hw hp rfl, ?_⟩
  show byOpcode (field w 25 7) w = _
  rw [show field w 25 7 = 95 from field_at hw hp 5 rfl]
  show Except.ok (Instr.reply (field w 19 3) (field w 14 5) (field w 0 3)) = _
  rw [show field w 19 3 = fl from field_at hw hp 3 rfl, show field w 14 5 = h from field_at hw hp 2 rfl, show field w 0 3 = g from field_at hw hp 0 rfl]

theorem rst (d a b sz g : Nat) : Statement (.rst d a b sz g) := by
  intro w hwf he
  have hr : ([.source d, .source a, .source b, .field sz 2, .field g 3] : List Operand).all Operand.fits = true := fits_of_wellFormed hwf
  simp only [List.all_cons, List.all_nil, Operand.fits, Bool.and_eq_true, decide_eq_true_eq, and_true] at hr
  have hp : ∀ seg ∈ ([(g, 3), (0, 4), (0, 1), (sz, 2), (b, 5), (a, 5), (d, 5), (90, 7)] : List (Nat × Nat)), seg.1 < 2 ^ seg.2 := by simp; omega
  have hw : w = packed [(g, 3), (0, 4), (0, 1), (sz, 2), (b, 5), (a, 5), (d, 5), (90, 7)] := by
    have e : place 0xb4000000 [(d, 20), (a, 15), (b, 10), (sz, 8), (g, 0)] = w := Option.some.inj he
    simp only [place, packed] at e ⊢; omega
  refine ⟨lt_of hw hp rfl, ?_⟩
  show byOpcode (field w 25 7) w = _
  rw [show field w 25 7 = 90 from field_at hw hp 7 rfl]
  show opcode5a (field w 3 4) w = _
  rw [show field w 3 4 = 0 from field_at hw hp 1 rfl]
  show (if field w 7 1 = 0 then Except.ok (Instr.rst (field w 20 5) (field w 15 5) (field w 10 5) (field w 8 2) (field w 0 3)) else Except.error 1) = _
  rw [if_pos (show field w 7 1 = 0 from field_at hw hp 2 rfl)]
  show Except.ok (Instr.rst (field w 20 5) (field w 15 5) (field w 10 5) (field w 8 2) (field w 0 3)) = _
  rw [show field w 20 5 = d from field_at hw hp 6 rfl, show field w 15 5 = a from field_at hw hp 5 rfl, show field w 10 5 = b from field_at hw hp 4 rfl, show field w 8 2 = sz from field_at hw hp 3 rfl, show field w 0 3 = g from field_at hw hp 0 rfl]

theorem rld (d a b sz sgn g : Nat) : Statement (.rld d a b sz sgn g) := by
  intro w hwf he
  have hr : ([.noPort d, .source a, .source b, .field sz 2, .field sgn 1, .field g 3] : List Operand).all Operand.fits = true := fits_of_wellFormed hwf
  simp only [List.all_cons, List.all_nil, Operand.fits, Bool.and_eq_true, decide_eq_true_eq, and_true] at hr
  have hp : ∀ seg ∈ ([(g, 3), (0, 4), (sgn, 1), (sz, 2), (b, 5), (a, 5), (d, 5), (91, 7)] : List (Nat × Nat)), seg.1 < 2 ^ seg.2 := by simp; omega
  have hw : w = packed [(g, 3), (0, 4), (sgn, 1), (sz, 2), (b, 5), (a, 5), (d, 5), (91, 7)] := by
    have e : place 0xb6000000 [(d, 20), (a, 15), (b, 10), (sz, 8), (sgn, 7), (g, 0)] = w := Option.some.inj he
    simp only [place, packed] at e ⊢; omega
  refine ⟨lt_of hw hp rfl, ?_⟩
  show byOpcode (field w 25 7) w = _
  rw [show field w 25 7 = 91 from field_at hw hp 7 rfl]
  show opcode5b (field w 3 4) w = _
  rw [show field w 3 4 = 0 from field_at hw hp 1 rfl]
  show Except.ok (Instr.rld (field w 20 5) (field w 15 5) (field w 10 5) (field w 8 2) (field w 7 1) (field w 0 3)) = _
  rw [show field w 20 5 = d from field_at hw hp 6 rfl, show field w 15 5 = a from field_at hw hp 5 rfl, show field w 10 5 = b from field_at hw hp 4 rfl, show field w 8 2 = sz from field_at hw hp 3 rfl, show field w 7 1 = sgn from field_at hw hp 2 rfl, show field w 0 3 = g from field_at hw hp 0 rfl]

theorem ramoAdd (d a b sz sgn g : Nat) : Statement (.ramoAdd d a b sz sgn g) := by
  intro w hwf he
  have hr : ([.noPort d, .source a, .source b, .field sz 2, .field sgn 1, .field g 3] : List Operand).all Operand.fits = true := fits_of_wellFormed hwf
  simp only [List.all_cons, List.all_nil, Operand.fits, Bool.and_eq_true, decide_eq_true_eq, and_true] at hr
  have hp : ∀ seg ∈ ([(g, 3), (0, 4), (sgn, 1), (sz, 2), (b, 5), (a, 5), (d, 5), (92, 7)] : List (Nat × Nat)), seg.1 < 2 ^ seg.2 := by simp; omega
  have hw : w = packed [(g, 3), (0, 4), (sgn, 1), (sz, 2), (b, 5), (a, 5), (d, 5), (92, 7)] := by
    have e : place 0xb8000000 [(d, 20), (a, 15), (b, 10), (sz, 8), (sgn, 7), (g, 0)] = w := Option.some.inj he
    simp only [place, packed] at e ⊢; omega
  refine ⟨lt_of hw hp rfl, ?_⟩
  show byOpcode (field w 25 7) w = _
  rw [show field w 25 7 = 92 from field_at hw hp 7 rfl]
  show opcode5c (field w 3 4) w = _
  rw [show field w 3 4 = 0 from field_at hw hp 1 rfl]
  show Except.ok (Instr.ramoAdd (field w 20 5) (field w 15 5) (field w 10 5) (field w 8 2) (field w 7 1) (field w 0 3)) = _
  rw [show field w 20 5 = d from field_at hw hp 6 rfl, show field w 15 5 = a from field_at hw hp 5 rfl, show field w 10 5 = b from field_at hw hp 4 rfl, show field w 8 2 = sz from field_at hw hp 3 rfl, show field w 7 1 = sgn from field_at hw hp 2 rfl, show field w 0 3 = g from field_at hw hp 0 rfl]

theorem ramoMin (d a b sz sgn g : Nat) : Statement (.ramoMin d a b sz sgn g) := by
  intro w hwf he
  have hr : ([.noPort d, .source a, .source b, .field sz 2, .field sgn 1, .field g 3] : List Operand).all Operand.fits = true := fits_of_wellFormed hwf
  simp only [List.all_cons, List.all_nil, Operand.fits, Bool.and_eq_true, decide_eq_true_eq, and_true] at hr
  have hp : ∀ seg ∈ ([(g, 3), (1, 4), (sgn, 1), (sz, 2), (b, 5), (a, 5), (d, 5), (92, 7)] : List (Nat × Nat)), seg.1 < 2 ^ seg.2 := by simp; omega
  have hw : w = packed [(g, 3), (1, 4), (sgn, 1), (sz, 2), (b, 5), (a, 5), (d, 5), (92, 7)] := by
    have e : place 0xb8000008 [(d, 20), (a, 15), (b, 10), (sz, 8), (sgn, 7), (g, 0)] = w := Option.some.inj he
    simp only [place, packed] at e ⊢; omega
  refine ⟨lt_of hw hp rfl, ?_⟩
  show byOpcode (field w 25 7) w = _
  rw [show field w 25 7 = 92 from field_at hw hp 7 rfl]
  show opcode5c (field w 3 4) w = _
  rw [show field w 3 4 = 1 from field_at hw hp 1 rfl]
  show Except.ok (Instr.ramoMin (field w 20 5) (field w 15 5) (field w 10 5) (field w 8 2) (field w 7 1) (field w 0 3)) = _
  rw [show field w 20 5 = d from field_at hw hp 6 rfl, show field w 15 5 = a from field_at hw hp 5 rfl, show field w 10 5 = b from field_at hw hp 4 rfl, show field w 8 2 = sz from field_at hw hp 3 rfl, show field w 7 1 = sgn from field_at hw hp 2 rfl, show field w 0 3 = g from field_at hw hp 0 rfl]

theorem ramoMax (d a b sz sgn g : Nat) : Statement (.ramoMax d a b sz sgn g) := by
  intro w hwf he
  have hr : ([.noPort d, .source a, .source b, .field sz 2, .field sgn 1, .field g 3] : List Operand).all Operand.fits = true := fits_of_wellFormed hwf
  simp only [List.all_cons, List.all_nil, Operand.fits, Bool.and_eq_true, decide_eq_true_eq, and_true] at hr
  have hp : ∀ seg ∈ ([(g, 3), (2, 4), (sgn, 1), (sz, 2), (b, 5), (a, 5), (d, 5), (92, 7)] : List (Nat × Nat)), seg.1 < 2 ^ seg.2 := by simp; omega
  have hw : w = packed [(g, 3), (2, 4), (sgn, 1), (sz, 2), (b, 5), (a, 5), (d, 5), (92, 7)] := by
    have e : place 0xb8000010 [(d, 20), (a, 15), (b, 10), (sz, 8), (sgn, 7), (g, 0)] = w := Option.some.inj he
    simp only [place, packed] at e ⊢; omega
  refine ⟨lt_of hw hp rfl, ?_⟩
  show byOpcode (field w 25 7) w = _
  rw [show field w 25 7 = 92 from field_at hw hp 7 rfl]
  show opcode5c (field w 3 4) w = _
  rw [show field w 3 4 = 2 from field_at hw hp 1 rfl]
  show Except.ok (Instr.ramoMax (field w 20 5) (field w 15 5) (field w 10 5) (field w 8 2) (field w 7 1) (field w 0 3)) = _
  rw [show field w 20 5 = d from field_at hw hp 6 rfl, show field w 15 5 = a from field_at hw hp 5 rfl, show field w 10 5 = b from field_at hw hp 4 rfl, show field w 8 2 = sz from field_at hw hp 3 rfl, show field w 7 1 = sgn from field_at hw hp 2 rfl, show field w 0 3 = g from field_at hw hp 0 rfl]

theorem ramoAnd (d a b sz sgn g : Nat) : Statement (.ramoAnd d a b sz sgn g) := by
  intro w hwf he
  have hr : ([.noPort d, .source a, .source b, .field sz 2, .field sgn 1, .field g 3] : List Operand).all Operand.fits = true := fits_of_wellFormed hwf
  simp only [List.all_cons, List.all_nil, Operand.fits, Bool.and_eq_true, decide_eq_true_eq, and_true] at hr
  have hp : ∀ seg ∈ ([(g, 3), (3, 4), (sgn, 1), (sz, 2), (b, 5), (a, 5), (d, 5), (92, 7)] : List (Nat × Nat)), seg.1 < 2 ^ seg.2 := by simp; omega
  have hw : w = packed [(g, 3), (3, 4), (sgn, 1), (sz, 2), (b, 5), (a, 5), (d, 5), (92, 7)] := by
    have e : place 0xb8000018 [(d, 20), (a, 15), (b, 10), (sz, 8), (sgn, 7), (g, 0)] = w := Option.some.inj he
    simp only [place, packed] at e ⊢; omega
  refine ⟨lt_of hw hp rfl, ?_⟩
  show byOpcode (field w 25 7) w = _
  rw [show field w 25 7 = 92 from field_at hw hp 7 rfl]
  show opcode5c (field w 3 4) w = _
  rw [show field w 3 4 = 3 from field_at hw hp 1 rfl]
  show Except.ok (Instr.ramoAnd (field w 20 5) (field w 15 5) (field w 10 5) (field w 8 2) (field w 7 1) (field w 0 3)) = _
  rw [show field w 20 5 = d from field_at hw hp 6 rfl, show field w 15 5 = a from field_at hw hp 5 rfl, show field w 10 5 = b from field_at hw hp 4 rfl, show field w 8 2 = sz from field_at hw hp 3 rfl, show field w 7 1 = sgn from field_at hw hp 2 rfl, show field w 0 3 = g from field_at hw hp 0 rfl]

theorem ramoOr (d a b sz sgn g : Nat) : Statement (.ramoOr d a b sz sgn g) := by
  intro w hwf he
  have hr : ([.noPort d, .source a, .source b, .field sz 2, .field sgn 1, .field g 3] : List Operand).all Operand.fits = true := fits_of_wellFormed hwf
  simp only [List.all_cons, List.all_nil, Operand.fits, Bool.and_eq_true, decide_eq_true_eq, and_true] at hr
  have hp : ∀ seg ∈ ([(g, 3), (4, 4), (sgn, 1), (sz, 2), (b, 5), (a, 5), (d, 5), (92, 7)] : List (Nat × Nat)), seg.1 < 2 ^ seg.2 := by simp; omega
  have hw : w = packed [(g, 3), (4, 4), (sgn, 1), (sz, 2), (b, 5), (a, 5), (d, 5), (92, 7)] := by
    have e : place 0xb8000020 [(d, 20), (a, 15), (b, 10), (sz, 8), (sgn, 7), (g, 0)] = w := Option.some.inj he
    simp only [place, packed] at e ⊢; omega
  refine ⟨lt_of hw hp rfl, ?_⟩
  show byOpcode (field w 25 7) w = _
  rw [show field w 25 7 = 92 from field_at hw hp 7 rfl]
  show opcode5c (field w 3 4) w = _
  rw [show field w 3 4 = 4 from field_at hw hp 1 rfl]
  show Except.ok (Instr.ramoOr (field w 20 5) (field w 15 5) (field w 10 5) (field w 8 2) (field w 7 1) (field w 0 3)) = _
  rw [show field w 20 5 = d from field_at hw hp 6 rfl, show field w 15 5 = a from field_at hw hp 5 rfl, show field w 10 5 = b from field_at hw hp 4 rfl, show field w 8 2 = sz from field_at hw hp 3 rfl, show field w 7 1 = sgn from field_at hw hp 2 rfl, show field w 0 3 = g from field_at hw hp 0 rfl]

theorem ramoXor (d a b sz sgn g : Nat) : Statement (.ramoXor d a b sz sgn g) := by
  intro w hwf he
  have hr : ([.noPort d, .source a, .source b, .field sz 2, .field sgn 1, .field g 3] : List Operand).all Operand.fits = true := fits_of_wellFormed hwf
  simp only [List.all_cons, List.all_nil, Operand.fits, Bool.and_eq_true, decide_eq_true_eq, and_true] at hr
  have hp : ∀ seg ∈ ([(g, 3), (5, 4), (sgn, 1), (sz, 2), (b, 5), (a, 5), (d, 5), (92, 7)] : List (Nat × Nat)), seg.1 < 2 ^ seg.2 := by simp; omega
  have hw : w = packed [(g, 3), (5, 4), (sgn, 1), (sz, 2), (b, 5), (a, 5), (d, 5), (92, 7)] := by
    have e : place 0xb8000028 [(d, 20), (a, 15), (b, 10), (sz, 8), (sgn, 7), (g, 0)] = w := Option.some.inj he
    simp only [place, packed] at e ⊢; omega
  refine ⟨lt_of hw hp rfl, ?_⟩
  show byOpcode (field w 25 7) w = _
  rw [show field w 25 7 = 92 from field_at hw hp 7 rfl]
  show opcode5c (field w 3 4) w = _
  rw [show field w 3 4 = 5 from field_at hw hp 1 rfl]
  show Except.ok (Instr.ramoXor (field w 20 5) (field w 15 5) (field w 10 5) (field w 8 2) (field w 7 1) (field w 0 3)) = _
  rw [show field w 20 5 = d from field_at hw hp 6 rfl, show field w 15 5 = a from field_at hw hp 5 rfl, show field w 10 5 = b from field_at hw hp 4 rfl, show field w 8 2 = sz from field_at hw hp 3 rfl, show field w 7 1 = sgn from field_at hw hp 2 rfl, show field w 0 3 = g from field_at hw hp 0 rfl]

theorem ramoSwap (d a b sz sgn g : Nat) : Statement (.ramoSwap d a b sz sgn g) := by
  intro w hwf he
  have hr : ([.noPort d, .source a, .source b, .field sz 2, .field sgn 1, .field g 3] : List Operand).all Operand.fits = true := fits_of_wellFormed hwf
  simp only [List.all_cons, List.all_nil, Operand.fits, Bool.and_eq_true, decide_eq_true_eq, and_true] at hr
  have hp : ∀ seg ∈ ([(g, 3), (6, 4), (sgn, 1), (sz, 2), (b, 5), (a, 5), (d, 5), (92, 7)] : List (Nat × Nat)), seg.1 < 2 ^ seg.2 := by simp; omega
  have hw : w = packed [(g, 3), (6, 4), (sgn, 1), (sz, 2), (b, 5), (a, 5), (d, 5), (92, 7)] := by
    have e : place 0xb8000030 [(d, 20), (a, 15), (b, 10), (sz, 8), (sgn, 7), (g, 0)] = w := Option.some.inj he
    simp only [place, packed] at e ⊢; omega
  refine ⟨lt_of hw hp rfl, ?_⟩
  show byOpcode (field w 25 7) w = _
  rw [show field w 25 7 = 92 from field_at hw hp 7 rfl]
  show opcode5c (field w 3 4) w = _
  rw [show field w 3 4 = 6 from field_at hw hp 1 rfl]
  show Except.ok (Instr.ramoSwap (field w 20 5) (field w 15 5) (field w 10 5) (field w 8 2) (field w 7 1) (field w 0 3)) = _
  rw [show field w 20 5 = d from field_at hw hp 6 rfl, show field w 15 5 = a from field_at hw hp 5 rfl, show field w 10 5 = b from field_at hw hp 4 rfl, show field w 8 2 = sz from field_at hw hp 3 rfl, show field w 7 1 = sgn from field_at hw hp 2 rfl, show field w 0 3 = g from field_at hw hp 0 rfl]

theorem ramoFadd (d a b g : Nat) : Statement (.ramoFadd d a b g) := by
  intro w hwf he
  have hr : ([.noPort d, .source a, .source b, .field g 3] : List Operand).all Operand.fits = true := fits_of_wellFormed hwf
  simp only [List.all_cons, List.all_nil, Operand.fits, Bool.and_eq_true, decide_eq_true_eq, and_true] at hr
  have hp : ∀ seg ∈ ([(g, 3), (7, 4), (2, 3), (b, 5), (a, 5), (d, 5), (92, 7)] : List (Nat × Nat)), seg.1 < 2 ^ seg.2 := by simp; omega
  have hw : w = packed [(g, 3), (7, 4), (2, 3), (b, 5), (a, 5), (d, 5), (92, 7)] := by
    have e : place 0xb8000138 [(d, 20), (a, 15), (b, 10), (g, 0)] = w := Option.some.inj he
    simp only [place, packed] at e ⊢; omega
  refine ⟨lt_of hw hp rfl, ?_⟩
  show byOpcode (field w 25 7) w = _
  rw [show field w 25 7 = 92 from field_at hw hp 6 rfl]
  show opcode5c (field w 3 4) w = _
  rw [show field w 3 4 = 7 from field_at hw hp 1 rfl]
  have c0 : field w 20 5 = d := field_at hw hp 5 rfl
  have c1 : field w 15 5 = a := field_at hw hp 4 rfl
  have c2 : field w 10 5 = b := field_at hw hp 3 rfl
  have c3 : field w 0 3 = g := field_at hw hp 0 rfl
  have c4 : field w 7 3 = 2 := field_at hw hp 2 rfl
  simp [opcode5c, c0, c1, c2, c3, c4]

theorem msgPorch (d g : Nat) : Statement (.msgPorch d g) := by
  intro w hwf he
  have hr : ([.noPort d, .field g 3] : List Operand).all Operand.fits = true := fits_of_wellFormed hwf
  simp only [List.all_cons, List.all_nil, Operand.fits, Bool.and_eq_true, decide_eq_true_eq, and_true] at hr
  have hp : ∀ seg ∈ ([(g, 3), (0, 7), (0, 10), (d, 5), (93, 7)] : List (Nat × Nat)), seg.1 < 2 ^ seg.2 := by simp; omega
  have hw : w = packed [(g, 3), (0, 7), (0, 10), (d, 5), (93, 7)] := by
    have e : place 0xba000000 [(d, 20), (g, 0)] = w := Option.some.inj he
    simp only [place, packed] at e ⊢; omega
  refine ⟨lt_of hw hp rfl, ?_⟩
  show byOpcode (field w 25 7) w = _
  rw [show field w 25 7 = 93 from field_at hw hp 4 rfl]
  show opcode5d (field w 3 7) w = _
  rw [show field w 3 7 = 0 from field_at hw hp 1 rfl]
  show Except.ok (Instr.msgPorch (field w 20 5) (field w 0 3)) = _
  rw [show field w 20 5 = d from field_at hw hp 3 rfl, show field w 0 3 = g from field_at hw hp 0 rfl]

theorem msgLen (d g : Nat) : Statement (.msgLen d g) := by
  intro w hwf he
  have hr : ([.noPort d, .field g 3] : List Operand).all Operand.fits = true := fits_of_wellFormed hwf
  simp only [List.all_cons, List.all_nil, Operand.fits, Bool.and_eq_true, decide_eq_true_eq, and_true] at hr
  have hp : ∀ seg ∈ ([(g, 3), (1, 7), (0, 10), (d, 5), (93, 7)] : List (Nat × Nat)), seg.1 < 2 ^ seg.2 := by simp; omega
  have hw : w = packed [(g, 3), (1, 7), (0, 10), (d, 5), (93, 7)] := by
    have e : place 0xba000008 [(d, 20), (g, 0)] = w := Option.some.inj he
    simp only [place, packed] at e ⊢; omega
  refine ⟨lt_of hw hp rfl, ?_⟩
  show byOpcode (field w 25 7) w = _
  rw [show field w 25 7 = 93 from field_at hw hp 4 rfl]
  show opcode5d (field w 3 7) w = _
  rw [show field w 3 7 = 1 from field_at hw hp 1 rfl]
  show Except.ok (Instr.msgLen (field w 20 5) (field w 0 3)) = _
  rw [show field w 20 5 = d from field_at hw hp 3 rfl, show field w 0 3 = g from field_at hw hp 0 rfl]

theorem msgSkip (g : Nat) : Statement (.msgSkip g) := by
  intro w hwf he
  have hr : ([.field g 3] : List Operand).all Operand.fits = true := fits_of_wellFormed hwf
  simp only [List.all_cons, List.all_nil, Operand.fits, Bool.and_eq_true, decide_eq_true_eq, and_true] at hr
  have hp : ∀ seg ∈ ([(g, 3), (2, 7), (0, 15), (93, 7)] : List (Nat × Nat)), seg.1 < 2 ^ seg.2 := by simp; omega
  have hw : w = packed [(g, 3), (2, 7), (0, 15), (93, 7)] := by
    have e : place 0xba000010 [(g, 0)] = w := Option.some.inj he
    simp only [place, packed] at e ⊢; omega
  refine ⟨lt_of hw hp rfl, ?_⟩
  show byOpcode (field w 25 7) w = _
  rw [show field w 25 7 = 93 from field_at hw hp 3 rfl]
  show opcode5d (field w 3 7) w = _
  rw [show field w 3 7 = 2 from field_at hw hp 1 rfl]
  show Except.ok (Instr.msgSkip (field w 0 3)) = _
  rw [show field w 0 3 = g from field_at hw hp 0 rfl]

theorem qenq (a b g : Nat) : Statement (.qenq a b g) := by
  intro w hwf he
  have hr : ([.source a, .wide b, .field g 3] : List Operand).all Operand.fits = true := fits_of_wellFormed hwf
  simp only [List.all_cons, List.all_nil, Operand.fits, Bool.and_eq_true, decide_eq_true_eq, and_true] at hr
  have hp : ∀ seg ∈ ([(g, 3), (0, 7), (b, 5), (a, 5), (0, 5), (94, 7)] : List (Nat × Nat)), seg.1 < 2 ^ seg.2 := by simp; omega
  have hw : w = packed [(g, 3), (0, 7), (b, 5), (a, 5), (0, 5), (94, 7)] := by
    have e : place 0xbc000000 [(a, 15), (b, 10), (g, 0)] = w := Option.some.inj he
    simp only [place, packed] at e ⊢; omega
  refine ⟨lt_of hw hp rfl, ?_⟩
  show byOpcode (field w 25 7) w = _
  rw [show field w 25 7 = 94 from field_at hw hp 5 rfl]
  show opcode5e (field w 3 7) w = _
  rw [show field w 3 7 = 0 from field_at hw hp 1 rfl]
  have c0 : field w 15 5 = a := field_at hw hp 3 rfl
  have c1 : field w 10 5 = b := field_at hw hp 2 rfl
  have c2 : field w 0 3 = g := field_at hw hp 0 rfl
  have c3 : field w 20 5 = 0 := field_at hw hp 4 rfl
  simp [opcode5e, c0, c1, c2, c3]

theorem qenqR (d a b g : Nat) : Statement (.qenqR d a b g) := by
  intro w hwf he
  have hr : ([.oneUp d, .source a, .wide b, .field g 3] : List Operand).all Operand.fits = true := fits_of_wellFormed hwf
  simp only [List.all_cons, List.all_nil, Operand.fits, Bool.and_eq_true, decide_eq_true_eq, and_true] at hr
  have hp : ∀ seg ∈ ([(g, 3), (0, 7), (b, 5), (a, 5), (d, 5), (94, 7)] : List (Nat × Nat)), seg.1 < 2 ^ seg.2 := by simp; omega
  have hw : w = packed [(g, 3), (0, 7), (b, 5), (a, 5), (d, 5), (94, 7)] := by
    have e : place 0xbc000000 [(d, 20), (a, 15), (b, 10), (g, 0)] = w := Option.some.inj he
    simp only [place, packed] at e ⊢; omega
  refine ⟨lt_of hw hp rfl, ?_⟩
  show byOpcode (field w 25 7) w = _
  rw [show field w 25 7 = 94 from field_at hw hp 5 rfl]
  show opcode5e (field w 3 7) w = _
  rw [show field w 3 7 = 0 from field_at hw hp 1 rfl]
  have hm : ([.oneUp d, .source a, .wide b, .field g 3] : List Operand).any Operand.portMisuse = false := no_misuse_of_wellFormed hwf
  have hd : d ≠ 0 := by rintro rfl; simp [Operand.portMisuse] at hm
  have c0 : field w 20 5 = d := field_at hw hp 4 rfl
  have c1 : field w 15 5 = a := field_at hw hp 3 rfl
  have c2 : field w 10 5 = b := field_at hw hp 2 rfl
  have c3 : field w 0 3 = g := field_at hw hp 0 rfl
  simp [opcode5e, c0, c1, c2, c3, hd]

theorem qclaim (d a p g : Nat) : Statement (.qclaim d a p g) := by
  intro w hwf he
  have hr : ([.wide d, .source a, .pred p, .field g 3] : List Operand).all Operand.fits = true := fits_of_wellFormed hwf
  simp only [List.all_cons, List.all_nil, Operand.fits, Bool.and_eq_true, decide_eq_true_eq, and_true] at hr
  have hp : ∀ seg ∈ ([(g, 3), (1, 7), (p, 5), (a, 5), (d, 5), (94, 7)] : List (Nat × Nat)), seg.1 < 2 ^ seg.2 := by simp; omega
  have hw : w = packed [(g, 3), (1, 7), (p, 5), (a, 5), (d, 5), (94, 7)] := by
    have e : place 0xbc000008 [(d, 20), (a, 15), (p, 10), (g, 0)] = w := Option.some.inj he
    simp only [place, packed] at e ⊢; omega
  refine ⟨lt_of hw hp rfl, ?_⟩
  show byOpcode (field w 25 7) w = _
  rw [show field w 25 7 = 94 from field_at hw hp 5 rfl]
  show opcode5e (field w 3 7) w = _
  rw [show field w 3 7 = 1 from field_at hw hp 1 rfl]
  show Except.ok (Instr.qclaim (field w 20 5) (field w 15 5) (field w 10 5) (field w 0 3)) = _
  rw [show field w 20 5 = d from field_at hw hp 4 rfl, show field w 15 5 = a from field_at hw hp 3 rfl, show field w 10 5 = p from field_at hw hp 2 rfl, show field w 0 3 = g from field_at hw hp 0 rfl]

theorem qpub (a b g : Nat) : Statement (.qpub a b g) := by
  intro w hwf he
  have hr : ([.source a, .source b, .field g 3] : List Operand).all Operand.fits = true := fits_of_wellFormed hwf
  simp only [List.all_cons, List.all_nil, Operand.fits, Bool.and_eq_true, decide_eq_true_eq, and_true] at hr
  have hp : ∀ seg ∈ ([(g, 3), (2, 7), (b, 5), (a, 5), (0, 5), (94, 7)] : List (Nat × Nat)), seg.1 < 2 ^ seg.2 := by simp; omega
  have hw : w = packed [(g, 3), (2, 7), (b, 5), (a, 5), (0, 5), (94, 7)] := by
    have e : place 0xbc000010 [(a, 15), (b, 10), (g, 0)] = w := Option.some.inj he
    simp only [place, packed] at e ⊢; omega
  refine ⟨lt_of hw hp rfl, ?_⟩
  show byOpcode (field w 25 7) w = _
  rw [show field w 25 7 = 94 from field_at hw hp 5 rfl]
  show opcode5e (field w 3 7) w = _
  rw [show field w 3 7 = 2 from field_at hw hp 1 rfl]
  show Except.ok (Instr.qpub (field w 15 5) (field w 10 5) (field w 0 3)) = _
  rw [show field w 15 5 = a from field_at hw hp 3 rfl, show field w 10 5 = b from field_at hw hp 2 rfl, show field w 0 3 = g from field_at hw hp 0 rfl]

theorem qstat (d a g : Nat) : Statement (.qstat d a g) := by
  intro w hwf he
  have hr : ([.noPort d, .source a, .field g 3] : List Operand).all Operand.fits = true := fits_of_wellFormed hwf
  simp only [List.all_cons, List.all_nil, Operand.fits, Bool.and_eq_true, decide_eq_true_eq, and_true] at hr
  have hp : ∀ seg ∈ ([(g, 3), (3, 7), (0, 5), (a, 5), (d, 5), (94, 7)] : List (Nat × Nat)), seg.1 < 2 ^ seg.2 := by simp; omega
  have hw : w = packed [(g, 3), (3, 7), (0, 5), (a, 5), (d, 5), (94, 7)] := by
    have e : place 0xbc000018 [(d, 20), (a, 15), (g, 0)] = w := Option.some.inj he
    simp only [place, packed] at e ⊢; omega
  refine ⟨lt_of hw hp rfl, ?_⟩
  show byOpcode (field w 25 7) w = _
  rw [show field w 25 7 = 94 from field_at hw hp 5 rfl]
  show opcode5e (field w 3 7) w = _
  rw [show field w 3 7 = 3 from field_at hw hp 1 rfl]
  show Except.ok (Instr.qstat (field w 20 5) (field w 15 5) (field w 0 3)) = _
  rw [show field w 20 5 = d from field_at hw hp 4 rfl, show field w 15 5 = a from field_at hw hp 3 rfl, show field w 0 3 = g from field_at hw hp 0 rfl]

theorem qfreeze (a g : Nat) : Statement (.qfreeze a g) := by
  intro w hwf he
  have hr : ([.source a, .field g 3] : List Operand).all Operand.fits = true := fits_of_wellFormed hwf
  simp only [List.all_cons, List.all_nil, Operand.fits, Bool.and_eq_true, decide_eq_true_eq, and_true] at hr
  have hp : ∀ seg ∈ ([(g, 3), (4, 7), (0, 5), (a, 5), (0, 5), (94, 7)] : List (Nat × Nat)), seg.1 < 2 ^ seg.2 := by simp; omega
  have hw : w = packed [(g, 3), (4, 7), (0, 5), (a, 5), (0, 5), (94, 7)] := by
    have e : place 0xbc000020 [(a, 15), (g, 0)] = w := Option.some.inj he
    simp only [place, packed] at e ⊢; omega
  refine ⟨lt_of hw hp rfl, ?_⟩
  show byOpcode (field w 25 7) w = _
  rw [show field w 25 7 = 94 from field_at hw hp 5 rfl]
  show opcode5e (field w 3 7) w = _
  rw [show field w 3 7 = 4 from field_at hw hp 1 rfl]
  show Except.ok (Instr.qfreeze (field w 15 5) (field w 0 3)) = _
  rw [show field w 15 5 = a from field_at hw hp 3 rfl, show field w 0 3 = g from field_at hw hp 0 rfl]

theorem qthaw (a g : Nat) : Statement (.qthaw a g) := by
  intro w hwf he
  have hr : ([.source a, .field g 3] : List Operand).all Operand.fits = true := fits_of_wellFormed hwf
  simp only [List.all_cons, List.all_nil, Operand.fits, Bool.and_eq_true, decide_eq_true_eq, and_true] at hr
  have hp : ∀ seg ∈ ([(g, 3), (5, 7), (0, 5), (a, 5), (0, 5), (94, 7)] : List (Nat × Nat)), seg.1 < 2 ^ seg.2 := by simp; omega
  have hw : w = packed [(g, 3), (5, 7), (0, 5), (a, 5), (0, 5), (94, 7)] := by
    have e : place 0xbc000028 [(a, 15), (g, 0)] = w := Option.some.inj he
    simp only [place, packed] at e ⊢; omega
  refine ⟨lt_of hw hp rfl, ?_⟩
  show byOpcode (field w 25 7) w = _
  rw [show field w 25 7 = 94 from field_at hw hp 5 rfl]
  show opcode5e (field w 3 7) w = _
  rw [show field w 3 7 = 5 from field_at hw hp 1 rfl]
  show Except.ok (Instr.qthaw (field w 15 5) (field w 0 3)) = _
  rw [show field w 15 5 = a from field_at hw hp 3 rfl, show field w 0 3 = g from field_at hw hp 0 rfl]

theorem qskip (d a g : Nat) : Statement (.qskip d a g) := by
  intro w hwf he
  have hr : ([.wide d, .source a, .field g 3] : List Operand).all Operand.fits = true := fits_of_wellFormed hwf
  simp only [List.all_cons, List.all_nil, Operand.fits, Bool.and_eq_true, decide_eq_true_eq, and_true] at hr
  have hp : ∀ seg ∈ ([(g, 3), (6, 7), (0, 5), (a, 5), (d, 5), (94, 7)] : List (Nat × Nat)), seg.1 < 2 ^ seg.2 := by simp; omega
  have hw : w = packed [(g, 3), (6, 7), (0, 5), (a, 5), (d, 5), (94, 7)] := by
    have e : place 0xbc000030 [(d, 20), (a, 15), (g, 0)] = w := Option.some.inj he
    simp only [place, packed] at e ⊢; omega
  refine ⟨lt_of hw hp rfl, ?_⟩
  show byOpcode (field w 25 7) w = _
  rw [show field w 25 7 = 94 from field_at hw hp 5 rfl]
  show opcode5e (field w 3 7) w = _
  rw [show field w 3 7 = 6 from field_at hw hp 1 rfl]
  show Except.ok (Instr.qskip (field w 20 5) (field w 15 5) (field w 0 3)) = _
  rw [show field w 20 5 = d from field_at hw hp 4 rfl, show field w 15 5 = a from field_at hw hp 3 rfl, show field w 0 3 = g from field_at hw hp 0 rfl]

theorem amoAdd (d a b sz g : Nat) : Statement (.amoAdd d a b sz g) := by
  intro w hwf he
  have hr : ([.noPort d, .source a, .source b, .field sz 2, .field g 3] : List Operand).all Operand.fits = true := fits_of_wellFormed hwf
  simp only [List.all_cons, List.all_nil, Operand.fits, Bool.and_eq_true, decide_eq_true_eq, and_true] at hr
  have hp : ∀ seg ∈ ([(g, 3), (0, 5), (sz, 2), (b, 5), (a, 5), (d, 5), (96, 7)] : List (Nat × Nat)), seg.1 < 2 ^ seg.2 := by simp; omega
  have hw : w = packed [(g, 3), (0, 5), (sz, 2), (b, 5), (a, 5), (d, 5), (96, 7)] := by
    have e : place 0xc0000000 [(d, 20), (a, 15), (b, 10), (sz, 8), (g, 0)] = w := Option.some.inj he
    simp only [place, packed] at e ⊢; omega
  refine ⟨lt_of hw hp rfl, ?_⟩
  show byOpcode (field w 25 7) w = _
  rw [show field w 25 7 = 96 from field_at hw hp 6 rfl]
  show opcode60 (field w 3 5) w = _
  rw [show field w 3 5 = 0 from field_at hw hp 1 rfl]
  show Except.ok (Instr.amoAdd (field w 20 5) (field w 15 5) (field w 10 5) (field w 8 2) (field w 0 3)) = _
  rw [show field w 20 5 = d from field_at hw hp 5 rfl, show field w 15 5 = a from field_at hw hp 4 rfl, show field w 10 5 = b from field_at hw hp 3 rfl, show field w 8 2 = sz from field_at hw hp 2 rfl, show field w 0 3 = g from field_at hw hp 0 rfl]

theorem amoMin (d a b sz g : Nat) : Statement (.amoMin d a b sz g) := by
  intro w hwf he
  have hr : ([.noPort d, .source a, .source b, .field sz 2, .field g 3] : List Operand).all Operand.fits = true := fits_of_wellFormed hwf
  simp only [List.all_cons, List.all_nil, Operand.fits, Bool.and_eq_true, decide_eq_true_eq, and_true] at hr
  have hp : ∀ seg ∈ ([(g, 3), (1, 5), (sz, 2), (b, 5), (a, 5), (d, 5), (96, 7)] : List (Nat × Nat)), seg.1 < 2 ^ seg.2 := by simp; omega
  have hw : w = packed [(g, 3), (1, 5), (sz, 2), (b, 5), (a, 5), (d, 5), (96, 7)] := by
    have e : place 0xc0000008 [(d, 20), (a, 15), (b, 10), (sz, 8), (g, 0)] = w := Option.some.inj he
    simp only [place, packed] at e ⊢; omega
  refine ⟨lt_of hw hp rfl, ?_⟩
  show byOpcode (field w 25 7) w = _
  rw [show field w 25 7 = 96 from field_at hw hp 6 rfl]
  show opcode60 (field w 3 5) w = _
  rw [show field w 3 5 = 1 from field_at hw hp 1 rfl]
  show Except.ok (Instr.amoMin (field w 20 5) (field w 15 5) (field w 10 5) (field w 8 2) (field w 0 3)) = _
  rw [show field w 20 5 = d from field_at hw hp 5 rfl, show field w 15 5 = a from field_at hw hp 4 rfl, show field w 10 5 = b from field_at hw hp 3 rfl, show field w 8 2 = sz from field_at hw hp 2 rfl, show field w 0 3 = g from field_at hw hp 0 rfl]

theorem amoMax (d a b sz g : Nat) : Statement (.amoMax d a b sz g) := by
  intro w hwf he
  have hr : ([.noPort d, .source a, .source b, .field sz 2, .field g 3] : List Operand).all Operand.fits = true := fits_of_wellFormed hwf
  simp only [List.all_cons, List.all_nil, Operand.fits, Bool.and_eq_true, decide_eq_true_eq, and_true] at hr
  have hp : ∀ seg ∈ ([(g, 3), (2, 5), (sz, 2), (b, 5), (a, 5), (d, 5), (96, 7)] : List (Nat × Nat)), seg.1 < 2 ^ seg.2 := by simp; omega
  have hw : w = packed [(g, 3), (2, 5), (sz, 2), (b, 5), (a, 5), (d, 5), (96, 7)] := by
    have e : place 0xc0000010 [(d, 20), (a, 15), (b, 10), (sz, 8), (g, 0)] = w := Option.some.inj he
    simp only [place, packed] at e ⊢; omega
  refine ⟨lt_of hw hp rfl, ?_⟩
  show byOpcode (field w 25 7) w = _
  rw [show field w 25 7 = 96 from field_at hw hp 6 rfl]
  show opcode60 (field w 3 5) w = _
  rw [show field w 3 5 = 2 from field_at hw hp 1 rfl]
  show Except.ok (Instr.amoMax (field w 20 5) (field w 15 5) (field w 10 5) (field w 8 2) (field w 0 3)) = _
  rw [show field w 20 5 = d from field_at hw hp 5 rfl, show field w 15 5 = a from field_at hw hp 4 rfl, show field w 10 5 = b from field_at hw hp 3 rfl, show field w 8 2 = sz from field_at hw hp 2 rfl, show field w 0 3 = g from field_at hw hp 0 rfl]

theorem amoMinz (d a b sz g : Nat) : Statement (.amoMinz d a b sz g) := by
  intro w hwf he
  have hr : ([.noPort d, .source a, .source b, .field sz 2, .field g 3] : List Operand).all Operand.fits = true := fits_of_wellFormed hwf
  simp only [List.all_cons, List.all_nil, Operand.fits, Bool.and_eq_true, decide_eq_true_eq, and_true] at hr
  have hp : ∀ seg ∈ ([(g, 3), (3, 5), (sz, 2), (b, 5), (a, 5), (d, 5), (96, 7)] : List (Nat × Nat)), seg.1 < 2 ^ seg.2 := by simp; omega
  have hw : w = packed [(g, 3), (3, 5), (sz, 2), (b, 5), (a, 5), (d, 5), (96, 7)] := by
    have e : place 0xc0000018 [(d, 20), (a, 15), (b, 10), (sz, 8), (g, 0)] = w := Option.some.inj he
    simp only [place, packed] at e ⊢; omega
  refine ⟨lt_of hw hp rfl, ?_⟩
  show byOpcode (field w 25 7) w = _
  rw [show field w 25 7 = 96 from field_at hw hp 6 rfl]
  show opcode60 (field w 3 5) w = _
  rw [show field w 3 5 = 3 from field_at hw hp 1 rfl]
  show Except.ok (Instr.amoMinz (field w 20 5) (field w 15 5) (field w 10 5) (field w 8 2) (field w 0 3)) = _
  rw [show field w 20 5 = d from field_at hw hp 5 rfl, show field w 15 5 = a from field_at hw hp 4 rfl, show field w 10 5 = b from field_at hw hp 3 rfl, show field w 8 2 = sz from field_at hw hp 2 rfl, show field w 0 3 = g from field_at hw hp 0 rfl]

theorem amoMaxz (d a b sz g : Nat) : Statement (.amoMaxz d a b sz g) := by
  intro w hwf he
  have hr : ([.noPort d, .source a, .source b, .field sz 2, .field g 3] : List Operand).all Operand.fits = true := fits_of_wellFormed hwf
  simp only [List.all_cons, List.all_nil, Operand.fits, Bool.and_eq_true, decide_eq_true_eq, and_true] at hr
  have hp : ∀ seg ∈ ([(g, 3), (4, 5), (sz, 2), (b, 5), (a, 5), (d, 5), (96, 7)] : List (Nat × Nat)), seg.1 < 2 ^ seg.2 := by simp; omega
  have hw : w = packed [(g, 3), (4, 5), (sz, 2), (b, 5), (a, 5), (d, 5), (96, 7)] := by
    have e : place 0xc0000020 [(d, 20), (a, 15), (b, 10), (sz, 8), (g, 0)] = w := Option.some.inj he
    simp only [place, packed] at e ⊢; omega
  refine ⟨lt_of hw hp rfl, ?_⟩
  show byOpcode (field w 25 7) w = _
  rw [show field w 25 7 = 96 from field_at hw hp 6 rfl]
  show opcode60 (field w 3 5) w = _
  rw [show field w 3 5 = 4 from field_at hw hp 1 rfl]
  show Except.ok (Instr.amoMaxz (field w 20 5) (field w 15 5) (field w 10 5) (field w 8 2) (field w 0 3)) = _
  rw [show field w 20 5 = d from field_at hw hp 5 rfl, show field w 15 5 = a from field_at hw hp 4 rfl, show field w 10 5 = b from field_at hw hp 3 rfl, show field w 8 2 = sz from field_at hw hp 2 rfl, show field w 0 3 = g from field_at hw hp 0 rfl]

theorem amoAnd (d a b sz g : Nat) : Statement (.amoAnd d a b sz g) := by
  intro w hwf he
  have hr : ([.noPort d, .source a, .source b, .field sz 2, .field g 3] : List Operand).all Operand.fits = true := fits_of_wellFormed hwf
  simp only [List.all_cons, List.all_nil, Operand.fits, Bool.and_eq_true, decide_eq_true_eq, and_true] at hr
  have hp : ∀ seg ∈ ([(g, 3), (5, 5), (sz, 2), (b, 5), (a, 5), (d, 5), (96, 7)] : List (Nat × Nat)), seg.1 < 2 ^ seg.2 := by simp; omega
  have hw : w = packed [(g, 3), (5, 5), (sz, 2), (b, 5), (a, 5), (d, 5), (96, 7)] := by
    have e : place 0xc0000028 [(d, 20), (a, 15), (b, 10), (sz, 8), (g, 0)] = w := Option.some.inj he
    simp only [place, packed] at e ⊢; omega
  refine ⟨lt_of hw hp rfl, ?_⟩
  show byOpcode (field w 25 7) w = _
  rw [show field w 25 7 = 96 from field_at hw hp 6 rfl]
  show opcode60 (field w 3 5) w = _
  rw [show field w 3 5 = 5 from field_at hw hp 1 rfl]
  show Except.ok (Instr.amoAnd (field w 20 5) (field w 15 5) (field w 10 5) (field w 8 2) (field w 0 3)) = _
  rw [show field w 20 5 = d from field_at hw hp 5 rfl, show field w 15 5 = a from field_at hw hp 4 rfl, show field w 10 5 = b from field_at hw hp 3 rfl, show field w 8 2 = sz from field_at hw hp 2 rfl, show field w 0 3 = g from field_at hw hp 0 rfl]

theorem amoOr (d a b sz g : Nat) : Statement (.amoOr d a b sz g) := by
  intro w hwf he
  have hr : ([.noPort d, .source a, .source b, .field sz 2, .field g 3] : List Operand).all Operand.fits = true := fits_of_wellFormed hwf
  simp only [List.all_cons, List.all_nil, Operand.fits, Bool.and_eq_true, decide_eq_true_eq, and_true] at hr
  have hp : ∀ seg ∈ ([(g, 3), (6, 5), (sz, 2), (b, 5), (a, 5), (d, 5), (96, 7)] : List (Nat × Nat)), seg.1 < 2 ^ seg.2 := by simp; omega
  have hw : w = packed [(g, 3), (6, 5), (sz, 2), (b, 5), (a, 5), (d, 5), (96, 7)] := by
    have e : place 0xc0000030 [(d, 20), (a, 15), (b, 10), (sz, 8), (g, 0)] = w := Option.some.inj he
    simp only [place, packed] at e ⊢; omega
  refine ⟨lt_of hw hp rfl, ?_⟩
  show byOpcode (field w 25 7) w = _
  rw [show field w 25 7 = 96 from field_at hw hp 6 rfl]
  show opcode60 (field w 3 5) w = _
  rw [show field w 3 5 = 6 from field_at hw hp 1 rfl]
  show Except.ok (Instr.amoOr (field w 20 5) (field w 15 5) (field w 10 5) (field w 8 2) (field w 0 3)) = _
  rw [show field w 20 5 = d from field_at hw hp 5 rfl, show field w 15 5 = a from field_at hw hp 4 rfl, show field w 10 5 = b from field_at hw hp 3 rfl, show field w 8 2 = sz from field_at hw hp 2 rfl, show field w 0 3 = g from field_at hw hp 0 rfl]

theorem amoXor (d a b sz g : Nat) : Statement (.amoXor d a b sz g) := by
  intro w hwf he
  have hr : ([.noPort d, .source a, .source b, .field sz 2, .field g 3] : List Operand).all Operand.fits = true := fits_of_wellFormed hwf
  simp only [List.all_cons, List.all_nil, Operand.fits, Bool.and_eq_true, decide_eq_true_eq, and_true] at hr
  have hp : ∀ seg ∈ ([(g, 3), (7, 5), (sz, 2), (b, 5), (a, 5), (d, 5), (96, 7)] : List (Nat × Nat)), seg.1 < 2 ^ seg.2 := by simp; omega
  have hw : w = packed [(g, 3), (7, 5), (sz, 2), (b, 5), (a, 5), (d, 5), (96, 7)] := by
    have e : place 0xc0000038 [(d, 20), (a, 15), (b, 10), (sz, 8), (g, 0)] = w := Option.some.inj he
    simp only [place, packed] at e ⊢; omega
  refine ⟨lt_of hw hp rfl, ?_⟩
  show byOpcode (field w 25 7) w = _
  rw [show field w 25 7 = 96 from field_at hw hp 6 rfl]
  show opcode60 (field w 3 5) w = _
  rw [show field w 3 5 = 7 from field_at hw hp 1 rfl]
  show Except.ok (Instr.amoXor (field w 20 5) (field w 15 5) (field w 10 5) (field w 8 2) (field w 0 3)) = _
  rw [show field w 20 5 = d from field_at hw hp 5 rfl, show field w 15 5 = a from field_at hw hp 4 rfl, show field w 10 5 = b from field_at hw hp 3 rfl, show field w 8 2 = sz from field_at hw hp 2 rfl, show field w 0 3 = g from field_at hw hp 0 rfl]

theorem amoSwap (d a b sz g : Nat) : Statement (.amoSwap d a b sz g) := by
  intro w hwf he
  have hr : ([.noPort d, .source a, .source b, .field sz 2, .field g 3] : List Operand).all Operand.fits = true := fits_of_wellFormed hwf
  simp only [List.all_cons, List.all_nil, Operand.fits, Bool.and_eq_true, decide_eq_true_eq, and_true] at hr
  have hp : ∀ seg ∈ ([(g, 3), (8, 5), (sz, 2), (b, 5), (a, 5), (d, 5), (96, 7)] : List (Nat × Nat)), seg.1 < 2 ^ seg.2 := by simp; omega
  have hw : w = packed [(g, 3), (8, 5), (sz, 2), (b, 5), (a, 5), (d, 5), (96, 7)] := by
    have e : place 0xc0000040 [(d, 20), (a, 15), (b, 10), (sz, 8), (g, 0)] = w := Option.some.inj he
    simp only [place, packed] at e ⊢; omega
  refine ⟨lt_of hw hp rfl, ?_⟩
  show byOpcode (field w 25 7) w = _
  rw [show field w 25 7 = 96 from field_at hw hp 6 rfl]
  show opcode60 (field w 3 5) w = _
  rw [show field w 3 5 = 8 from field_at hw hp 1 rfl]
  show Except.ok (Instr.amoSwap (field w 20 5) (field w 15 5) (field w 10 5) (field w 8 2) (field w 0 3)) = _
  rw [show field w 20 5 = d from field_at hw hp 5 rfl, show field w 15 5 = a from field_at hw hp 4 rfl, show field w 10 5 = b from field_at hw hp 3 rfl, show field w 8 2 = sz from field_at hw hp 2 rfl, show field w 0 3 = g from field_at hw hp 0 rfl]

theorem amocas (d a b c sz g : Nat) : Statement (.amocas d a b c sz g) := by
  intro w hwf he
  have hr : ([.noPort d, .source a, .source b, .source c, .field sz 2, .field g 3] : List Operand).all Operand.fits = true := fits_of_wellFormed hwf
  simp only [List.all_cons, List.all_nil, Operand.fits, Bool.and_eq_true, decide_eq_true_eq, and_true] at hr
  have hp : ∀ seg ∈ ([(g, 3), (sz, 2), (c, 5), (b, 5), (a, 5), (d, 5), (97, 7)] : List (Nat × Nat)), seg.1 < 2 ^ seg.2 := by simp; omega
  have hw : w = packed [(g, 3), (sz, 2), (c, 5), (b, 5), (a, 5), (d, 5), (97, 7)] := by
    have e : place 0xc2000000 [(d, 20), (a, 15), (b, 10), (c, 5), (sz, 3), (g, 0)] = w := Option.some.inj he
    simp only [place, packed] at e ⊢; omega
  refine ⟨lt_of hw hp rfl, ?_⟩
  show byOpcode (field w 25 7) w = _
  rw [show field w 25 7 = 97 from field_at hw hp 6 rfl]
  show Except.ok (Instr.amocas (field w 20 5) (field w 15 5) (field w 10 5) (field w 5 5) (field w 3 2) (field w 0 3)) = _
  rw [show field w 20 5 = d from field_at hw hp 5 rfl, show field w 15 5 = a from field_at hw hp 4 rfl, show field w 10 5 = b from field_at hw hp 3 rfl, show field w 5 5 = c from field_at hw hp 2 rfl, show field w 3 2 = sz from field_at hw hp 1 rfl, show field w 0 3 = g from field_at hw hp 0 rfl]

theorem famoFaddx (d a b fmt g : Nat) : Statement (.famoFaddx d a b fmt g) := by
  intro w hwf he
  have hr : ([.noPort d, .source a, .source b, .field fmt 2, .field g 3] : List Operand).all Operand.fits = true := fits_of_wellFormed hwf
  simp only [List.all_cons, List.all_nil, Operand.fits, Bool.and_eq_true, decide_eq_true_eq, and_true] at hr
  have hp : ∀ seg ∈ ([(g, 3), (0, 5), (fmt, 2), (b, 5), (a, 5), (d, 5), (98, 7)] : List (Nat × Nat)), seg.1 < 2 ^ seg.2 := by simp; omega
  have hw : w = packed [(g, 3), (0, 5), (fmt, 2), (b, 5), (a, 5), (d, 5), (98, 7)] := by
    have e : place 0xc4000000 [(d, 20), (a, 15), (b, 10), (fmt, 8), (g, 0)] = w := Option.some.inj he
    simp only [place, packed] at e ⊢; omega
  refine ⟨lt_of hw hp rfl, ?_⟩
  show byOpcode (field w 25 7) w = _
  rw [show field w 25 7 = 98 from field_at hw hp 6 rfl]
  show opcode62 (field w 3 5) w = _
  rw [show field w 3 5 = 0 from field_at hw hp 1 rfl]
  show Except.ok (Instr.famoFaddx (field w 20 5) (field w 15 5) (field w 10 5) (field w 8 2) (field w 0 3)) = _
  rw [show field w 20 5 = d from field_at hw hp 5 rfl, show field w 15 5 = a from field_at hw hp 4 rfl, show field w 10 5 = b from field_at hw hp 3 rfl, show field w 8 2 = fmt from field_at hw hp 2 rfl, show field w 0 3 = g from field_at hw hp 0 rfl]

theorem famoFmin (d a b fmt g : Nat) : Statement (.famoFmin d a b fmt g) := by
  intro w hwf he
  have hr : ([.noPort d, .source a, .source b, .field fmt 2, .field g 3] : List Operand).all Operand.fits = true := fits_of_wellFormed hwf
  simp only [List.all_cons, List.all_nil, Operand.fits, Bool.and_eq_true, decide_eq_true_eq, and_true] at hr
  have hp : ∀ seg ∈ ([(g, 3), (1, 5), (fmt, 2), (b, 5), (a, 5), (d, 5), (98, 7)] : List (Nat × Nat)), seg.1 < 2 ^ seg.2 := by simp; omega
  have hw : w = packed [(g, 3), (1, 5), (fmt, 2), (b, 5), (a, 5), (d, 5), (98, 7)] := by
    have e : place 0xc4000008 [(d, 20), (a, 15), (b, 10), (fmt, 8), (g, 0)] = w := Option.some.inj he
    simp only [place, packed] at e ⊢; omega
  refine ⟨lt_of hw hp rfl, ?_⟩
  show byOpcode (field w 25 7) w = _
  rw [show field w 25 7 = 98 from field_at hw hp 6 rfl]
  show opcode62 (field w 3 5) w = _
  rw [show field w 3 5 = 1 from field_at hw hp 1 rfl]
  show Except.ok (Instr.famoFmin (field w 20 5) (field w 15 5) (field w 10 5) (field w 8 2) (field w 0 3)) = _
  rw [show field w 20 5 = d from field_at hw hp 5 rfl, show field w 15 5 = a from field_at hw hp 4 rfl, show field w 10 5 = b from field_at hw hp 3 rfl, show field w 8 2 = fmt from field_at hw hp 2 rfl, show field w 0 3 = g from field_at hw hp 0 rfl]

theorem famoFmax (d a b fmt g : Nat) : Statement (.famoFmax d a b fmt g) := by
  intro w hwf he
  have hr : ([.noPort d, .source a, .source b, .field fmt 2, .field g 3] : List Operand).all Operand.fits = true := fits_of_wellFormed hwf
  simp only [List.all_cons, List.all_nil, Operand.fits, Bool.and_eq_true, decide_eq_true_eq, and_true] at hr
  have hp : ∀ seg ∈ ([(g, 3), (2, 5), (fmt, 2), (b, 5), (a, 5), (d, 5), (98, 7)] : List (Nat × Nat)), seg.1 < 2 ^ seg.2 := by simp; omega
  have hw : w = packed [(g, 3), (2, 5), (fmt, 2), (b, 5), (a, 5), (d, 5), (98, 7)] := by
    have e : place 0xc4000010 [(d, 20), (a, 15), (b, 10), (fmt, 8), (g, 0)] = w := Option.some.inj he
    simp only [place, packed] at e ⊢; omega
  refine ⟨lt_of hw hp rfl, ?_⟩
  show byOpcode (field w 25 7) w = _
  rw [show field w 25 7 = 98 from field_at hw hp 6 rfl]
  show opcode62 (field w 3 5) w = _
  rw [show field w 3 5 = 2 from field_at hw hp 1 rfl]
  show Except.ok (Instr.famoFmax (field w 20 5) (field w 15 5) (field w 10 5) (field w 8 2) (field w 0 3)) = _
  rw [show field w 20 5 = d from field_at hw hp 5 rfl, show field w 15 5 = a from field_at hw hp 4 rfl, show field w 10 5 = b from field_at hw hp 3 rfl, show field w 8 2 = fmt from field_at hw hp 2 rfl, show field w 0 3 = g from field_at hw hp 0 rfl]

theorem famoFrdx (d a b fmt g : Nat) : Statement (.famoFrdx d a b fmt g) := by
  intro w hwf he
  have hr : ([.noPort d, .source a, .source b, .field fmt 2, .field g 3] : List Operand).all Operand.fits = true := fits_of_wellFormed hwf
  simp only [List.all_cons, List.all_nil, Operand.fits, Bool.and_eq_true, decide_eq_true_eq, and_true] at hr
  have hp : ∀ seg ∈ ([(g, 3), (3, 5), (fmt, 2), (b, 5), (a, 5), (d, 5), (98, 7)] : List (Nat × Nat)), seg.1 < 2 ^ seg.2 := by simp; omega
  have hw : w = packed [(g, 3), (3, 5), (fmt, 2), (b, 5), (a, 5), (d, 5), (98, 7)] := by
    have e : place 0xc4000018 [(d, 20), (a, 15), (b, 10), (fmt, 8), (g, 0)] = w := Option.some.inj he
    simp only [place, packed] at e ⊢; omega
  refine ⟨lt_of hw hp rfl, ?_⟩
  show byOpcode (field w 25 7) w = _
  rw [show field w 25 7 = 98 from field_at hw hp 6 rfl]
  show opcode62 (field w 3 5) w = _
  rw [show field w 3 5 = 3 from field_at hw hp 1 rfl]
  show Except.ok (Instr.famoFrdx (field w 20 5) (field w 15 5) (field w 10 5) (field w 8 2) (field w 0 3)) = _
  rw [show field w 20 5 = d from field_at hw hp 5 rfl, show field w 15 5 = a from field_at hw hp 4 rfl, show field w 10 5 = b from field_at hw hp 3 rfl, show field w 8 2 = fmt from field_at hw hp 2 rfl, show field w 0 3 = g from field_at hw hp 0 rfl]

theorem redAdd (a b sz g : Nat) : Statement (.redAdd a b sz g) := by
  intro w hwf he
  have hr : ([.source a, .source b, .field sz 2, .field g 3] : List Operand).all Operand.fits = true := fits_of_wellFormed hwf
  simp only [List.all_cons, List.all_nil, Operand.fits, Bool.and_eq_true, decide_eq_true_eq, and_true] at hr
  have hp : ∀ seg ∈ ([(g, 3), (0, 5), (sz, 2), (b, 5), (a, 5), (0, 5), (99, 7)] : List (Nat × Nat)), seg.1 < 2 ^ seg.2 := by simp; omega
  have hw : w = packed [(g, 3), (0, 5), (sz, 2), (b, 5), (a, 5), (0, 5), (99, 7)] := by
    have e : place 0xc6000000 [(a, 15), (b, 10), (sz, 8), (g, 0)] = w := Option.some.inj he
    simp only [place, packed] at e ⊢; omega
  refine ⟨lt_of hw hp rfl, ?_⟩
  show byOpcode (field w 25 7) w = _
  rw [show field w 25 7 = 99 from field_at hw hp 6 rfl]
  show opcode63 (field w 3 5) w = _
  rw [show field w 3 5 = 0 from field_at hw hp 1 rfl]
  show Except.ok (Instr.redAdd (field w 15 5) (field w 10 5) (field w 8 2) (field w 0 3)) = _
  rw [show field w 15 5 = a from field_at hw hp 4 rfl, show field w 10 5 = b from field_at hw hp 3 rfl, show field w 8 2 = sz from field_at hw hp 2 rfl, show field w 0 3 = g from field_at hw hp 0 rfl]

theorem redMin (a b sz g : Nat) : Statement (.redMin a b sz g) := by
  intro w hwf he
  have hr : ([.source a, .source b, .field sz 2, .field g 3] : List Operand).all Operand.fits = true := fits_of_wellFormed hwf
  simp only [List.all_cons, List.all_nil, Operand.fits, Bool.and_eq_true, decide_eq_true_eq, and_true] at hr
  have hp : ∀ seg ∈ ([(g, 3), (1, 5), (sz, 2), (b, 5), (a, 5), (0, 5), (99, 7)] : List (Nat × Nat)), seg.1 < 2 ^ seg.2 := by simp; omega
  have hw : w = packed [(g, 3), (1, 5), (sz, 2), (b, 5), (a, 5), (0, 5), (99, 7)] := by
    have e : place 0xc6000008 [(a, 15), (b, 10), (sz, 8), (g, 0)] = w := Option.some.inj he
    simp only [place, packed] at e ⊢; omega
  refine ⟨lt_of hw hp rfl, ?_⟩
  show byOpcode (field w 25 7) w = _
  rw [show field w 25 7 = 99 from field_at hw hp 6 rfl]
  show opcode63 (field w 3 5) w = _
  rw [show field w 3 5 = 1 from field_at hw hp 1 rfl]
  show Except.ok (Instr.redMin (field w 15 5) (field w 10 5) (field w 8 2) (field w 0 3)) = _
  rw [show field w 15 5 = a from field_at hw hp 4 rfl, show field w 10 5 = b from field_at hw hp 3 rfl, show field w 8 2 = sz from field_at hw hp 2 rfl, show field w 0 3 = g from field_at hw hp 0 rfl]

theorem redMax (a b sz g : Nat) : Statement (.redMax a b sz g) := by
  intro w hwf he
  have hr : ([.source a, .source b, .field sz 2, .field g 3] : List Operand).all Operand.fits = true := fits_of_wellFormed hwf
  simp only [List.all_cons, List.all_nil, Operand.fits, Bool.and_eq_true, decide_eq_true_eq, and_true] at hr
  have hp : ∀ seg ∈ ([(g, 3), (2, 5), (sz, 2), (b, 5), (a, 5), (0, 5), (99, 7)] : List (Nat × Nat)), seg.1 < 2 ^ seg.2 := by simp; omega
  have hw : w = packed [(g, 3), (2, 5), (sz, 2), (b, 5), (a, 5), (0, 5), (99, 7)] := by
    have e : place 0xc6000010 [(a, 15), (b, 10), (sz, 8), (g, 0)] = w := Option.some.inj he
    simp only [place, packed] at e ⊢; omega
  refine ⟨lt_of hw hp rfl, ?_⟩
  show byOpcode (field w 25 7) w = _
  rw [show field w 25 7 = 99 from field_at hw hp 6 rfl]
  show opcode63 (field w 3 5) w = _
  rw [show field w 3 5 = 2 from field_at hw hp 1 rfl]
  show Except.ok (Instr.redMax (field w 15 5) (field w 10 5) (field w 8 2) (field w 0 3)) = _
  rw [show field w 15 5 = a from field_at hw hp 4 rfl, show field w 10 5 = b from field_at hw hp 3 rfl, show field w 8 2 = sz from field_at hw hp 2 rfl, show field w 0 3 = g from field_at hw hp 0 rfl]

theorem redMinz (a b sz g : Nat) : Statement (.redMinz a b sz g) := by
  intro w hwf he
  have hr : ([.source a, .source b, .field sz 2, .field g 3] : List Operand).all Operand.fits = true := fits_of_wellFormed hwf
  simp only [List.all_cons, List.all_nil, Operand.fits, Bool.and_eq_true, decide_eq_true_eq, and_true] at hr
  have hp : ∀ seg ∈ ([(g, 3), (3, 5), (sz, 2), (b, 5), (a, 5), (0, 5), (99, 7)] : List (Nat × Nat)), seg.1 < 2 ^ seg.2 := by simp; omega
  have hw : w = packed [(g, 3), (3, 5), (sz, 2), (b, 5), (a, 5), (0, 5), (99, 7)] := by
    have e : place 0xc6000018 [(a, 15), (b, 10), (sz, 8), (g, 0)] = w := Option.some.inj he
    simp only [place, packed] at e ⊢; omega
  refine ⟨lt_of hw hp rfl, ?_⟩
  show byOpcode (field w 25 7) w = _
  rw [show field w 25 7 = 99 from field_at hw hp 6 rfl]
  show opcode63 (field w 3 5) w = _
  rw [show field w 3 5 = 3 from field_at hw hp 1 rfl]
  show Except.ok (Instr.redMinz (field w 15 5) (field w 10 5) (field w 8 2) (field w 0 3)) = _
  rw [show field w 15 5 = a from field_at hw hp 4 rfl, show field w 10 5 = b from field_at hw hp 3 rfl, show field w 8 2 = sz from field_at hw hp 2 rfl, show field w 0 3 = g from field_at hw hp 0 rfl]

theorem redMaxz (a b sz g : Nat) : Statement (.redMaxz a b sz g) := by
  intro w hwf he
  have hr : ([.source a, .source b, .field sz 2, .field g 3] : List Operand).all Operand.fits = true := fits_of_wellFormed hwf
  simp only [List.all_cons, List.all_nil, Operand.fits, Bool.and_eq_true, decide_eq_true_eq, and_true] at hr
  have hp : ∀ seg ∈ ([(g, 3), (4, 5), (sz, 2), (b, 5), (a, 5), (0, 5), (99, 7)] : List (Nat × Nat)), seg.1 < 2 ^ seg.2 := by simp; omega
  have hw : w = packed [(g, 3), (4, 5), (sz, 2), (b, 5), (a, 5), (0, 5), (99, 7)] := by
    have e : place 0xc6000020 [(a, 15), (b, 10), (sz, 8), (g, 0)] = w := Option.some.inj he
    simp only [place, packed] at e ⊢; omega
  refine ⟨lt_of hw hp rfl, ?_⟩
  show byOpcode (field w 25 7) w = _
  rw [show field w 25 7 = 99 from field_at hw hp 6 rfl]
  show opcode63 (field w 3 5) w = _
  rw [show field w 3 5 = 4 from field_at hw hp 1 rfl]
  show Except.ok (Instr.redMaxz (field w 15 5) (field w 10 5) (field w 8 2) (field w 0 3)) = _
  rw [show field w 15 5 = a from field_at hw hp 4 rfl, show field w 10 5 = b from field_at hw hp 3 rfl, show field w 8 2 = sz from field_at hw hp 2 rfl, show field w 0 3 = g from field_at hw hp 0 rfl]

theorem redAnd (a b sz g : Nat) : Statement (.redAnd a b sz g) := by
  intro w hwf he
  have hr : ([.source a, .source b, .field sz 2, .field g 3] : List Operand).all Operand.fits = true := fits_of_wellFormed hwf
  simp only [List.all_cons, List.all_nil, Operand.fits, Bool.and_eq_true, decide_eq_true_eq, and_true] at hr
  have hp : ∀ seg ∈ ([(g, 3), (5, 5), (sz, 2), (b, 5), (a, 5), (0, 5), (99, 7)] : List (Nat × Nat)), seg.1 < 2 ^ seg.2 := by simp; omega
  have hw : w = packed [(g, 3), (5, 5), (sz, 2), (b, 5), (a, 5), (0, 5), (99, 7)] := by
    have e : place 0xc6000028 [(a, 15), (b, 10), (sz, 8), (g, 0)] = w := Option.some.inj he
    simp only [place, packed] at e ⊢; omega
  refine ⟨lt_of hw hp rfl, ?_⟩
  show byOpcode (field w 25 7) w = _
  rw [show field w 25 7 = 99 from field_at hw hp 6 rfl]
  show opcode63 (field w 3 5) w = _
  rw [show field w 3 5 = 5 from field_at hw hp 1 rfl]
  show Except.ok (Instr.redAnd (field w 15 5) (field w 10 5) (field w 8 2) (field w 0 3)) = _
  rw [show field w 15 5 = a from field_at hw hp 4 rfl, show field w 10 5 = b from field_at hw hp 3 rfl, show field w 8 2 = sz from field_at hw hp 2 rfl, show field w 0 3 = g from field_at hw hp 0 rfl]

theorem redOr (a b sz g : Nat) : Statement (.redOr a b sz g) := by
  intro w hwf he
  have hr : ([.source a, .source b, .field sz 2, .field g 3] : List Operand).all Operand.fits = true := fits_of_wellFormed hwf
  simp only [List.all_cons, List.all_nil, Operand.fits, Bool.and_eq_true, decide_eq_true_eq, and_true] at hr
  have hp : ∀ seg ∈ ([(g, 3), (6, 5), (sz, 2), (b, 5), (a, 5), (0, 5), (99, 7)] : List (Nat × Nat)), seg.1 < 2 ^ seg.2 := by simp; omega
  have hw : w = packed [(g, 3), (6, 5), (sz, 2), (b, 5), (a, 5), (0, 5), (99, 7)] := by
    have e : place 0xc6000030 [(a, 15), (b, 10), (sz, 8), (g, 0)] = w := Option.some.inj he
    simp only [place, packed] at e ⊢; omega
  refine ⟨lt_of hw hp rfl, ?_⟩
  show byOpcode (field w 25 7) w = _
  rw [show field w 25 7 = 99 from field_at hw hp 6 rfl]
  show opcode63 (field w 3 5) w = _
  rw [show field w 3 5 = 6 from field_at hw hp 1 rfl]
  show Except.ok (Instr.redOr (field w 15 5) (field w 10 5) (field w 8 2) (field w 0 3)) = _
  rw [show field w 15 5 = a from field_at hw hp 4 rfl, show field w 10 5 = b from field_at hw hp 3 rfl, show field w 8 2 = sz from field_at hw hp 2 rfl, show field w 0 3 = g from field_at hw hp 0 rfl]

theorem redXor (a b sz g : Nat) : Statement (.redXor a b sz g) := by
  intro w hwf he
  have hr : ([.source a, .source b, .field sz 2, .field g 3] : List Operand).all Operand.fits = true := fits_of_wellFormed hwf
  simp only [List.all_cons, List.all_nil, Operand.fits, Bool.and_eq_true, decide_eq_true_eq, and_true] at hr
  have hp : ∀ seg ∈ ([(g, 3), (7, 5), (sz, 2), (b, 5), (a, 5), (0, 5), (99, 7)] : List (Nat × Nat)), seg.1 < 2 ^ seg.2 := by simp; omega
  have hw : w = packed [(g, 3), (7, 5), (sz, 2), (b, 5), (a, 5), (0, 5), (99, 7)] := by
    have e : place 0xc6000038 [(a, 15), (b, 10), (sz, 8), (g, 0)] = w := Option.some.inj he
    simp only [place, packed] at e ⊢; omega
  refine ⟨lt_of hw hp rfl, ?_⟩
  show byOpcode (field w 25 7) w = _
  rw [show field w 25 7 = 99 from field_at hw hp 6 rfl]
  show opcode63 (field w 3 5) w = _
  rw [show field w 3 5 = 7 from field_at hw hp 1 rfl]
  show Except.ok (Instr.redXor (field w 15 5) (field w 10 5) (field w 8 2) (field w 0 3)) = _
  rw [show field w 15 5 = a from field_at hw hp 4 rfl, show field w 10 5 = b from field_at hw hp 3 rfl, show field w 8 2 = sz from field_at hw hp 2 rfl, show field w 0 3 = g from field_at hw hp 0 rfl]

theorem redFaddx (a b fmt g : Nat) : Statement (.redFaddx a b fmt g) := by
  intro w hwf he
  have hr : ([.source a, .source b, .field fmt 2, .field g 3] : List Operand).all Operand.fits = true := fits_of_wellFormed hwf
  simp only [List.all_cons, List.all_nil, Operand.fits, Bool.and_eq_true, decide_eq_true_eq, and_true] at hr
  have hp : ∀ seg ∈ ([(g, 3), (16, 5), (fmt, 2), (b, 5), (a, 5), (0, 5), (99, 7)] : List (Nat × Nat)), seg.1 < 2 ^ seg.2 := by simp; omega
  have hw : w = packed [(g, 3), (16, 5), (fmt, 2), (b, 5), (a, 5), (0, 5), (99, 7)] := by
    have e : place 0xc6000080 [(a, 15), (b, 10), (fmt, 8), (g, 0)] = w := Option.some.inj he
    simp only [place, packed] at e ⊢; omega
  refine ⟨lt_of hw hp rfl, ?_⟩
  show byOpcode (field w 25 7) w = _
  rw [show field w 25 7 = 99 from field_at hw hp 6 rfl]
  show opcode63 (field w 3 5) w = _
  rw [show field w 3 5 = 16 from field_at hw hp 1 rfl]
  show Except.ok (Instr.redFaddx (field w 15 5) (field w 10 5) (field w 8 2) (field w 0 3)) = _
  rw [show field w 15 5 = a from field_at hw hp 4 rfl, show field w 10 5 = b from field_at hw hp 3 rfl, show field w 8 2 = fmt from field_at hw hp 2 rfl, show field w 0 3 = g from field_at hw hp 0 rfl]

theorem redFmin (a b fmt g : Nat) : Statement (.redFmin a b fmt g) := by
  intro w hwf he
  have hr : ([.source a, .source b, .field fmt 2, .field g 3] : List Operand).all Operand.fits = true := fits_of_wellFormed hwf
  simp only [List.all_cons, List.all_nil, Operand.fits, Bool.and_eq_true, decide_eq_true_eq, and_true] at hr
  have hp : ∀ seg ∈ ([(g, 3), (17, 5), (fmt, 2), (b, 5), (a, 5), (0, 5), (99, 7)] : List (Nat × Nat)), seg.1 < 2 ^ seg.2 := by simp; omega
  have hw : w = packed [(g, 3), (17, 5), (fmt, 2), (b, 5), (a, 5), (0, 5), (99, 7)] := by
    have e : place 0xc6000088 [(a, 15), (b, 10), (fmt, 8), (g, 0)] = w := Option.some.inj he
    simp only [place, packed] at e ⊢; omega
  refine ⟨lt_of hw hp rfl, ?_⟩
  show byOpcode (field w 25 7) w = _
  rw [show field w 25 7 = 99 from field_at hw hp 6 rfl]
  show opcode63 (field w 3 5) w = _
  rw [show field w 3 5 = 17 from field_at hw hp 1 rfl]
  show Except.ok (Instr.redFmin (field w 15 5) (field w 10 5) (field w 8 2) (field w 0 3)) = _
  rw [show field w 15 5 = a from field_at hw hp 4 rfl, show field w 10 5 = b from field_at hw hp 3 rfl, show field w 8 2 = fmt from field_at hw hp 2 rfl, show field w 0 3 = g from field_at hw hp 0 rfl]

theorem redFmax (a b fmt g : Nat) : Statement (.redFmax a b fmt g) := by
  intro w hwf he
  have hr : ([.source a, .source b, .field fmt 2, .field g 3] : List Operand).all Operand.fits = true := fits_of_wellFormed hwf
  simp only [List.all_cons, List.all_nil, Operand.fits, Bool.and_eq_true, decide_eq_true_eq, and_true] at hr
  have hp : ∀ seg ∈ ([(g, 3), (18, 5), (fmt, 2), (b, 5), (a, 5), (0, 5), (99, 7)] : List (Nat × Nat)), seg.1 < 2 ^ seg.2 := by simp; omega
  have hw : w = packed [(g, 3), (18, 5), (fmt, 2), (b, 5), (a, 5), (0, 5), (99, 7)] := by
    have e : place 0xc6000090 [(a, 15), (b, 10), (fmt, 8), (g, 0)] = w := Option.some.inj he
    simp only [place, packed] at e ⊢; omega
  refine ⟨lt_of hw hp rfl, ?_⟩
  show byOpcode (field w 25 7) w = _
  rw [show field w 25 7 = 99 from field_at hw hp 6 rfl]
  show opcode63 (field w 3 5) w = _
  rw [show field w 3 5 = 18 from field_at hw hp 1 rfl]
  show Except.ok (Instr.redFmax (field w 15 5) (field w 10 5) (field w 8 2) (field w 0 3)) = _
  rw [show field w 15 5 = a from field_at hw hp 4 rfl, show field w 10 5 = b from field_at hw hp 3 rfl, show field w 8 2 = fmt from field_at hw hp 2 rfl, show field w 0 3 = g from field_at hw hp 0 rfl]

theorem barArr (d a g : Nat) : Statement (.barArr d a g) := by
  intro w hwf he
  have hr : ([.noPort d, .source a, .field g 3] : List Operand).all Operand.fits = true := fits_of_wellFormed hwf
  simp only [List.all_cons, List.all_nil, Operand.fits, Bool.and_eq_true, decide_eq_true_eq, and_true] at hr
  have hp : ∀ seg ∈ ([(g, 3), (0, 7), (0, 5), (a, 5), (d, 5), (100, 7)] : List (Nat × Nat)), seg.1 < 2 ^ seg.2 := by simp; omega
  have hw : w = packed [(g, 3), (0, 7), (0, 5), (a, 5), (d, 5), (100, 7)] := by
    have e : place 0xc8000000 [(d, 20), (a, 15), (g, 0)] = w := Option.some.inj he
    simp only [place, packed] at e ⊢; omega
  refine ⟨lt_of hw hp rfl, ?_⟩
  show byOpcode (field w 25 7) w = _
  rw [show field w 25 7 = 100 from field_at hw hp 5 rfl]
  show opcode64 (field w 3 7) w = _
  rw [show field w 3 7 = 0 from field_at hw hp 1 rfl]
  show Except.ok (Instr.barArr (field w 20 5) (field w 15 5) (field w 0 3)) = _
  rw [show field w 20 5 = d from field_at hw hp 4 rfl, show field w 15 5 = a from field_at hw hp 3 rfl, show field w 0 3 = g from field_at hw hp 0 rfl]

theorem barDrop (d a g : Nat) : Statement (.barDrop d a g) := by
  intro w hwf he
  have hr : ([.noPort d, .source a, .field g 3] : List Operand).all Operand.fits = true := fits_of_wellFormed hwf
  simp only [List.all_cons, List.all_nil, Operand.fits, Bool.and_eq_true, decide_eq_true_eq, and_true] at hr
  have hp : ∀ seg ∈ ([(g, 3), (1, 7), (0, 5), (a, 5), (d, 5), (100, 7)] : List (Nat × Nat)), seg.1 < 2 ^ seg.2 := by simp; omega
  have hw : w = packed [(g, 3), (1, 7), (0, 5), (a, 5), (d, 5), (100, 7)] := by
    have e : place 0xc8000008 [(d, 20), (a, 15), (g, 0)] = w := Option.some.inj he
    simp only [place, packed] at e ⊢; omega
  refine ⟨lt_of hw hp rfl, ?_⟩
  show byOpcode (field w 25 7) w = _
  rw [show field w 25 7 = 100 from field_at hw hp 5 rfl]
  show opcode64 (field w 3 7) w = _
  rw [show field w 3 7 = 1 from field_at hw hp 1 rfl]
  show Except.ok (Instr.barDrop (field w 20 5) (field w 15 5) (field w 0 3)) = _
  rw [show field w 20 5 = d from field_at hw hp 4 rfl, show field w 15 5 = a from field_at hw hp 3 rfl, show field w 0 3 = g from field_at hw hp 0 rfl]

theorem barWait (a b g : Nat) : Statement (.barWait a b g) := by
  intro w hwf he
  have hr : ([.source a, .source b, .field g 3] : List Operand).all Operand.fits = true := fits_of_wellFormed hwf
  simp only [List.all_cons, List.all_nil, Operand.fits, Bool.and_eq_true, decide_eq_true_eq, and_true] at hr
  have hp : ∀ seg ∈ ([(g, 3), (2, 7), (b, 5), (a, 5), (0, 5), (100, 7)] : List (Nat × Nat)), seg.1 < 2 ^ seg.2 := by simp; omega
  have hw : w = packed [(g, 3), (2, 7), (b, 5), (a, 5), (0, 5), (100, 7)] := by
    have e : place 0xc8000010 [(a, 15), (b, 10), (g, 0)] = w := Option.some.inj he
    simp only [place, packed] at e ⊢; omega
  refine ⟨lt_of hw hp rfl, ?_⟩
  show byOpcode (field w 25 7) w = _
  rw [show field w 25 7 = 100 from field_at hw hp 5 rfl]
  show opcode64 (field w 3 7) w = _
  rw [show field w 3 7 = 2 from field_at hw hp 1 rfl]
  show Except.ok (Instr.barWait (field w 15 5) (field w 10 5) (field w 0 3)) = _
  rw [show field w 15 5 = a from field_at hw hp 3 rfl, show field w 10 5 = b from field_at hw hp 2 rfl, show field w 0 3 = g from field_at hw hp 0 rfl]

theorem barTest (p a b g : Nat) : Statement (.barTest p a b g) := by
  intro w hwf he
  have hr : ([.pred p, .source a, .source b, .field g 3] : List Operand).all Operand.fits = true := fits_of_wellFormed hwf
  simp only [List.all_cons, List.all_nil, Operand.fits, Bool.and_eq_true, decide_eq_true_eq, and_true] at hr
  have hp : ∀ seg ∈ ([(g, 3), (3, 7), (b, 5), (a, 5), (p, 5), (100, 7)] : List (Nat × Nat)), seg.1 < 2 ^ seg.2 := by simp; omega
  have hw : w = packed [(g, 3), (3, 7), (b, 5), (a, 5), (p, 5), (100, 7)] := by
    have e : place 0xc8000018 [(p, 20), (a, 15), (b, 10), (g, 0)] = w := Option.some.inj he
    simp only [place, packed] at e ⊢; omega
  refine ⟨lt_of hw hp rfl, ?_⟩
  show byOpcode (field w 25 7) w = _
  rw [show field w 25 7 = 100 from field_at hw hp 5 rfl]
  show opcode64 (field w 3 7) w = _
  rw [show field w 3 7 = 3 from field_at hw hp 1 rfl]
  show Except.ok (Instr.barTest (field w 20 5) (field w 15 5) (field w 10 5) (field w 0 3)) = _
  rw [show field w 20 5 = p from field_at hw hp 4 rfl, show field w 15 5 = a from field_at hw hp 3 rfl, show field w 10 5 = b from field_at hw hp 2 rfl, show field w 0 3 = g from field_at hw hp 0 rfl]

theorem tspawn (d a b g : Nat) : Statement (.tspawn d a b g) := by
  intro w hwf he
  have hr : ([.noPort d, .noPort a, .noPort b, .field g 3] : List Operand).all Operand.fits = true := fits_of_wellFormed hwf
  simp only [List.all_cons, List.all_nil, Operand.fits, Bool.and_eq_true, decide_eq_true_eq, and_true] at hr
  have hp : ∀ seg ∈ ([(g, 3), (0, 7), (b, 5), (a, 5), (d, 5), (101, 7)] : List (Nat × Nat)), seg.1 < 2 ^ seg.2 := by simp; omega
  have hw : w = packed [(g, 3), (0, 7), (b, 5), (a, 5), (d, 5), (101, 7)] := by
    have e : place 0xca000000 [(d, 20), (a, 15), (b, 10), (g, 0)] = w := Option.some.inj he
    simp only [place, packed] at e ⊢; omega
  refine ⟨lt_of hw hp rfl, ?_⟩
  show byOpcode (field w 25 7) w = _
  rw [show field w 25 7 = 101 from field_at hw hp 5 rfl]
  show opcode65 (field w 3 7) w = _
  rw [show field w 3 7 = 0 from field_at hw hp 1 rfl]
  show Except.ok (Instr.tspawn (field w 20 5) (field w 15 5) (field w 10 5) (field w 0 3)) = _
  rw [show field w 20 5 = d from field_at hw hp 4 rfl, show field w 15 5 = a from field_at hw hp 3 rfl, show field w 10 5 = b from field_at hw hp 2 rfl, show field w 0 3 = g from field_at hw hp 0 rfl]

theorem taskGvt (d g : Nat) : Statement (.taskGvt d g) := by
  intro w hwf he
  have hr : ([.noPort d, .field g 3] : List Operand).all Operand.fits = true := fits_of_wellFormed hwf
  simp only [List.all_cons, List.all_nil, Operand.fits, Bool.and_eq_true, decide_eq_true_eq, and_true] at hr
  have hp : ∀ seg ∈ ([(g, 3), (0, 7), (0, 10), (d, 5), (102, 7)] : List (Nat × Nat)), seg.1 < 2 ^ seg.2 := by simp; omega
  have hw : w = packed [(g, 3), (0, 7), (0, 10), (d, 5), (102, 7)] := by
    have e : place 0xcc000000 [(d, 20), (g, 0)] = w := Option.some.inj he
    simp only [place, packed] at e ⊢; omega
  refine ⟨lt_of hw hp rfl, ?_⟩
  show byOpcode (field w 25 7) w = _
  rw [show field w 25 7 = 102 from field_at hw hp 4 rfl]
  show opcode66 (field w 3 7) w = _
  rw [show field w 3 7 = 0 from field_at hw hp 1 rfl]
  show Except.ok (Instr.taskGvt (field w 20 5) (field w 0 3)) = _
  rw [show field w 20 5 = d from field_at hw hp 3 rfl, show field w 0 3 = g from field_at hw hp 0 rfl]

theorem taskTs (d g : Nat) : Statement (.taskTs d g) := by
  intro w hwf he
  have hr : ([.noPort d, .field g 3] : List Operand).all Operand.fits = true := fits_of_wellFormed hwf
  simp only [List.all_cons, List.all_nil, Operand.fits, Bool.and_eq_true, decide_eq_true_eq, and_true] at hr
  have hp : ∀ seg ∈ ([(g, 3), (1, 7), (0, 10), (d, 5), (102, 7)] : List (Nat × Nat)), seg.1 < 2 ^ seg.2 := by simp; omega
  have hw : w = packed [(g, 3), (1, 7), (0, 10), (d, 5), (102, 7)] := by
    have e : place 0xcc000008 [(d, 20), (g, 0)] = w := Option.some.inj he
    simp only [place, packed] at e ⊢; omega
  refine ⟨lt_of hw hp rfl, ?_⟩
  show byOpcode (field w 25 7) w = _
  rw [show field w 25 7 = 102 from field_at hw hp 4 rfl]
  show opcode66 (field w 3 7) w = _
  rw [show field w 3 7 = 1 from field_at hw hp 1 rfl]
  show Except.ok (Instr.taskTs (field w 20 5) (field w 0 3)) = _
  rw [show field w 20 5 = d from field_at hw hp 3 rfl, show field w 0 3 = g from field_at hw hp 0 rfl]

theorem mxma (a b batch acc g : Nat) : Statement (.mxma a b batch acc g) := by
  intro w hwf he
  have hr : ([.tile a 8, .tile b 8, .field batch 2, .field acc 2, .field g 3] : List Operand).all Operand.fits = true := fits_of_wellFormed hwf
  simp only [List.all_cons, List.all_nil, Operand.fits, Bool.and_eq_true, decide_eq_true_eq, and_true] at hr
  have hp : ∀ seg ∈ ([(g, 3), (acc, 2), (batch, 2), (0, 1), (b, 5), (a, 5), (0, 7), (104, 7)] : List (Nat × Nat)), seg.1 < 2 ^ seg.2 := by simp; omega
  have hw : w = packed [(g, 3), (acc, 2), (batch, 2), (0, 1), (b, 5), (a, 5), (0, 7), (104, 7)] := by
    have e : place 0xd0000000 [(a, 13), (b, 8), (batch, 5), (acc, 3), (g, 0)] = w := Option.some.inj he
    simp only [place, packed] at e ⊢; omega
  refine ⟨lt_of hw hp rfl, ?_⟩
  show byOpcode (field w 25 7) w = _
  rw [show field w 25 7 = 104 from field_at hw hp 7 rfl]
  show opcode68 (field w 18 7) w = _
  rw [show field w 18 7 = 0 from field_at hw hp 6 rfl]
  show Except.ok (Instr.mxma (field w 13 5) (field w 8 5) (field w 5 2) (field w 3 2) (field w 0 3)) = _
  rw [show field w 13 5 = a from field_at hw hp 5 rfl, show field w 8 5 = b from field_at hw hp 4 rfl, show field w 5 2 = batch from field_at hw hp 2 rfl, show field w 3 2 = acc from field_at hw hp 1 rfl, show field w 0 3 = g from field_at hw hp 0 rfl]

theorem mxmaZ (a b batch acc g : Nat) : Statement (.mxmaZ a b batch acc g) := by
  intro w hwf he
  have hr : ([.tile a 8, .tile b 8, .field batch 2, .field acc 2, .field g 3] : List Operand).all Operand.fits = true := fits_of_wellFormed hwf
  simp only [List.all_cons, List.all_nil, Operand.fits, Bool.and_eq_true, decide_eq_true_eq, and_true] at hr
  have hp : ∀ seg ∈ ([(g, 3), (acc, 2), (batch, 2), (0, 1), (b, 5), (a, 5), (1, 7), (104, 7)] : List (Nat × Nat)), seg.1 < 2 ^ seg.2 := by simp; omega
  have hw : w = packed [(g, 3), (acc, 2), (batch, 2), (0, 1), (b, 5), (a, 5), (1, 7), (104, 7)] := by
    have e : place 0xd0040000 [(a, 13), (b, 8), (batch, 5), (acc, 3), (g, 0)] = w := Option.some.inj he
    simp only [place, packed] at e ⊢; omega
  refine ⟨lt_of hw hp rfl, ?_⟩
  show byOpcode (field w 25 7) w = _
  rw [show field w 25 7 = 104 from field_at hw hp 7 rfl]
  show opcode68 (field w 18 7) w = _
  rw [show field w 18 7 = 1 from field_at hw hp 6 rfl]
  show Except.ok (Instr.mxmaZ (field w 13 5) (field w 8 5) (field w 5 2) (field w 3 2) (field w 0 3)) = _
  rw [show field w 13 5 = a from field_at hw hp 5 rfl, show field w 8 5 = b from field_at hw hp 4 rfl, show field w 5 2 = batch from field_at hw hp 2 rfl, show field w 3 2 = acc from field_at hw hp 1 rfl, show field w 0 3 = g from field_at hw hp 0 rfl]

theorem mxmas (a b batch acc g : Nat) : Statement (.mxmas a b batch acc g) := by
  intro w hwf he
  have hr : ([.tile a 8, .tile b 8, .field batch 2, .field acc 2, .field g 3] : List Operand).all Operand.fits = true := fits_of_wellFormed hwf
  simp only [List.all_cons, List.all_nil, Operand.fits, Bool.and_eq_true, decide_eq_true_eq, and_true] at hr
  have hp : ∀ seg ∈ ([(g, 3), (acc, 2), (batch, 2), (0, 1), (b, 5), (a, 5), (0, 7), (105, 7)] : List (Nat × Nat)), seg.1 < 2 ^ seg.2 := by simp; omega
  have hw : w = packed [(g, 3), (acc, 2), (batch, 2), (0, 1), (b, 5), (a, 5), (0, 7), (105, 7)] := by
    have e : place 0xd2000000 [(a, 13), (b, 8), (batch, 5), (acc, 3), (g, 0)] = w := Option.some.inj he
    simp only [place, packed] at e ⊢; omega
  refine ⟨lt_of hw hp rfl, ?_⟩
  show byOpcode (field w 25 7) w = _
  rw [show field w 25 7 = 105 from field_at hw hp 7 rfl]
  show opcode69 (field w 18 7) w = _
  rw [show field w 18 7 = 0 from field_at hw hp 6 rfl]
  show Except.ok (Instr.mxmas (field w 13 5) (field w 8 5) (field w 5 2) (field w 3 2) (field w 0 3)) = _
  rw [show field w 13 5 = a from field_at hw hp 5 rfl, show field w 8 5 = b from field_at hw hp 4 rfl, show field w 5 2 = batch from field_at hw hp 2 rfl, show field w 3 2 = acc from field_at hw hp 1 rfl, show field w 0 3 = g from field_at hw hp 0 rfl]

theorem mxmasZ (a b batch acc g : Nat) : Statement (.mxmasZ a b batch acc g) := by
  intro w hwf he
  have hr : ([.tile a 8, .tile b 8, .field batch 2, .field acc 2, .field g 3] : List Operand).all Operand.fits = true := fits_of_wellFormed hwf
  simp only [List.all_cons, List.all_nil, Operand.fits, Bool.and_eq_true, decide_eq_true_eq, and_true] at hr
  have hp : ∀ seg ∈ ([(g, 3), (acc, 2), (batch, 2), (0, 1), (b, 5), (a, 5), (1, 7), (105, 7)] : List (Nat × Nat)), seg.1 < 2 ^ seg.2 := by simp; omega
  have hw : w = packed [(g, 3), (acc, 2), (batch, 2), (0, 1), (b, 5), (a, 5), (1, 7), (105, 7)] := by
    have e : place 0xd2040000 [(a, 13), (b, 8), (batch, 5), (acc, 3), (g, 0)] = w := Option.some.inj he
    simp only [place, packed] at e ⊢; omega
  refine ⟨lt_of hw hp rfl, ?_⟩
  show byOpcode (field w 25 7) w = _
  rw [show field w 25 7 = 105 from field_at hw hp 7 rfl]
  show opcode69 (field w 18 7) w = _
  rw [show field w 18 7 = 1 from field_at hw hp 6 rfl]
  show Except.ok (Instr.mxmasZ (field w 13 5) (field w 8 5) (field w 5 2) (field w 3 2) (field w 0 3)) = _
  rw [show field w 13 5 = a from field_at hw hp 5 rfl, show field w 8 5 = b from field_at hw hp 4 rfl, show field w 5 2 = batch from field_at hw hp 2 rfl, show field w 3 2 = acc from field_at hw hp 1 rfl, show field w 0 3 = g from field_at hw hp 0 rfl]

theorem mxmt (a b batch acc g : Nat) : Statement (.mxmt a b batch acc g) := by
  intro w hwf he
  have hr : ([.tile a 8, .tile b 8, .field batch 2, .field acc 2, .field g 3] : List Operand).all Operand.fits = true := fits_of_wellFormed hwf
  simp only [List.all_cons, List.all_nil, Operand.fits, Bool.and_eq_true, decide_eq_true_eq, and_true] at hr
  have hp : ∀ seg ∈ ([(g, 3), (acc, 2), (batch, 2), (0, 1), (b, 5), (a, 5), (0, 7), (106, 7)] : List (Nat × Nat)), seg.1 < 2 ^ seg.2 := by simp; omega
  have hw : w = packed [(g, 3), (acc, 2), (batch, 2), (0, 1), (b, 5), (a, 5), (0, 7), (106, 7)] := by
    have e : place 0xd4000000 [(a, 13), (b, 8), (batch, 5), (acc, 3), (g, 0)] = w := Option.some.inj he
    simp only [place, packed] at e ⊢; omega
  refine ⟨lt_of hw hp rfl, ?_⟩
  show byOpcode (field w 25 7) w = _
  rw [show field w 25 7 = 106 from field_at hw hp 7 rfl]
  show opcode6a (field w 18 7) w = _
  rw [show field w 18 7 = 0 from field_at hw hp 6 rfl]
  show Except.ok (Instr.mxmt (field w 13 5) (field w 8 5) (field w 5 2) (field w 3 2) (field w 0 3)) = _
  rw [show field w 13 5 = a from field_at hw hp 5 rfl, show field w 8 5 = b from field_at hw hp 4 rfl, show field w 5 2 = batch from field_at hw hp 2 rfl, show field w 3 2 = acc from field_at hw hp 1 rfl, show field w 0 3 = g from field_at hw hp 0 rfl]

theorem mxmtZ (a b batch acc g : Nat) : Statement (.mxmtZ a b batch acc g) := by
  intro w hwf he
  have hr : ([.tile a 8, .tile b 8, .field batch 2, .field acc 2, .field g 3] : List Operand).all Operand.fits = true := fits_of_wellFormed hwf
  simp only [List.all_cons, List.all_nil, Operand.fits, Bool.and_eq_true, decide_eq_true_eq, and_true] at hr
  have hp : ∀ seg ∈ ([(g, 3), (acc, 2), (batch, 2), (0, 1), (b, 5), (a, 5), (1, 7), (106, 7)] : List (Nat × Nat)), seg.1 < 2 ^ seg.2 := by simp; omega
  have hw : w = packed [(g, 3), (acc, 2), (batch, 2), (0, 1), (b, 5), (a, 5), (1, 7), (106, 7)] := by
    have e : place 0xd4040000 [(a, 13), (b, 8), (batch, 5), (acc, 3), (g, 0)] = w := Option.some.inj he
    simp only [place, packed] at e ⊢; omega
  refine ⟨lt_of hw hp rfl, ?_⟩
  show byOpcode (field w 25 7) w = _
  rw [show field w 25 7 = 106 from field_at hw hp 7 rfl]
  show opcode6a (field w 18 7) w = _
  rw [show field w 18 7 = 1 from field_at hw hp 6 rfl]
  show Except.ok (Instr.mxmtZ (field w 13 5) (field w 8 5) (field w 5 2) (field w 3 2) (field w 0 3)) = _
  rw [show field w 13 5 = a from field_at hw hp 5 rfl, show field w 8 5 = b from field_at hw hp 4 rfl, show field w 5 2 = batch from field_at hw hp 2 rfl, show field w 3 2 = acc from field_at hw hp 1 rfl, show field w 0 3 = g from field_at hw hp 0 rfl]

theorem lease (g : Nat) : Statement (.lease g) := by
  intro w hwf he
  have hr : ([.field g 3] : List Operand).all Operand.fits = true := fits_of_wellFormed hwf
  simp only [List.all_cons, List.all_nil, Operand.fits, Bool.and_eq_true, decide_eq_true_eq, and_true] at hr
  have hp : ∀ seg ∈ ([(g, 3), (0, 15), (0, 7), (107, 7)] : List (Nat × Nat)), seg.1 < 2 ^ seg.2 := by simp; omega
  have hw : w = packed [(g, 3), (0, 15), (0, 7), (107, 7)] := by
    have e : place 0xd6000000 [(g, 0)] = w := Option.some.inj he
    simp only [place, packed] at e ⊢; omega
  refine ⟨lt_of hw hp rfl, ?_⟩
  show byOpcode (field w 25 7) w = _
  rw [show field w 25 7 = 107 from field_at hw hp 3 rfl]
  show opcode6b (field w 18 7) w = _
  rw [show field w 18 7 = 0 from field_at hw hp 2 rfl]
  show Except.ok (Instr.lease (field w 0 3)) = _
  rw [show field w 0 3 = g from field_at hw hp 0 rfl]

theorem unlease (g : Nat) : Statement (.unlease g) := by
  intro w hwf he
  have hr : ([.field g 3] : List Operand).all Operand.fits = true := fits_of_wellFormed hwf
  simp only [List.all_cons, List.all_nil, Operand.fits, Bool.and_eq_true, decide_eq_true_eq, and_true] at hr
  have hp : ∀ seg ∈ ([(g, 3), (0, 15), (1, 7), (107, 7)] : List (Nat × Nat)), seg.1 < 2 ^ seg.2 := by simp; omega
  have hw : w = packed [(g, 3), (0, 15), (1, 7), (107, 7)] := by
    have e : place 0xd6040000 [(g, 0)] = w := Option.some.inj he
    simp only [place, packed] at e ⊢; omega
  refine ⟨lt_of hw hp rfl, ?_⟩
  show byOpcode (field w 25 7) w = _
  rw [show field w 25 7 = 107 from field_at hw hp 3 rfl]
  show opcode6b (field w 18 7) w = _
  rw [show field w 18 7 = 1 from field_at hw hp 2 rfl]
  show Except.ok (Instr.unlease (field w 0 3)) = _
  rw [show field w 0 3 = g from field_at hw hp 0 rfl]

theorem mxwaitb (batch g : Nat) : Statement (.mxwaitb batch g) := by
  intro w hwf he
  have hr : ([.field batch 2, .field g 3] : List Operand).all Operand.fits = true := fits_of_wellFormed hwf
  simp only [List.all_cons, List.all_nil, Operand.fits, Bool.and_eq_true, decide_eq_true_eq, and_true] at hr
  have hp : ∀ seg ∈ ([(g, 3), (0, 2), (batch, 2), (0, 11), (2, 7), (107, 7)] : List (Nat × Nat)), seg.1 < 2 ^ seg.2 := by simp; omega
  have hw : w = packed [(g, 3), (0, 2), (batch, 2), (0, 11), (2, 7), (107, 7)] := by
    have e : place 0xd6080000 [(batch, 5), (g, 0)] = w := Option.some.inj he
    simp only [place, packed] at e ⊢; omega
  refine ⟨lt_of hw hp rfl, ?_⟩
  show byOpcode (field w 25 7) w = _
  rw [show field w 25 7 = 107 from field_at hw hp 5 rfl]
  show opcode6b (field w 18 7) w = _
  rw [show field w 18 7 = 2 from field_at hw hp 4 rfl]
  show Except.ok (Instr.mxwaitb (field w 5 2) (field w 0 3)) = _
  rw [show field w 5 2 = batch from field_at hw hp 2 rfl, show field w 0 3 = g from field_at hw hp 0 rfl]

theorem tld (t b g : Nat) : Statement (.tld t b g) := by
  intro w hwf he
  have hr : ([.tile t 12, .source b, .field g 3] : List Operand).all Operand.fits = true := fits_of_wellFormed hwf
  simp only [List.all_cons, List.all_nil, Operand.fits, Bool.and_eq_true, decide_eq_true_eq, and_true] at hr
  have hp : ∀ seg ∈ ([(g, 3), (0, 5), (b, 5), (t, 5), (0, 7), (108, 7)] : List (Nat × Nat)), seg.1 < 2 ^ seg.2 := by simp; omega
  have hw : w = packed [(g, 3), (0, 5), (b, 5), (t, 5), (0, 7), (108, 7)] := by
    have e : place 0xd8000000 [(t, 13), (b, 8), (g, 0)] = w := Option.some.inj he
    simp only [place, packed] at e ⊢; omega
  refine ⟨lt_of hw hp rfl, ?_⟩
  show byOpcode (field w 25 7) w = _
  rw [show field w 25 7 = 108 from field_at hw hp 5 rfl]
  show opcode6c (field w 18 7) w = _
  rw [show field w 18 7 = 0 from field_at hw hp 4 rfl]
  show Except.ok (Instr.tld (field w 13 5) (field w 8 5) (field w 0 3)) = _
  rw [show field w 13 5 = t from field_at hw hp 3 rfl, show field w 8 5 = b from field_at hw hp 2 rfl, show field w 0 3 = g from field_at hw hp 0 rfl]

theorem tst (t b g : Nat) : Statement (.tst t b g) := by
  intro w hwf he
  have hr : ([.tile t 12, .source b, .field g 3] : List Operand).all Operand.fits = true := fits_of_wellFormed hwf
  simp only [List.all_cons, List.all_nil, Operand.fits, Bool.and_eq_true, decide_eq_true_eq, and_true] at hr
  have hp : ∀ seg ∈ ([(g, 3), (0, 5), (b, 5), (t, 5), (1, 7), (108, 7)] : List (Nat × Nat)), seg.1 < 2 ^ seg.2 := by simp; omega
  have hw : w = packed [(g, 3), (0, 5), (b, 5), (t, 5), (1, 7), (108, 7)] := by
    have e : place 0xd8040000 [(t, 13), (b, 8), (g, 0)] = w := Option.some.inj he
    simp only [place, packed] at e ⊢; omega
  refine ⟨lt_of hw hp rfl, ?_⟩
  show byOpcode (field w 25 7) w = _
  rw [show field w 25 7 = 108 from field_at hw hp 5 rfl]
  show opcode6c (field w 18 7) w = _
  rw [show field w 18 7 = 1 from field_at hw hp 4 rfl]
  show Except.ok (Instr.tst (field w 13 5) (field w 8 5) (field w 0 3)) = _
  rw [show field w 13 5 = t from field_at hw hp 3 rfl, show field w 8 5 = b from field_at hw hp 2 rfl, show field w 0 3 = g from field_at hw hp 0 rfl]

theorem tzero (t g : Nat) : Statement (.tzero t g) := by
  intro w hwf he
  have hr : ([.tile t 12, .field g 3] : List Operand).all Operand.fits = true := fits_of_wellFormed hwf
  simp only [List.all_cons, List.all_nil, Operand.fits, Bool.and_eq_true, decide_eq_true_eq, and_true] at hr
  have hp : ∀ seg ∈ ([(g, 3), (0, 10), (t, 5), (2, 7), (108, 7)] : List (Nat × Nat)), seg.1 < 2 ^ seg.2 := by simp; omega
  have hw : w = packed [(g, 3), (0, 10), (t, 5), (2, 7), (108, 7)] := by
    have e : place 0xd8080000 [(t, 13), (g, 0)] = w := Option.some.inj he
    simp only [place, packed] at e ⊢; omega
  refine ⟨lt_of hw hp rfl, ?_⟩
  show byOpcode (field w 25 7) w = _
  rw [show field w 25 7 = 108 from field_at hw hp 4 rfl]
  show opcode6c (field w 18 7) w = _
  rw [show field w 18 7 = 2 from field_at hw hp 3 rfl]
  show Except.ok (Instr.tzero (field w 13 5) (field w 0 3)) = _
  rw [show field w 13 5 = t from field_at hw hp 2 rfl, show field w 0 3 = g from field_at hw hp 0 rfl]

theorem twaitc (t g : Nat) : Statement (.twaitc t g) := by
  intro w hwf he
  have hr : ([.tile t 8, .field g 3] : List Operand).all Operand.fits = true := fits_of_wellFormed hwf
  simp only [List.all_cons, List.all_nil, Operand.fits, Bool.and_eq_true, decide_eq_true_eq, and_true] at hr
  have hp : ∀ seg ∈ ([(g, 3), (0, 10), (t, 5), (3, 7), (108, 7)] : List (Nat × Nat)), seg.1 < 2 ^ seg.2 := by simp; omega
  have hw : w = packed [(g, 3), (0, 10), (t, 5), (3, 7), (108, 7)] := by
    have e : place 0xd80c0000 [(t, 13), (g, 0)] = w := Option.some.inj he
    simp only [place, packed] at e ⊢; omega
  refine ⟨lt_of hw hp rfl, ?_⟩
  show byOpcode (field w 25 7) w = _
  rw [show field w 25 7 = 108 from field_at hw hp 4 rfl]
  show opcode6c (field w 18 7) w = _
  rw [show field w 18 7 = 3 from field_at hw hp 3 rfl]
  show Except.ok (Instr.twaitc (field w 13 5) (field w 0 3)) = _
  rw [show field w 13 5 = t from field_at hw hp 2 rfl, show field w 0 3 = g from field_at hw hp 0 rfl]

theorem qnt (t b g : Nat) : Statement (.qnt t b g) := by
  intro w hwf he
  have hr : ([.tile t 8, .source b, .field g 3] : List Operand).all Operand.fits = true := fits_of_wellFormed hwf
  simp only [List.all_cons, List.all_nil, Operand.fits, Bool.and_eq_true, decide_eq_true_eq, and_true] at hr
  have hp : ∀ seg ∈ ([(g, 3), (0, 5), (b, 5), (t, 5), (0, 7), (109, 7)] : List (Nat × Nat)), seg.1 < 2 ^ seg.2 := by simp; omega
  have hw : w = packed [(g, 3), (0, 5), (b, 5), (t, 5), (0, 7), (109, 7)] := by
    have e : place 0xda000000 [(t, 13), (b, 8), (g, 0)] = w := Option.some.inj he
    simp only [place, packed] at e ⊢; omega
  refine ⟨lt_of hw hp rfl, ?_⟩
  show byOpcode (field w 25 7) w = _
  rw [show field w 25 7 = 109 from field_at hw hp 5 rfl]
  show opcode6d (field w 18 7) w = _
  rw [show field w 18 7 = 0 from field_at hw hp 4 rfl]
  show Except.ok (Instr.qnt (field w 13 5) (field w 8 5) (field w 0 3)) = _
  rw [show field w 13 5 = t from field_at hw hp 3 rfl, show field w 8 5 = b from field_at hw hp 2 rfl, show field w 0 3 = g from field_at hw hp 0 rfl]

theorem dqnt (t b g : Nat) : Statement (.dqnt t b g) := by
  intro w hwf he
  have hr : ([.tile t 8, .source b, .field g 3] : List Operand).all Operand.fits = true := fits_of_wellFormed hwf
  simp only [List.all_cons, List.all_nil, Operand.fits, Bool.and_eq_true, decide_eq_true_eq, and_true] at hr
  have hp : ∀ seg ∈ ([(g, 3), (0, 5), (b, 5), (t, 5), (0, 7), (110, 7)] : List (Nat × Nat)), seg.1 < 2 ^ seg.2 := by simp; omega
  have hw : w = packed [(g, 3), (0, 5), (b, 5), (t, 5), (0, 7), (110, 7)] := by
    have e : place 0xdc000000 [(t, 13), (b, 8), (g, 0)] = w := Option.some.inj he
    simp only [place, packed] at e ⊢; omega
  refine ⟨lt_of hw hp rfl, ?_⟩
  show byOpcode (field w 25 7) w = _
  rw [show field w 25 7 = 110 from field_at hw hp 5 rfl]
  show opcode6e (field w 18 7) w = _
  rw [show field w 18 7 = 0 from field_at hw hp 4 rfl]
  show Except.ok (Instr.dqnt (field w 13 5) (field w 8 5) (field w 0 3)) = _
  rw [show field w 13 5 = t from field_at hw hp 3 rfl, show field w 8 5 = b from field_at hw hp 2 rfl, show field w 0 3 = g from field_at hw hp 0 rfl]

theorem isect (a b g : Nat) : Statement (.isect a b g) := by
  intro w hwf he
  have hr : ([.noPort a, .noPort b, .field g 3] : List Operand).all Operand.fits = true := fits_of_wellFormed hwf
  simp only [List.all_cons, List.all_nil, Operand.fits, Bool.and_eq_true, decide_eq_true_eq, and_true] at hr
  have hp : ∀ seg ∈ ([(g, 3), (0, 5), (b, 5), (a, 5), (0, 7), (111, 7)] : List (Nat × Nat)), seg.1 < 2 ^ seg.2 := by simp; omega
  have hw : w = packed [(g, 3), (0, 5), (b, 5), (a, 5), (0, 7), (111, 7)] := by
    have e : place 0xde000000 [(a, 13), (b, 8), (g, 0)] = w := Option.some.inj he
    simp only [place, packed] at e ⊢; omega
  refine ⟨lt_of hw hp rfl, ?_⟩
  show byOpcode (field w 25 7) w = _
  rw [show field w 25 7 = 111 from field_at hw hp 5 rfl]
  show opcode6f (field w 18 7) w = _
  rw [show field w 18 7 = 0 from field_at hw hp 4 rfl]
  show Except.ok (Instr.isect (field w 13 5) (field w 8 5) (field w 0 3)) = _
  rw [show field w 13 5 = a from field_at hw hp 3 rfl, show field w 8 5 = b from field_at hw hp 2 rfl, show field w 0 3 = g from field_at hw hp 0 rfl]

theorem part (a b g : Nat) : Statement (.part a b g) := by
  intro w hwf he
  have hr : ([.noPort a, .noPort b, .field g 3] : List Operand).all Operand.fits = true := fits_of_wellFormed hwf
  simp only [List.all_cons, List.all_nil, Operand.fits, Bool.and_eq_true, decide_eq_true_eq, and_true] at hr
  have hp : ∀ seg ∈ ([(g, 3), (0, 5), (b, 5), (a, 5), (1, 7), (111, 7)] : List (Nat × Nat)), seg.1 < 2 ^ seg.2 := by simp; omega
  have hw : w = packed [(g, 3), (0, 5), (b, 5), (a, 5), (1, 7), (111, 7)] := by
    have e : place 0xde040000 [(a, 13), (b, 8), (g, 0)] = w := Option.some.inj he
    simp only [place, packed] at e ⊢; omega
  refine ⟨lt_of hw hp rfl, ?_⟩
  show byOpcode (field w 25 7) w = _
  rw [show field w 25 7 = 111 from field_at hw hp 5 rfl]
  show opcode6f (field w 18 7) w = _
  rw [show field w 18 7 = 1 from field_at hw hp 4 rfl]
  show Except.ok (Instr.part (field w 13 5) (field w 8 5) (field w 0 3)) = _
  rw [show field w 13 5 = a from field_at hw hp 3 rfl, show field w 8 5 = b from field_at hw hp 2 rfl, show field w 0 3 = g from field_at hw hp 0 rfl]

theorem bmpackP (a b g : Nat) : Statement (.bmpackP a b g) := by
  intro w hwf he
  have hr : ([.noPort a, .noPort b, .field g 3] : List Operand).all Operand.fits = true := fits_of_wellFormed hwf
  simp only [List.all_cons, List.all_nil, Operand.fits, Bool.and_eq_true, decide_eq_true_eq, and_true] at hr
  have hp : ∀ seg ∈ ([(g, 3), (0, 5), (b, 5), (a, 5), (2, 7), (111, 7)] : List (Nat × Nat)), seg.1 < 2 ^ seg.2 := by simp; omega
  have hw : w = packed [(g, 3), (0, 5), (b, 5), (a, 5), (2, 7), (111, 7)] := by
    have e : place 0xde080000 [(a, 13), (b, 8), (g, 0)] = w := Option.some.inj he
    simp only [place, packed] at e ⊢; omega
  refine ⟨lt_of hw hp rfl, ?_⟩
  show byOpcode (field w 25 7) w = _
  rw [show field w 25 7 = 111 from field_at hw hp 5 rfl]
  show opcode6f (field w 18 7) w = _
  rw [show field w 18 7 = 2 from field_at hw hp 4 rfl]
  have c0 : field w 13 5 = a := field_at hw hp 3 rfl
  have c1 : field w 8 5 = b := field_at hw hp 2 rfl
  have c2 : field w 0 3 = g := field_at hw hp 0 rfl
  have c3 : field w 3 5 = 0 := field_at hw hp 1 rfl
  simp [opcode6f, c0, c1, c2, c3]

theorem bmpackX (a b g : Nat) : Statement (.bmpackX a b g) := by
  intro w hwf he
  have hr : ([.noPort a, .noPort b, .field g 3] : List Operand).all Operand.fits = true := fits_of_wellFormed hwf
  simp only [List.all_cons, List.all_nil, Operand.fits, Bool.and_eq_true, decide_eq_true_eq, and_true] at hr
  have hp : ∀ seg ∈ ([(g, 3), (1, 5), (b, 5), (a, 5), (2, 7), (111, 7)] : List (Nat × Nat)), seg.1 < 2 ^ seg.2 := by simp; omega
  have hw : w = packed [(g, 3), (1, 5), (b, 5), (a, 5), (2, 7), (111, 7)] := by
    have e : place 0xde080008 [(a, 13), (b, 8), (g, 0)] = w := Option.some.inj he
    simp only [place, packed] at e ⊢; omega
  refine ⟨lt_of hw hp rfl, ?_⟩
  show byOpcode (field w 25 7) w = _
  rw [show field w 25 7 = 111 from field_at hw hp 5 rfl]
  show opcode6f (field w 18 7) w = _
  rw [show field w 18 7 = 2 from field_at hw hp 4 rfl]
  have c0 : field w 13 5 = a := field_at hw hp 3 rfl
  have c1 : field w 8 5 = b := field_at hw hp 2 rfl
  have c2 : field w 0 3 = g := field_at hw hp 0 rfl
  have c3 : field w 3 5 = 1 := field_at hw hp 1 rfl
  simp [opcode6f, c0, c1, c2, c3]

theorem bmpackC (a b g : Nat) : Statement (.bmpackC a b g) := by
  intro w hwf he
  have hr : ([.noPort a, .noPort b, .field g 3] : List Operand).all Operand.fits = true := fits_of_wellFormed hwf
  simp only [List.all_cons, List.all_nil, Operand.fits, Bool.and_eq_true, decide_eq_true_eq, and_true] at hr
  have hp : ∀ seg ∈ ([(g, 3), (2, 5), (b, 5), (a, 5), (2, 7), (111, 7)] : List (Nat × Nat)), seg.1 < 2 ^ seg.2 := by simp; omega
  have hw : w = packed [(g, 3), (2, 5), (b, 5), (a, 5), (2, 7), (111, 7)] := by
    have e : place 0xde080010 [(a, 13), (b, 8), (g, 0)] = w := Option.some.inj he
    simp only [place, packed] at e ⊢; omega
  refine ⟨lt_of hw hp rfl, ?_⟩
  show byOpcode (field w 25 7) w = _
  rw [show field w 25 7 = 111 from field_at hw hp 5 rfl]
  show opcode6f (field w 18 7) w = _
  rw [show field w 18 7 = 2 from field_at hw hp 4 rfl]
  have c0 : field w 13 5 = a := field_at hw hp 3 rfl
  have c1 : field w 8 5 = b := field_at hw hp 2 rfl
  have c2 : field w 0 3 = g := field_at hw hp 0 rfl
  have c3 : field w 3 5 = 2 := field_at hw hp 1 rfl
  simp [opcode6f, c0, c1, c2, c3]

theorem bmpackCt (a b g : Nat) : Statement (.bmpackCt a b g) := by
  intro w hwf he
  have hr : ([.noPort a, .noPort b, .field g 3] : List Operand).all Operand.fits = true := fits_of_wellFormed hwf
  simp only [List.all_cons, List.all_nil, Operand.fits, Bool.and_eq_true, decide_eq_true_eq, and_true] at hr
  have hp : ∀ seg ∈ ([(g, 3), (3, 5), (b, 5), (a, 5), (2, 7), (111, 7)] : List (Nat × Nat)), seg.1 < 2 ^ seg.2 := by simp; omega
  have hw : w = packed [(g, 3), (3, 5), (b, 5), (a, 5), (2, 7), (111, 7)] := by
    have e : place 0xde080018 [(a, 13), (b, 8), (g, 0)] = w := Option.some.inj he
    simp only [place, packed] at e ⊢; omega
  refine ⟨lt_of hw hp rfl, ?_⟩
  show byOpcode (field w 25 7) w = _
  rw [show field w 25 7 = 111 from field_at hw hp 5 rfl]
  show opcode6f (field w 18 7) w = _
  rw [show field w 18 7 = 2 from field_at hw hp 4 rfl]
  have c0 : field w 13 5 = a := field_at hw hp 3 rfl
  have c1 : field w 8 5 = b := field_at hw hp 2 rfl
  have c2 : field w 0 3 = g := field_at hw hp 0 rfl
  have c3 : field w 3 5 = 3 := field_at hw hp 1 rfl
  simp [opcode6f, c0, c1, c2, c3]

theorem prune (a b m g : Nat) : Statement (.prune a b m g) := by
  intro w hwf he
  have hr : ([.noPort a, .noPort b, .field m 5, .field g 3] : List Operand).all Operand.fits = true := fits_of_wellFormed hwf
  simp only [List.all_cons, List.all_nil, Operand.fits, Bool.and_eq_true, decide_eq_true_eq, and_true] at hr
  have hp : ∀ seg ∈ ([(g, 3), (m, 5), (b, 5), (a, 5), (0, 7), (112, 7)] : List (Nat × Nat)), seg.1 < 2 ^ seg.2 := by simp; omega
  have hw : w = packed [(g, 3), (m, 5), (b, 5), (a, 5), (0, 7), (112, 7)] := by
    have e : place 0xe0000000 [(a, 13), (b, 8), (m, 3), (g, 0)] = w := Option.some.inj he
    simp only [place, packed] at e ⊢; omega
  refine ⟨lt_of hw hp rfl, ?_⟩
  show byOpcode (field w 25 7) w = _
  rw [show field w 25 7 = 112 from field_at hw hp 5 rfl]
  show opcode70 (field w 18 7) w = _
  rw [show field w 18 7 = 0 from field_at hw hp 4 rfl]
  show Except.ok (Instr.prune (field w 13 5) (field w 8 5) (field w 3 5) (field w 0 3)) = _
  rw [show field w 13 5 = a from field_at hw hp 3 rfl, show field w 8 5 = b from field_at hw hp 2 rfl, show field w 3 5 = m from field_at hw hp 1 rfl, show field w 0 3 = g from field_at hw hp 0 rfl]

theorem msearch (a b g : Nat) : Statement (.msearch a b g) := by
  intro w hwf he
  have hr : ([.noPort a, .noPort b, .field g 3] : List Operand).all Operand.fits = true := fits_of_wellFormed hwf
  simp only [List.all_cons, List.all_nil, Operand.fits, Bool.and_eq_true, decide_eq_true_eq, and_true] at hr
  have hp : ∀ seg ∈ ([(g, 3), (0, 5), (b, 5), (a, 5), (1, 7), (112, 7)] : List (Nat × Nat)), seg.1 < 2 ^ seg.2 := by simp; omega
  have hw : w = packed [(g, 3), (0, 5), (b, 5), (a, 5), (1, 7), (112, 7)] := by
    have e : place 0xe0040000 [(a, 13), (b, 8), (g, 0)] = w := Option.some.inj he
    simp only [place, packed] at e ⊢; omega
  refine ⟨lt_of hw hp rfl, ?_⟩
  show byOpcode (field w 25 7) w = _
  rw [show field w 25 7 = 112 from field_at hw hp 5 rfl]
  show opcode70 (field w 18 7) w = _
  rw [show field w 18 7 = 1 from field_at hw hp 4 rfl]
  show Except.ok (Instr.msearch (field w 13 5) (field w 8 5) (field w 0 3)) = _
  rw [show field w 13 5 = a from field_at hw hp 3 rfl, show field w 8 5 = b from field_at hw hp 2 rfl, show field w 0 3 = g from field_at hw hp 0 rfl]

theorem apass (a g : Nat) : Statement (.apass a g) := by
  intro w hwf he
  have hr : ([.noPort a, .field g 3] : List Operand).all Operand.fits = true := fits_of_wellFormed hwf
  simp only [List.all_cons, List.all_nil, Operand.fits, Bool.and_eq_true, decide_eq_true_eq, and_true] at hr
  have hp : ∀ seg ∈ ([(g, 3), (0, 10), (a, 5), (0, 7), (113, 7)] : List (Nat × Nat)), seg.1 < 2 ^ seg.2 := by simp; omega
  have hw : w = packed [(g, 3), (0, 10), (a, 5), (0, 7), (113, 7)] := by
    have e : place 0xe2000000 [(a, 13), (g, 0)] = w := Option.some.inj he
    simp only [place, packed] at e ⊢; omega
  refine ⟨lt_of hw hp rfl, ?_⟩
  show byOpcode (field w 25 7) w = _
  rw [show field w 25 7 = 113 from field_at hw hp 4 rfl]
  show opcode71 (field w 18 7) w = _
  rw [show field w 18 7 = 0 from field_at hw hp 3 rfl]
  show Except.ok (Instr.apass (field w 13 5) (field w 0 3)) = _
  rw [show field w 13 5 = a from field_at hw hp 2 rfl, show field w 0 3 = g from field_at hw hp 0 rfl]

theorem asub (a b g : Nat) : Statement (.asub a b g) := by
  intro w hwf he
  have hr : ([.noPort a, .noPort b, .field g 3] : List Operand).all Operand.fits = true := fits_of_wellFormed hwf
  simp only [List.all_cons, List.all_nil, Operand.fits, Bool.and_eq_true, decide_eq_true_eq, and_true] at hr
  have hp : ∀ seg ∈ ([(g, 3), (0, 5), (b, 5), (a, 5), (1, 7), (113, 7)] : List (Nat × Nat)), seg.1 < 2 ^ seg.2 := by simp; omega
  have hw : w = packed [(g, 3), (0, 5), (b, 5), (a, 5), (1, 7), (113, 7)] := by
    have e : place 0xe2040000 [(a, 13), (b, 8), (g, 0)] = w := Option.some.inj he
    simp only [place, packed] at e ⊢; omega
  refine ⟨lt_of hw hp rfl, ?_⟩
  show byOpcode (field w 25 7) w = _
  rw [show field w 25 7 = 113 from field_at hw hp 5 rfl]
  show opcode71 (field w 18 7) w = _
  rw [show field w 18 7 = 1 from field_at hw hp 4 rfl]
  have c0 : field w 13 5 = a := field_at hw hp 3 rfl
  have c1 : field w 8 5 = b := field_at hw hp 2 rfl
  have c2 : field w 0 3 = g := field_at hw hp 0 rfl
  have c3 : field w 3 5 = 0 := field_at hw hp 1 rfl
  simp [opcode71, c0, c1, c2, c3]

theorem asubNd (a b g : Nat) : Statement (.asubNd a b g) := by
  intro w hwf he
  have hr : ([.noPort a, .noPort b, .field g 3] : List Operand).all Operand.fits = true := fits_of_wellFormed hwf
  simp only [List.all_cons, List.all_nil, Operand.fits, Bool.and_eq_true, decide_eq_true_eq, and_true] at hr
  have hp : ∀ seg ∈ ([(g, 3), (1, 5), (b, 5), (a, 5), (1, 7), (113, 7)] : List (Nat × Nat)), seg.1 < 2 ^ seg.2 := by simp; omega
  have hw : w = packed [(g, 3), (1, 5), (b, 5), (a, 5), (1, 7), (113, 7)] := by
    have e : place 0xe2040008 [(a, 13), (b, 8), (g, 0)] = w := Option.some.inj he
    simp only [place, packed] at e ⊢; omega
  refine ⟨lt_of hw hp rfl, ?_⟩
  show byOpcode (field w 25 7) w = _
  rw [show field w 25 7 = 113 from field_at hw hp 5 rfl]
  show opcode71 (field w 18 7) w = _
  rw [show field w 18 7 = 1 from field_at hw hp 4 rfl]
  have c0 : field w 13 5 = a := field_at hw hp 3 rfl
  have c1 : field w 8 5 = b := field_at hw hp 2 rfl
  have c2 : field w 0 3 = g := field_at hw hp 0 rfl
  have c3 : field w 3 5 = 1 := field_at hw hp 1 rfl
  simp [opcode71, c0, c1, c2, c3]

theorem aunsub (a b g : Nat) : Statement (.aunsub a b g) := by
  intro w hwf he
  have hr : ([.noPort a, .noPort b, .field g 3] : List Operand).all Operand.fits = true := fits_of_wellFormed hwf
  simp only [List.all_cons, List.all_nil, Operand.fits, Bool.and_eq_true, decide_eq_true_eq, and_true] at hr
  have hp : ∀ seg ∈ ([(g, 3), (0, 5), (b, 5), (a, 5), (2, 7), (113, 7)] : List (Nat × Nat)), seg.1 < 2 ^ seg.2 := by simp; omega
  have hw : w = packed [(g, 3), (0, 5), (b, 5), (a, 5), (2, 7), (113, 7)] := by
    have e : place 0xe2080000 [(a, 13), (b, 8), (g, 0)] = w := Option.some.inj he
    simp only [place, packed] at e ⊢; omega
  refine ⟨lt_of hw hp rfl, ?_⟩
  show byOpcode (field w 25 7) w = _
  rw [show field w 25 7 = 113 from field_at hw hp 5 rfl]
  show opcode71 (field w 18 7) w = _
  rw [show field w 18 7 = 2 from field_at hw hp 4 rfl]
  show Except.ok (Instr.aunsub (field w 13 5) (field w 8 5) (field w 0 3)) = _
  rw [show field w 13 5 = a from field_at hw hp 3 rfl, show field w 8 5 = b from field_at hw hp 2 rfl, show field w 0 3 = g from field_at hw hp 0 rfl]

theorem trayput (a b g : Nat) : Statement (.trayput a b g) := by
  intro w hwf he
  have hr : ([.noPort a, .noPort b, .field g 3] : List Operand).all Operand.fits = true := fits_of_wellFormed hwf
  simp only [List.all_cons, List.all_nil, Operand.fits, Bool.and_eq_true, decide_eq_true_eq, and_true] at hr
  have hp : ∀ seg ∈ ([(g, 3), (0, 5), (b, 5), (a, 5), (3, 7), (113, 7)] : List (Nat × Nat)), seg.1 < 2 ^ seg.2 := by simp; omega
  have hw : w = packed [(g, 3), (0, 5), (b, 5), (a, 5), (3, 7), (113, 7)] := by
    have e : place 0xe20c0000 [(a, 13), (b, 8), (g, 0)] = w := Option.some.inj he
    simp only [place, packed] at e ⊢; omega
  refine ⟨lt_of hw hp rfl, ?_⟩
  show byOpcode (field w 25 7) w = _
  rw [show field w 25 7 = 113 from field_at hw hp 5 rfl]
  show opcode71 (field w 18 7) w = _
  rw [show field w 18 7 = 3 from field_at hw hp 4 rfl]
  show Except.ok (Instr.trayput (field w 13 5) (field w 8 5) (field w 0 3)) = _
  rw [show field w 13 5 = a from field_at hw hp 3 rfl, show field w 8 5 = b from field_at hw hp 2 rfl, show field w 0 3 = g from field_at hw hp 0 rfl]

theorem trayget (a b g : Nat) : Statement (.trayget a b g) := by
  intro w hwf he
  have hr : ([.noPort a, .noPort b, .field g 3] : List Operand).all Operand.fits = true := fits_of_wellFormed hwf
  simp only [List.all_cons, List.all_nil, Operand.fits, Bool.and_eq_true, decide_eq_true_eq, and_true] at hr
  have hp : ∀ seg ∈ ([(g, 3), (0, 5), (b, 5), (a, 5), (4, 7), (113, 7)] : List (Nat × Nat)), seg.1 < 2 ^ seg.2 := by simp; omega
  have hw : w = packed [(g, 3), (0, 5), (b, 5), (a, 5), (4, 7), (113, 7)] := by
    have e : place 0xe2100000 [(a, 13), (b, 8), (g, 0)] = w := Option.some.inj he
    simp only [place, packed] at e ⊢; omega
  refine ⟨lt_of hw hp rfl, ?_⟩
  show byOpcode (field w 25 7) w = _
  rw [show field w 25 7 = 113 from field_at hw hp 5 rfl]
  show opcode71 (field w 18 7) w = _
  rw [show field w 18 7 = 4 from field_at hw hp 4 rfl]
  show Except.ok (Instr.trayget (field w 13 5) (field w 8 5) (field w 0 3)) = _
  rw [show field w 13 5 = a from field_at hw hp 3 rfl, show field w 8 5 = b from field_at hw hp 2 rfl, show field w 0 3 = g from field_at hw hp 0 rfl]

theorem aclose (a g : Nat) : Statement (.aclose a g) := by
  intro w hwf he
  have hr : ([.noPort a, .field g 3] : List Operand).all Operand.fits = true := fits_of_wellFormed hwf
  simp only [List.all_cons, List.all_nil, Operand.fits, Bool.and_eq_true, decide_eq_true_eq, and_true] at hr
  have hp : ∀ seg ∈ ([(g, 3), (0, 10), (a, 5), (5, 7), (113, 7)] : List (Nat × Nat)), seg.1 < 2 ^ seg.2 := by simp; omega
  have hw : w = packed [(g, 3), (0, 10), (a, 5), (5, 7), (113, 7)] := by
    have e : place 0xe2140000 [(a, 13), (g, 0)] = w := Option.some.inj he
    simp only [place, packed] at e ⊢; omega
  refine ⟨lt_of hw hp rfl, ?_⟩
  show byOpcode (field w 25 7) w = _
  rw [show field w 25 7 = 113 from field_at hw hp 4 rfl]
  show opcode71 (field w 18 7) w = _
  rw [show field w 18 7 = 5 from field_at hw hp 3 rfl]
  show Except.ok (Instr.aclose (field w 13 5) (field w 0 3)) = _
  rw [show field w 13 5 = a from field_at hw hp 2 rfl, show field w 0 3 = g from field_at hw hp 0 rfl]

theorem trec (a g : Nat) : Statement (.trec a g) := by
  intro w hwf he
  have hr : ([.noPort a, .field g 3] : List Operand).all Operand.fits = true := fits_of_wellFormed hwf
  simp only [List.all_cons, List.all_nil, Operand.fits, Bool.and_eq_true, decide_eq_true_eq, and_true] at hr
  have hp : ∀ seg ∈ ([(g, 3), (0, 10), (a, 5), (0, 7), (114, 7)] : List (Nat × Nat)), seg.1 < 2 ^ seg.2 := by simp; omega
  have hw : w = packed [(g, 3), (0, 10), (a, 5), (0, 7), (114, 7)] := by
    have e : place 0xe4000000 [(a, 13), (g, 0)] = w := Option.some.inj he
    simp only [place, packed] at e ⊢; omega
  refine ⟨lt_of hw hp rfl, ?_⟩
  show byOpcode (field w 25 7) w = _
  rw [show field w 25 7 = 114 from field_at hw hp 4 rfl]
  show opcode72 (field w 18 7) w = _
  rw [show field w 18 7 = 0 from field_at hw hp 3 rfl]
  show Except.ok (Instr.trec (field w 13 5) (field w 0 3)) = _
  rw [show field w 13 5 = a from field_at hw hp 2 rfl, show field w 0 3 = g from field_at hw hp 0 rfl]

theorem tend (g : Nat) : Statement (.tend g) := by
  intro w hwf he
  have hr : ([.field g 3] : List Operand).all Operand.fits = true := fits_of_wellFormed hwf
  simp only [List.all_cons, List.all_nil, Operand.fits, Bool.and_eq_true, decide_eq_true_eq, and_true] at hr
  have hp : ∀ seg ∈ ([(g, 3), (0, 15), (1, 7), (114, 7)] : List (Nat × Nat)), seg.1 < 2 ^ seg.2 := by simp; omega
  have hw : w = packed [(g, 3), (0, 15), (1, 7), (114, 7)] := by
    have e : place 0xe4040000 [(g, 0)] = w := Option.some.inj he
    simp only [place, packed] at e ⊢; omega
  refine ⟨lt_of hw hp rfl, ?_⟩
  show byOpcode (field w 25 7) w = _
  rw [show field w 25 7 = 114 from field_at hw hp 3 rfl]
  show opcode72 (field w 18 7) w = _
  rw [show field w 18 7 = 1 from field_at hw hp 2 rfl]
  show Except.ok (Instr.tend (field w 0 3)) = _
  rw [show field w 0 3 = g from field_at hw hp 0 rfl]

theorem treplay (a b g : Nat) : Statement (.treplay a b g) := by
  intro w hwf he
  have hr : ([.noPort a, .noPort b, .field g 3] : List Operand).all Operand.fits = true := fits_of_wellFormed hwf
  simp only [List.all_cons, List.all_nil, Operand.fits, Bool.and_eq_true, decide_eq_true_eq, and_true] at hr
  have hp : ∀ seg ∈ ([(g, 3), (0, 5), (b, 5), (a, 5), (2, 7), (114, 7)] : List (Nat × Nat)), seg.1 < 2 ^ seg.2 := by simp; omega
  have hw : w = packed [(g, 3), (0, 5), (b, 5), (a, 5), (2, 7), (114, 7)] := by
    have e : place 0xe4080000 [(a, 13), (b, 8), (g, 0)] = w := Option.some.inj he
    simp only [place, packed] at e ⊢; omega
  refine ⟨lt_of hw hp rfl, ?_⟩
  show byOpcode (field w 25 7) w = _
  rw [show field w 25 7 = 114 from field_at hw hp 5 rfl]
  show opcode72 (field w 18 7) w = _
  rw [show field w 18 7 = 2 from field_at hw hp 4 rfl]
  show Except.ok (Instr.treplay (field w 13 5) (field w 8 5) (field w 0 3)) = _
  rw [show field w 13 5 = a from field_at hw hp 3 rfl, show field w 8 5 = b from field_at hw hp 2 rfl, show field w 0 3 = g from field_at hw hp 0 rfl]

theorem tpatchA (a g : Nat) : Statement (.tpatchA a g) := by
  intro w hwf he
  have hr : ([.noPort a, .field g 3] : List Operand).all Operand.fits = true := fits_of_wellFormed hwf
  simp only [List.all_cons, List.all_nil, Operand.fits, Bool.and_eq_true, decide_eq_true_eq, and_true] at hr
  have hp : ∀ seg ∈ ([(g, 3), (0, 5), (0, 5), (a, 5), (3, 7), (114, 7)] : List (Nat × Nat)), seg.1 < 2 ^ seg.2 := by simp; omega
  have hw : w = packed [(g, 3), (0, 5), (0, 5), (a, 5), (3, 7), (114, 7)] := by
    have e : place 0xe40c0000 [(a, 13), (g, 0)] = w := Option.some.inj he
    simp only [place, packed] at e ⊢; omega
  refine ⟨lt_of hw hp rfl, ?_⟩
  show byOpcode (field w 25 7) w = _
  rw [show field w 25 7 = 114 from field_at hw hp 5 rfl]
  show opcode72 (field w 18 7) w = _
  rw [show field w 18 7 = 3 from field_at hw hp 4 rfl]
  have c0 : field w 13 5 = a := field_at hw hp 3 rfl
  have c1 : field w 0 3 = g := field_at hw hp 0 rfl
  have c2 : field w 3 5 = 0 := field_at hw hp 1 rfl
  simp [opcode72, c0, c1, c2]

theorem tpatchB (a g : Nat) : Statement (.tpatchB a g) := by
  intro w hwf he
  have hr : ([.noPort a, .field g 3] : List Operand).all Operand.fits = true := fits_of_wellFormed hwf
  simp only [List.all_cons, List.all_nil, Operand.fits, Bool.and_eq_true, decide_eq_true_eq, and_true] at hr
  have hp : ∀ seg ∈ ([(g, 3), (1, 5), (0, 5), (a, 5), (3, 7), (114, 7)] : List (Nat × Nat)), seg.1 < 2 ^ seg.2 := by simp; omega
  have hw : w = packed [(g, 3), (1, 5), (0, 5), (a, 5), (3, 7), (114, 7)] := by
    have e : place 0xe40c0008 [(a, 13), (g, 0)] = w := Option.some.inj he
    simp only [place, packed] at e ⊢; omega
  refine ⟨lt_of hw hp rfl, ?_⟩
  show byOpcode (field w 25 7) w = _
  rw [show field w 25 7 = 114 from field_at hw hp 5 rfl]
  show opcode72 (field w 18 7) w = _
  rw [show field w 18 7 = 3 from field_at hw hp 4 rfl]
  have c0 : field w 13 5 = a := field_at hw hp 3 rfl
  have c1 : field w 0 3 = g := field_at hw hp 0 rfl
  have c2 : field w 3 5 = 1 := field_at hw hp 1 rfl
  simp [opcode72, c0, c1, c2]

theorem tpatchE (a b g : Nat) : Statement (.tpatchE a b g) := by
  intro w hwf he
  have hr : ([.noPort a, .noPort b, .field g 3] : List Operand).all Operand.fits = true := fits_of_wellFormed hwf
  simp only [List.all_cons, List.all_nil, Operand.fits, Bool.and_eq_true, decide_eq_true_eq, and_true] at hr
  have hp : ∀ seg ∈ ([(g, 3), (2, 5), (b, 5), (a, 5), (3, 7), (114, 7)] : List (Nat × Nat)), seg.1 < 2 ^ seg.2 := by simp; omega
  have hw : w = packed [(g, 3), (2, 5), (b, 5), (a, 5), (3, 7), (114, 7)] := by
    have e : place 0xe40c0010 [(a, 13), (b, 8), (g, 0)] = w := Option.some.inj he
    simp only [place, packed] at e ⊢; omega
  refine ⟨lt_of hw hp rfl, ?_⟩
  show byOpcode (field w 25 7) w = _
  rw [show field w 25 7 = 114 from field_at hw hp 5 rfl]
  show opcode72 (field w 18 7) w = _
  rw [show field w 18 7 = 3 from field_at hw hp 4 rfl]
  have c0 : field w 13 5 = a := field_at hw hp 3 rfl
  have c1 : field w 8 5 = b := field_at hw hp 2 rfl
  have c2 : field w 0 3 = g := field_at hw hp 0 rfl
  have c3 : field w 3 5 = 2 := field_at hw hp 1 rfl
  simp [opcode72, c0, c1, c2, c3]

theorem tguard (a b g : Nat) : Statement (.tguard a b g) := by
  intro w hwf he
  have hr : ([.noPort a, .noPort b, .field g 3] : List Operand).all Operand.fits = true := fits_of_wellFormed hwf
  simp only [List.all_cons, List.all_nil, Operand.fits, Bool.and_eq_true, decide_eq_true_eq, and_true] at hr
  have hp : ∀ seg ∈ ([(g, 3), (0, 5), (b, 5), (a, 5), (4, 7), (114, 7)] : List (Nat × Nat)), seg.1 < 2 ^ seg.2 := by simp; omega
  have hw : w = packed [(g, 3), (0, 5), (b, 5), (a, 5), (4, 7), (114, 7)] := by
    have e : place 0xe4100000 [(a, 13), (b, 8), (g, 0)] = w := Option.some.inj he
    simp only [place, packed] at e ⊢; omega
  refine ⟨lt_of hw hp rfl, ?_⟩
  show byOpcode (field w 25 7) w = _
  rw [show field w 25 7 = 114 from field_at hw hp 5 rfl]
  show opcode72 (field w 18 7) w = _
  rw [show field w 18 7 = 4 from field_at hw hp 4 rfl]
  have c0 : field w 13 5 = a := field_at hw hp 3 rfl
  have c1 : field w 8 5 = b := field_at hw hp 2 rfl
  have c2 : field w 0 3 = g := field_at hw hp 0 rfl
  have c3 : field w 3 5 = 0 := field_at hw hp 1 rfl
  simp [opcode72, c0, c1, c2, c3]

theorem tguardEarly (a b g : Nat) : Statement (.tguardEarly a b g) := by
  intro w hwf he
  have hr : ([.noPort a, .noPort b, .field g 3] : List Operand).all Operand.fits = true := fits_of_wellFormed hwf
  simp only [List.all_cons, List.all_nil, Operand.fits, Bool.and_eq_true, decide_eq_true_eq, and_true] at hr
  have hp : ∀ seg ∈ ([(g, 3), (1, 5), (b, 5), (a, 5), (4, 7), (114, 7)] : List (Nat × Nat)), seg.1 < 2 ^ seg.2 := by simp; omega
  have hw : w = packed [(g, 3), (1, 5), (b, 5), (a, 5), (4, 7), (114, 7)] := by
    have e : place 0xe4100008 [(a, 13), (b, 8), (g, 0)] = w := Option.some.inj he
    simp only [place, packed] at e ⊢; omega
  refine ⟨lt_of hw hp rfl, ?_⟩
  show byOpcode (field w 25 7) w = _
  rw [show field w 25 7 = 114 from field_at hw hp 5 rfl]
  show opcode72 (field w 18 7) w = _
  rw [show field w 18 7 = 4 from field_at hw hp 4 rfl]
  have c0 : field w 13 5 = a := field_at hw hp 3 rfl
  have c1 : field w 8 5 = b := field_at hw hp 2 rfl
  have c2 : field w 0 3 = g := field_at hw hp 0 rfl
  have c3 : field w 3 5 = 1 := field_at hw hp 1 rfl
  simp [opcode72, c0, c1, c2, c3]

theorem eset (idx a eng g : Nat) : Statement (.eset idx a eng g) := by
  intro w hwf he
  have hr : ([.field idx 7, .source a, .field eng 5, .field g 3] : List Operand).all Operand.fits = true := fits_of_wellFormed hwf
  simp only [List.all_cons, List.all_nil, Operand.fits, Bool.and_eq_true, decide_eq_true_eq, and_true] at hr
  have hp : ∀ seg ∈ ([(g, 3), (eng, 5), (0, 5), (a, 5), (idx, 7), (115, 7)] : List (Nat × Nat)), seg.1 < 2 ^ seg.2 := by simp; omega
  have hw : w = packed [(g, 3), (eng, 5), (0, 5), (a, 5), (idx, 7), (115, 7)] := by
    have e : place 0xe6000000 [(idx, 18), (a, 13), (eng, 3), (g, 0)] = w := Option.some.inj he
    simp only [place, packed] at e ⊢; omega
  refine ⟨lt_of hw hp rfl, ?_⟩
  show byOpcode (field w 25 7) w = _
  rw [show field w 25 7 = 115 from field_at hw hp 5 rfl]
  show Except.ok (Instr.eset (field w 18 7) (field w 13 5) (field w 3 5) (field w 0 3)) = _
  rw [show field w 18 7 = idx from field_at hw hp 4 rfl, show field w 13 5 = a from field_at hw hp 3 rfl, show field w 3 5 = eng from field_at hw hp 1 rfl, show field w 0 3 = g from field_at hw hp 0 rfl]

theorem trace (a g : Nat) : Statement (.trace a g) := by
  intro w hwf he
  have hr : ([.noPort a, .field g 3] : List Operand).all Operand.fits = true := fits_of_wellFormed hwf
  simp only [List.all_cons, List.all_nil, Operand.fits, Bool.and_eq_true, decide_eq_true_eq, and_true] at hr
  have hp : ∀ seg ∈ ([(g, 3), (0, 7), (0, 5), (a, 5), (0, 5), (116, 7)] : List (Nat × Nat)), seg.1 < 2 ^ seg.2 := by simp; omega
  have hw : w = packed [(g, 3), (0, 7), (0, 5), (a, 5), (0, 5), (116, 7)] := by
    have e : place 0xe8000000 [(a, 15), (g, 0)] = w := Option.some.inj he
    simp only [place, packed] at e ⊢; omega
  refine ⟨lt_of hw hp rfl, ?_⟩
  show byOpcode (field w 25 7) w = _
  rw [show field w 25 7 = 116 from field_at hw hp 5 rfl]
  show opcode74 (field w 3 7) w = _
  rw [show field w 3 7 = 0 from field_at hw hp 1 rfl]
  show Except.ok (Instr.trace (field w 15 5) (field w 0 3)) = _
  rw [show field w 15 5 = a from field_at hw hp 3 rfl, show field w 0 3 = g from field_at hw hp 0 rfl]

theorem mark (a b g : Nat) : Statement (.mark a b g) := by
  intro w hwf he
  have hr : ([.noPort a, .noPort b, .field g 3] : List Operand).all Operand.fits = true := fits_of_wellFormed hwf
  simp only [List.all_cons, List.all_nil, Operand.fits, Bool.and_eq_true, decide_eq_true_eq, and_true] at hr
  have hp : ∀ seg ∈ ([(g, 3), (1, 7), (b, 5), (a, 5), (0, 5), (116, 7)] : List (Nat × Nat)), seg.1 < 2 ^ seg.2 := by simp; omega
  have hw : w = packed [(g, 3), (1, 7), (b, 5), (a, 5), (0, 5), (116, 7)] := by
    have e : place 0xe8000008 [(a, 15), (b, 10), (g, 0)] = w := Option.some.inj he
    simp only [place, packed] at e ⊢; omega
  refine ⟨lt_of hw hp rfl, ?_⟩
  show byOpcode (field w 25 7) w = _
  rw [show field w 25 7 = 116 from field_at hw hp 5 rfl]
  show opcode74 (field w 3 7) w = _
  rw [show field w 3 7 = 1 from field_at hw hp 1 rfl]
  show Except.ok (Instr.mark (field w 15 5) (field w 10 5) (field w 0 3)) = _
  rw [show field w 15 5 = a from field_at hw hp 3 rfl, show field w 10 5 = b from field_at hw hp 2 rfl, show field w 0 3 = g from field_at hw hp 0 rfl]

theorem dbgSet (slot a b g : Nat) : Statement (.dbgSet slot a b g) := by
  intro w hwf he
  have hr : ([.slot slot, .noPort a, .noPort b, .field g 3] : List Operand).all Operand.fits = true := fits_of_wellFormed hwf
  simp only [List.all_cons, List.all_nil, Operand.fits, Bool.and_eq_true, decide_eq_true_eq, and_true] at hr
  have hp : ∀ seg ∈ ([(g, 3), (0, 7), (b, 5), (a, 5), (slot, 5), (117, 7)] : List (Nat × Nat)), seg.1 < 2 ^ seg.2 := by simp; omega
  have hw : w = packed [(g, 3), (0, 7), (b, 5), (a, 5), (slot, 5), (117, 7)] := by
    have e : place 0xea000000 [(slot, 20), (a, 15), (b, 10), (g, 0)] = w := Option.some.inj he
    simp only [place, packed] at e ⊢; omega
  refine ⟨lt_of hw hp rfl, ?_⟩
  show byOpcode (field w 25 7) w = _
  rw [show field w 25 7 = 117 from field_at hw hp 5 rfl]
  show opcode75 (field w 3 7) w = _
  rw [show field w 3 7 = 0 from field_at hw hp 1 rfl]
  show Except.ok (Instr.dbgSet (field w 20 5) (field w 15 5) (field w 10 5) (field w 0 3)) = _
  rw [show field w 20 5 = slot from field_at hw hp 4 rfl, show field w 15 5 = a from field_at hw hp 3 rfl, show field w 10 5 = b from field_at hw hp 2 rfl, show field w 0 3 = g from field_at hw hp 0 rfl]

theorem dbgClr (slot g : Nat) : Statement (.dbgClr slot g) := by
  intro w hwf he
  have hr : ([.slot slot, .field g 3] : List Operand).all Operand.fits = true := fits_of_wellFormed hwf
  simp only [List.all_cons, List.all_nil, Operand.fits, Bool.and_eq_true, decide_eq_true_eq, and_true] at hr
  have hp : ∀ seg ∈ ([(g, 3), (1, 7), (0, 10), (slot, 5), (117, 7)] : List (Nat × Nat)), seg.1 < 2 ^ seg.2 := by simp; omega
  have hw : w = packed [(g, 3), (1, 7), (0, 10), (slot, 5), (117, 7)] := by
    have e : place 0xea000008 [(slot, 20), (g, 0)] = w := Option.some.inj he
    simp only [place, packed] at e ⊢; omega
  refine ⟨lt_of hw hp rfl, ?_⟩
  show byOpcode (field w 25 7) w = _
  rw [show field w 25 7 = 117 from field_at hw hp 4 rfl]
  show opcode75 (field w 3 7) w = _
  rw [show field w 3 7 = 1 from field_at hw hp 1 rfl]
  show Except.ok (Instr.dbgClr (field w 20 5) (field w 0 3)) = _
  rw [show field w 20 5 = slot from field_at hw hp 3 rfl, show field w 0 3 = g from field_at hw hp 0 rfl]

theorem dbgRd (d h slot g : Nat) : Statement (.dbgRd d h slot g) := by
  intro w hwf he
  have hr : ([.noPort d, .field h 5, .slot slot, .field g 3] : List Operand).all Operand.fits = true := fits_of_wellFormed hwf
  simp only [List.all_cons, List.all_nil, Operand.fits, Bool.and_eq_true, decide_eq_true_eq, and_true] at hr
  have hp : ∀ seg ∈ ([(g, 3), (2, 7), (slot, 5), (h, 5), (d, 5), (117, 7)] : List (Nat × Nat)), seg.1 < 2 ^ seg.2 := by simp; omega
  have hw : w = packed [(g, 3), (2, 7), (slot, 5), (h, 5), (d, 5), (117, 7)] := by
    have e : place 0xea000010 [(d, 20), (h, 15), (slot, 10), (g, 0)] = w := Option.some.inj he
    simp only [place, packed] at e ⊢; omega
  refine ⟨lt_of hw hp rfl, ?_⟩
  show byOpcode (field w 25 7) w = _
  rw [show field w 25 7 = 117 from field_at hw hp 5 rfl]
  show opcode75 (field w 3 7) w = _
  rw [show field w 3 7 = 2 from field_at hw hp 1 rfl]
  show Except.ok (Instr.dbgRd (field w 20 5) (field w 15 5) (field w 10 5) (field w 0 3)) = _
  rw [show field w 20 5 = d from field_at hw hp 4 rfl, show field w 15 5 = h from field_at hw hp 3 rfl, show field w 10 5 = slot from field_at hw hp 2 rfl, show field w 0 3 = g from field_at hw hp 0 rfl]

theorem messageDelivery (m : Nat) : Statement (.messageDelivery m) := fun _ _ h => nomatch h

theorem routerBounce (m : Nat) : Statement (.routerBounce m) := fun _ _ h => nomatch h

theorem remoteStore (m : Nat) : Statement (.remoteStore m) := fun _ _ h => nomatch h

theorem instructionStoreWrite (m : Nat) : Statement (.instructionStoreWrite m) := fun _ _ h => nomatch h

theorem remoteLoad (m : Nat) : Statement (.remoteLoad m) := fun _ _ h => nomatch h

theorem remoteAtomic (m : Nat) : Statement (.remoteAtomic m) := fun _ _ h => nomatch h

theorem completionReply (m : Nat) : Statement (.completionReply m) := fun _ _ h => nomatch h

theorem handlerReply (m : Nat) : Statement (.handlerReply m) := fun _ _ h => nomatch h

theorem bounceReceive (m : Nat) : Statement (.bounceReceive m) := fun _ _ h => nomatch h

theorem engineCommandHandoff (m : Nat) : Statement (.engineCommandHandoff m) := fun _ _ h => nomatch h

theorem startMessage (m : Nat) : Statement (.startMessage m) := fun _ _ h => nomatch h

theorem preemptMessage (m : Nat) : Statement (.preemptMessage m) := fun _ _ h => nomatch h

theorem faultMessage (m : Nat) : Statement (.faultMessage m) := fun _ _ h => nomatch h

theorem freezeMessage (m : Nat) : Statement (.freezeMessage m) := fun _ _ h => nomatch h

theorem dispatch (c : Nat) : Statement (.dispatch c) := fun _ _ h => nomatch h

theorem cellarDrain (c : Nat) : Statement (.cellarDrain c) := fun _ _ h => nomatch h

theorem messageInject (c : Nat) : Statement (.messageInject c) := fun _ _ h => nomatch h

theorem runQueuePoll (c : Nat) : Statement (.runQueuePoll c) := fun _ _ h => nomatch h

theorem taskRequest (c : Nat) : Statement (.taskRequest c) := fun _ _ h => nomatch h

theorem taskSpawnAccept (c k id : Nat) : Statement (.taskSpawnAccept c k id) := fun _ _ h => nomatch h

theorem spawnRetry (c k id : Nat) : Statement (.spawnRetry c k id) := fun _ _ h => nomatch h

theorem gvtEpoch : Statement .gvtEpoch := fun _ _ h => nomatch h

theorem versionedAccess (c k id : Nat) : Statement (.versionedAccess c k id) := fun _ _ h => nomatch h

theorem deferredTrapTaken (c k : Nat) : Statement (.deferredTrapTaken c k) := fun _ _ h => nomatch h

theorem faultBufferRetry (d : Nat) : Statement (.faultBufferRetry d) := fun _ _ h => nomatch h

theorem breakpointClaim (c k : Nat) : Statement (.breakpointClaim c k) := fun _ _ h => nomatch h

theorem globalAccessComplete (c k id : Nat) : Statement (.globalAccessComplete c k id) := fun _ _ h => nomatch h

theorem copyPiece (c k id : Nat) : Statement (.copyPiece c k id) := fun _ _ h => nomatch h

theorem armedCopyStart (c k id : Nat) : Statement (.armedCopyStart c k id) := fun _ _ h => nomatch h

theorem tileCommandComplete (c k id : Nat) : Statement (.tileCommandComplete c k id) := fun _ _ h => nomatch h

theorem leaseGrant (cl : Nat) : Statement (.leaseGrant cl) := fun _ _ h => nomatch h

theorem leaseRunEnd (cl : Nat) : Statement (.leaseRunEnd cl) := fun _ _ h => nomatch h

theorem matrixStepExecute (cl : Nat) : Statement (.matrixStepExecute cl) := fun _ _ h => nomatch h

theorem matrixStepComplete (cl : Nat) : Statement (.matrixStepComplete cl) := fun _ _ h => nomatch h

theorem arrayAgentRequest (m : Nat) : Statement (.arrayAgentRequest m) := fun _ _ h => nomatch h

theorem arrayAgentReply (cl : Nat) : Statement (.arrayAgentReply cl) := fun _ _ h => nomatch h

theorem copyAgentRequest (m : Nat) : Statement (.copyAgentRequest m) := fun _ _ h => nomatch h

theorem copyAgentReply (cl : Nat) : Statement (.copyAgentReply cl) := fun _ _ h => nomatch h

theorem quantiseComplete (c k id : Nat) : Statement (.quantiseComplete c k id) := fun _ _ h => nomatch h

theorem indexCommandComplete (c k id : Nat) : Statement (.indexCommandComplete c k id) := fun _ _ h => nomatch h

theorem queueControllerRequest (m : Nat) : Statement (.queueControllerRequest m) := fun _ _ h => nomatch h

theorem qenqRetry (c k : Nat) : Statement (.qenqRetry c k) := fun _ _ h => nomatch h

theorem syncAccessPerformed (c k id : Nat) : Statement (.syncAccessPerformed c k id) := fun _ _ h => nomatch h

theorem barrierArrival (c k id : Nat) : Statement (.barrierArrival c k id) := fun _ _ h => nomatch h

theorem ngetRetry (c k : Nat) : Statement (.ngetRetry c k) := fun _ _ h => nomatch h

theorem ngetTimeout (c k : Nat) : Statement (.ngetTimeout c k) := fun _ _ h => nomatch h

theorem gangTimeout (c k : Nat) : Statement (.gangTimeout c k) := fun _ _ h => nomatch h

theorem sleepWake (c k : Nat) : Statement (.sleepWake c k) := fun _ _ h => nomatch h

theorem passOpen (c k id : Nat) : Statement (.passOpen c k id) := fun _ _ h => nomatch h

theorem passWindowExpiry (d n : Nat) : Statement (.passWindowExpiry d n) := fun _ _ h => nomatch h

theorem heldSubscriptionJoin (d n : Nat) : Statement (.heldSubscriptionJoin d n) := fun _ _ h => nomatch h

theorem pageDeliveryBegin (d n : Nat) : Statement (.pageDeliveryBegin d n) := fun _ _ h => nomatch h

theorem pageReady (d n : Nat) : Statement (.pageReady d n) := fun _ _ h => nomatch h

theorem traygetComplete (c k id : Nat) : Statement (.traygetComplete c k id) := fun _ _ h => nomatch h

theorem acloseComplete (c k id : Nat) : Statement (.acloseComplete c k id) := fun _ _ h => nomatch h

theorem launchClaim : Statement .launchClaim := fun _ _ h => nomatch h

theorem launchPlace (n : Nat) : Statement (.launchPlace n) := fun _ _ h => nomatch h

theorem launchAged (n : Nat) : Statement (.launchAged n) := fun _ _ h => nomatch h

theorem crewComplete (n : Nat) : Statement (.crewComplete n) := fun _ _ h => nomatch h

theorem crewResume (n : Nat) : Statement (.crewResume n) := fun _ _ h => nomatch h

theorem watchdogPreemptRequest (n : Nat) : Statement (.watchdogPreemptRequest n) := fun _ _ h => nomatch h

theorem watchdogKill (n : Nat) : Statement (.watchdogKill n) := fun _ _ h => nomatch h

theorem watchdogFence (n : Nat) : Statement (.watchdogFence n) := fun _ _ h => nomatch h

theorem replayEntry (c k : Nat) : Statement (.replayEntry c k) := fun _ _ h => nomatch h

theorem tlbinvComplete (c k : Nat) : Statement (.tlbinvComplete c k) := fun _ _ h => nomatch h

theorem pageWalkComplete (c k id : Nat) : Statement (.pageWalkComplete c k id) := fun _ _ h => nomatch h

theorem absentWalkRetry (c k id : Nat) : Statement (.absentWalkRetry c k id) := fun _ _ h => nomatch h

theorem tierDemotion (t : Nat) : Statement (.tierDemotion t) := fun _ _ h => nomatch h

theorem tierPromotion (c k id : Nat) : Statement (.tierPromotion c k id) := fun _ _ h => nomatch h

theorem pageMoveComplete (n : Nat) : Statement (.pageMoveComplete n) := fun _ _ h => nomatch h

theorem relockEnd (d : Nat) : Statement (.relockEnd d) := fun _ _ h => nomatch h

theorem powerLimitStep (d watts : Nat) : Statement (.powerLimitStep d watts) := fun _ _ h => nomatch h

theorem bankWakeComplete (c : Nat) : Statement (.bankWakeComplete c) := fun _ _ h => nomatch h

theorem monitorSample (d : Nat) : Statement (.monitorSample d) := fun _ _ h => nomatch h

theorem scrub (unit loc : Nat) : Statement (.scrub unit loc) := fun _ _ h => nomatch h

theorem flitReplay (link fails : Nat) : Statement (.flitReplay link fails) := fun _ _ h => nomatch h

theorem moduleFailure (m : Nat) : Statement (.moduleFailure m) := fun _ _ h => nomatch h

theorem keepaliveSend : Statement .keepaliveSend := fun _ _ h => nomatch h

theorem timeFlitExchange (adj : Nat) : Statement (.timeFlitExchange adj) := fun _ _ h => nomatch h

theorem fabricPacketReceive (words : List Nat) : Statement (.fabricPacketReceive words) := fun _ _ h => nomatch h

theorem st2110Packet (port stream sn stamp marker place : Nat) (data : List Nat) : Statement (.st2110Packet port stream sn stamp marker place data) := fun _ _ h => nomatch h

theorem frameDeadline (port stream : Nat) : Statement (.frameDeadline port stream) := fun _ _ h => nomatch h

theorem ageingUpdate (d : Nat) (words : List Nat) : Statement (.ageingUpdate d words) := fun _ _ h => nomatch h

theorem securityAlarm (level : Nat) : Statement (.securityAlarm level) := fun _ _ h => nomatch h

theorem deviceReset : Statement .deviceReset := fun _ _ h => nomatch h

theorem hostMemoryAccess (write addr : Nat) (data : List Nat) : Statement (.hostMemoryAccess write addr data) := fun _ _ h => nomatch h

theorem hostSnoop (addr : Nat) : Statement (.hostSnoop addr) := fun _ _ h => nomatch h

theorem doorbell (d q ticket : Nat) : Statement (.doorbell d q ticket) := fun _ _ h => nomatch h

theorem queueCreate (d q val : Nat) : Statement (.queueCreate d q val) := fun _ _ h => nomatch h

theorem queueDestroy (d q : Nat) : Statement (.queueDestroy d q) := fun _ _ h => nomatch h

theorem senderTableClear (c : Nat) : Statement (.senderTableClear c) := fun _ _ h => nomatch h

theorem traceSessionOpen (d n val : Nat) : Statement (.traceSessionOpen d n val) := fun _ _ h => nomatch h

theorem traceSessionClose (d n : Nat) : Statement (.traceSessionClose d n) := fun _ _ h => nomatch h

theorem monitorEnable (d n val : Nat) : Statement (.monitorEnable d n val) := fun _ _ h => nomatch h

theorem tapeDirectoryWrite (d n dw val : Nat) : Statement (.tapeDirectoryWrite d n dw val) := fun _ _ h => nomatch h

theorem faultRouteWrite (d n val : Nat) : Statement (.faultRouteWrite d n val) := fun _ _ h => nomatch h

theorem timeset (val : Nat) : Statement (.timeset val) := fun _ _ h => nomatch h

theorem ftarget (d val : Nat) : Statement (.ftarget d val) := fun _ _ h => nomatch h

theorem thaw (c ctx : Nat) : Statement (.thaw c ctx) := fun _ _ h => nomatch h

theorem freeze (c ctx : Nat) : Statement (.freeze c ctx) := fun _ _ h => nomatch h

theorem resume (c k skip ctx : Nat) : Statement (.resume c k skip ctx) := fun _ _ h => nomatch h

theorem restart (c k ctx : Nat) : Statement (.restart c k ctx) := fun _ _ h => nomatch h

theorem discard (c k ctx : Nat) : Statement (.discard c k ctx) := fun _ _ h => nomatch h

theorem corePreempt (c ctx : Nat) : Statement (.corePreempt c ctx) := fun _ _ h => nomatch h

theorem kill (c ctx : Nat) : Statement (.kill c ctx) := fun _ _ h => nomatch h

theorem fwload (addr len : Nat) : Statement (.fwload addr len) := fun _ _ h => nomatch h

theorem quote (nonce gid : Nat) : Statement (.quote nonce gid) := fun _ _ h => nomatch h

theorem cert : Statement .cert := fun _ _ h => nomatch h

theorem importBlob (gid va len : Nat) (blob : List Nat) : Statement (.importBlob gid va len blob) := fun _ _ h => nomatch h

theorem exportBlob (gid va len : Nat) : Statement (.exportBlob gid va len) := fun _ _ h => nomatch h

theorem mailboxCtx (load n d : Nat) (words : List Nat) : Statement (.mailboxCtx load n d words) := fun _ _ h => nomatch h

theorem dbgset (job slot pc task : Nat) : Statement (.dbgset job slot pc task) := fun _ _ h => nomatch h

theorem release (q ticket killed : Nat) : Statement (.release q ticket killed) := fun _ _ h => nomatch h

theorem unfence (c : Nat) : Statement (.unfence c) := fun _ _ h => nomatch h

theorem mailboxPreempt (job crew : Nat) : Statement (.mailboxPreempt job crew) := fun _ _ h => nomatch h

theorem registerWrite (d off val ctx : Nat) : Statement (.registerWrite d off val ctx) := fun _ _ h => nomatch h

theorem unassignedEncoding (w cls : Nat) : Statement (.unassignedEncoding w cls) := fun _ _ h => nomatch h

theorem instructionFetchFailed (why : Nat) : Statement (.instructionFetchFailed why) := fun _ _ h => nomatch h

end Fields

end Sys2Proof.Laws
end

