-- ==== Sys2Proof/Tests/Slice0.lean ====
section
/-! SUPPORT. Tests: words of the spec that decode, terms that the well-formedness checks refuse, worked values of the spec on one step,
and for every statement with hypotheses a state and operands that meet them. -/

namespace Sys2Proof.Tests

set_option Elab.async false

open Sys2Proof Sys2Proof.Machine

/-- A running strand of core (0, 0) with 7 in g6 and 9 in g7. -/
def base : State := State.reset.modSt fun t => { t with g := vset (vset t.g 6 7) 7 9, life := .run }

/-- The state an instruction gives, or the old one where it gives none. -/
def out (i : Instr) (s : State) : State :=
  match exec i s with
  | .next t => t
  | _ => s

/-- The strand with general register i holding v. -/
def withG (i v : Nat) (s : State) : State := s.modSt fun t => { t with g := vset t.g i (word v) }

/-- When a strand is ready, as one question that can be decided. -/
abbrev readyNow (g : Nat) (l : List Nat) (s : State) : Prop :=
  s.k < 16 ∧ s.st.csr.gangSize = 0 ∧ s.p g = true ∧ l.contains 31 = false ∧ s.st.pendingOn l = none

theorem ready_of {g : Nat} {l : List Nat} {s : State} : readyNow g l s → Ready g l s
  | ⟨strand, alone, guard, ports, free⟩ => { strand, alone, guard, ports, free }

theorem plain_of {g : Nat} {l : List Nat} {s : State} (h : readyNow g l s) (plain : s.st.task = none) : ReadyPlain g l s :=
  { toReady := ready_of h, plain }

theorem src1 {a : Nat} {x : Word} {s : State} (h : a < 28 ∧ s.g a = x) : sourcesOf [a] s = some ([x], s) := by
  simp [sourcesOf, readOf, h]

theorem src2 {a b : Nat} {x y : Word} {s : State} (h : a < 28 ∧ b < 28 ∧ s.g a = x ∧ s.g b = y) : sourcesOf [a, b] s = some ([x, y], s) := by
  simp [sourcesOf, readOf, h]

theorem src3 {a b c : Nat} {x y z : Word} {s : State} (h : a < 28 ∧ b < 28 ∧ c < 28 ∧ s.g a = x ∧ s.g b = y ∧ s.g c = z) :
    sourcesOf [a, b, c] s = some ([x, y, z], s) := by
  simp [sourcesOf, readOf, h]

theorem dst1 {d : Nat} {v : Word} {s : State} (h : d < 28) : writeOf d v s = some (s.setG d v) := by simp [writeOf, h]

/-- Nothing keeps an access from its pieces: a strand without a task where it writes, in a scratchpad that is not checked for races. -/
abbrev clearOf (n : Nat) (wr : Bool) (ps : List (Nat × Nat)) (s : State) : Prop :=
  (wr = true → s.st.task = none) ∧ s.st.stalledOn = none ∧ s.core.ranges = [] ∧ s.behind s.sys.nextId s.here none ps = false ∧
    s.lockedBy s.cl s.me (scratchSide s.here) ps wr = none ∧ s.racy = false ∧ (∀ p ∈ ps, s.core.softAt p.1 p.2 (wr && n < 80) = none) ∧ s.sleeping ps = []

theorem unhindered_of {off n : Nat} {wr : Bool} {ps : List (Nat × Nat)} {s : State} : clearOf n wr ps s → Unhindered off n wr ps s
  | ⟨task, fresh, none_, order, locks, quiet, sound, banks⟩ =>
    { frame := fun w t => by simp [task w] at t
      ranges := fun r hr => by simp [none_] at hr
      tags := fun racy => by simp [quiet] at racy
      fresh, order, locks, sound, banks }

theorem clear_of {off n k : Nat} {rd wr : Bool} {ps : List (Nat × Nat)} {s : State}
    (h : s.st.regionFor off n rd wr = some k ∧ ps = pieces k off n ∧ clearOf n wr ps s) : LocalClear off n rd wr ps s :=
  { toUnhindered := unhindered_of h.2.2, region := ⟨k, h.1, h.2.1⟩ }

theorem acc_of {off k : Nat} {wr : Bool} {ps : List (Nat × Nat)} {s : State}
    (h : s.st.regionFor off 80 true true = some k ∧ ps = pieces k off 80 ∧ clearOf 80 wr ps s) : AccClear off wr ps s :=
  { toUnhindered := unhindered_of h.2.2, region := ⟨k, h.1, h.2.1⟩ }

/-- The base strand in a crew on the rectangle (0, 0) to (3, 3) of a job of context 1, which has every right. -/
def crewed : State :=
  let s := base.modSys fun y => { y with
    crews := [{ id := 1, job := 1, idx := 0, x0 := 0, y0 := 0, x1 := 3, y1 := 3 }]
    jobs := [{ id := 1, num := 81, gid := 7, die := 0, ctx := 1, queue := 1, ticket := 0, record := [] }] }
  let s := s.modDie 0 fun d => { d with ctxs := [{ num := 1, dws := [0x71F01, 0, 0, 0, word (47 * 2 ^ 24 + 47 * 2 ^ 36)] }] }
  s.modCore fun c => { c with crew := some 1 }

/-- The crewed strand with the translations of three pages at hand: a synchronisation page at 0x10000, a memory page at 0x20000 and a page of its own scratchpad
at 0x30000. -/
def paged : State :=
  let es : List TlbEntry := [{ gid := 7, base := 0x10000, size := 65536, dw0 := 119, dw1 := 0, place := 0 },
    { gid := 7, base := 0x20000, size := 65536, dw0 := 0x20063, dw1 := 0, place := 0 }, { gid := 7, base := 0x30000, size := 65536, dw0 := 0x73, dw1 := 0, place := 0 }]
  ((crewed.modSys fun y => { y with syncPages := [(0, 7, 1)] }).modCluster 0 fun c => { c with tlb2 := es }).modCore fun c => { c with dtlb := es }

/-- The same with operations of the strand outstanding, each issued after those before it. -/
def withOps (l : List Op) (s : State) : State :=
  s.modSt fun t => { t with ops := l, issued := Vector.ofFn fun i => (l.filter fun o => o.cls.no == i.val).length }

/-- A strand that runs a speculative task. -/
def tasked : State := base.modSt fun t => { t with task := some { ts := 5, id := 1, cluster := 0 } }

/-! ## Witnesses: integer, floating-point and vector instructions -/

theorem witness_IntegerArithmetic : Ready 0 [5, 6, 7] base ∧ sourcesOf [6, 7] base = some ([7, 9], base) ∧ writeOf 5 16 base = some (base.setG 5 16) :=
  ⟨ready_of (by decide +kernel), src2 (by decide +kernel), dst1 (by decide)⟩

/-- Sources and destination at ports: q0 and q2 empty, q1 with room. -/
theorem witness_IntegerArithmetic_ports : Ready 0 [29, 28, 30] base ∧ sourcesOf [28, 30] base = some ([0, 0], base.setP 1 true) ∧
    writeOf 29 1 (base.setP 1 true) = some ((base.setP 1 true).modSt fun t => { t with q1 := [1] }) :=
  ⟨ready_of (by decide +kernel), by decide +kernel, by decide +kernel⟩

theorem witness_IntegerShifts : Ready 0 [5, 6, 7] base ∧ sourcesOf [6, 7] base = some ([7, 9], base) ∧ writeOf 5 (7 <<< 9) base = some (base.setG 5 (7 <<< 9)) ∧ (63 < 64) ∧ Ready 0 [0, 6] base ∧ sourcesOf [6] base = some ([7], base) ∧ writeOf 0 (7 <<< 63) base = some (base.setG 0 (7 <<< 63)) :=
  ⟨ready_of (by decide +kernel), src2 (by decide +kernel), dst1 (by decide), by decide, ready_of (by decide +kernel), by decide +kernel, rfl⟩

theorem witness_IntegerProducts : Ready 0 [27, 6, 7] base ∧ sourcesOf [6, 7] base = some ([7, 9], base) ∧ writeOf 27 63 base = some (base.setG 27 63) :=
  ⟨ready_of (by decide +kernel), src2 (by decide +kernel), dst1 (by decide)⟩

theorem witness_IntegerDivision : Ready 0 [5, 6, 7] base ∧ sourcesOf [6, 7] base = some ([7, 9], base) ∧ (9 : Word).setWidth 8 ≠ 0 ∧ writeOf 5 0 base = some (base.setG 5 0) :=
  ⟨ready_of (by decide +kernel), by decide +kernel, by decide, rfl⟩

theorem witness_IntegerDivision_zero : Ready 0 [5, 6, 1] base ∧ sourcesOf [6, 1] base = some ([7, 0], base) ∧ (0 : Word).setWidth 64 = (0 : BitVec 64) ∧
    (writeOf 5 7 (base.modCsr fun c => { c with fpflags := c.fpflags ||| 8 })).isSome = true :=
  ⟨ready_of (by decide +kernel), by decide +kernel, by decide, by decide +kernel⟩

theorem witness_Immediates : Ready 0 [5, 6] base ∧ sourcesOf [6] base = some ([7], base) ∧ writeOf 5 6 base = some (base.setG 5 6) ∧ Ready 0 [27] base :=
  ⟨ready_of (by decide +kernel), by decide +kernel, rfl, ready_of (by decide +kernel)⟩

theorem witness_Comparisons : Ready 0 [6, 7] base ∧ sourcesOf [6, 7] base = some ([7, 9], base) ∧ Ready 0 [6] base ∧ sourcesOf [6] base = some ([7], base) :=
  ⟨ready_of (by decide +kernel), by decide +kernel, ready_of (by decide +kernel), by decide +kernel⟩

/-- The number of leading zeros of 7 in 64 bits is 61, of trailing zeros 0; of 0 both are 64. -/
theorem witness_BitCounts : Ready 0 [5, 6] base ∧ sourcesOf [6] base = some ([7], base) ∧
    (∃ k, k ≤ 64 ∧ (61 : Word) = BitVec.ofNat 64 k ∧ (∀ i, 64 - k ≤ i → i < 64 → (7 : Word).getLsbD i = false) ∧ (k < 64 → (7 : Word).getLsbD (64 - 1 - k) = true)) ∧
    (∃ k, k ≤ 64 ∧ (64 : Word) = BitVec.ofNat 64 k ∧ (∀ i, i < k → (0 : Word).getLsbD i = false) ∧ (k < 64 → (0 : Word).getLsbD k = true)) :=
  ⟨ready_of (by decide +kernel), by decide +kernel, ⟨61, by decide, by decide, fun i h1 h2 => (by decide : ∀ i < 64, 3 ≤ i → (7 : Word).getLsbD i = false) i h2 h1, by decide⟩, ⟨64, by decide, by decide, by simp, by decide⟩⟩

theorem witness_BitCounts_sel : Ready 0 [5, 6, 7] base ∧ sourcesOf [6, 7] base = some ([7, 9], base) ∧ writeOf 5 7 base = some (base.setG 5 7) ∧
    (7 : Word) = (if base.p 0 then 7 else 9) := ⟨ready_of (by decide +kernel), by decide +kernel, rfl, rfl⟩

/-- The pointer 2^48 - 1 moved by 0 stays in the address space, by 1 leaves it; 0 moved by -1 leaves it downward. -/
theorem witness_PointersAndCoordinates :
    let s := withG 8 (2 ^ 48 - 1) (withG 9 1 (withG 10 (2 ^ 64 - 1) base))
    Ready 0 [5, 8, 9] s ∧ sourcesOf [8, 0] s = some ([word (2 ^ 48 - 1), 0], s) ∧ sourcesOf [8, 9] s = some ([word (2 ^ 48 - 1), 1], s) ∧
    sourcesOf [0, 10] s = some ([0, word (2 ^ 64 - 1)], s) ∧ ((2 ^ 48 - 1 : Nat) + (1 : Word).toInt = 2 ^ 48) ∧ ((0 : Nat) + (word (2 ^ 64 - 1)).toInt = -1) :=
  ⟨ready_of (by decide +kernel), by decide +kernel, by decide +kernel, by decide +kernel, by decide, by decide⟩

theorem witness_PredicatesAndFlags : Ready 0 [] base ∧ Ready 0 [6] base ∧ sourcesOf [6] base = some ([7], base) ∧ writeOf 5 1 base = some (base.setG 5 1) :=
  ⟨ready_of (by decide +kernel), ready_of (by decide +kernel), by decide +kernel, rfl⟩

theorem witness_IntegerFrame : integerForm (.add 5 6 7 0 0 0) = some (5, [6, 7], 0) ∧ Ready 0 [5, 6, 7] tasked ∧
    (∀ k, exec (.add 5 6 7 0 0 0) tasked ≠ .next (tasked.takeTrap { code := k })) ∧ exec (.add 5 6 7 0 0 0) tasked = .next (tasked.setG 5 16).advance := by
  have h : exec (.add 5 6 7 0 0 0) tasked = .next (tasked.setG 5 16).advance := rfl
  refine ⟨rfl, ready_of (by decide +kernel), fun k hk => ?_, h⟩
  rw [h] at hk
  have h5 : Life.run = Life.wait := congrArg (fun o : Host.Outcome State Fault Refusal => match o with | .next t => t.st.life | _ => .free) hk
  cases h5

theorem witness_FloatFrame : floatForm (.fadd 5 6 7 0 0) = some (5, [6, 7], 0) ∧ Ready 0 [5, 6, 7] base ∧
    ((out (.fadd 5 6 7 0 0) base).st.csr.trapcode = 0 ∧ (out (.fadd 5 6 7 0 0) base).st.life = .run ∧ (out (.fadd 5 6 7 0 0) base).st.pc = 4) :=
  ⟨rfl, ready_of (by decide +kernel), by decide +kernel⟩

/-- A division by zero raises DZ (bit 3), which FPCTL may enable. -/
theorem witness_FloatResults : Ready 0 [5, 6, 1] base ∧ sourcesOf [6, 1] base = some ([7, 0], base) ∧ (f32.arith 3 base.fpctl 0x3F800000 0).2 &&& enables base.fpctl = 0 ∧
    (f32.arith 3 (2 ^ 10 - 32) 0x3F800000 0).2 &&& enables (2 ^ 10 - 32) ≠ 0 := ⟨ready_of (by decide +kernel), by decide +kernel, by decide +kernel, by decide +kernel⟩

theorem witness_FloatSignsAndConstants : Ready 0 [5, 6] base ∧ sourcesOf [6] base = some ([7], base) ∧ (f32.value false 7).isNan = false ∧
    sourcesOf [8] (withG 8 0x7FC00001 base) = some ([0x7FC00001], withG 8 0x7FC00001 base) ∧ (f32.value false 0x7FC00001).isNan = true ∧ writeOf 5 7 base = some (base.setG 5 7) ∧ Ready 0 [5] base :=
  ⟨ready_of (by decide +kernel), by decide +kernel, by decide +kernel, by decide +kernel, by decide +kernel, dst1 (by decide), ready_of (by decide +kernel)⟩

theorem witness_FloatComparisons : Ready 0 [6, 7] base ∧ sourcesOf [6, 7] base = some ([7, 9], base) ∧ (f32.compare 0 base.fpctl 7 9).2 &&& enables base.fpctl = 0 ∧
    (f32.compare 2 (2 ^ 10 - 32) 0x7FC00000 9).2 &&& enables (2 ^ 10 - 32) ≠ 0 :=
  ⟨ready_of (by decide +kernel), by decide +kernel, by decide +kernel, by decide +kernel⟩

theorem witness_VectorIntegers : Ready 0 [] base ∧ (3 < 4) ∧ 15 < 16 := ⟨ready_of (by decide +kernel), by decide, by decide⟩

theorem witness_VectorFloats : Ready 0 [] base ∧ 15 < 16 ∧ enables base.fpctl = 0 := ⟨ready_of (by decide +kernel), by decide, by decide +kernel⟩

theorem witness_VectorConversions : Ready 0 [] base ∧ vcvtPart 0 3 1 = true ∧ vcvtPart 0 5 3 = true ∧ enables base.fpctl = 0 := ⟨ready_of (by decide +kernel), rfl, rfl, by decide +kernel⟩

theorem witness_VectorComparisons : Ready 0 [] base ∧ (3 < 4) ∧ (4 ≤ 6 ∧ 6 < 7) ∧ enables base.fpctl = 0 := ⟨ready_of (by decide +kernel), by decide, by decide, by decide +kernel⟩

theorem witness_VectorReductions : Ready 0 [5] base ∧ writeOf 5 0 base = some (base.setG 5 0) ∧
    (List.range 8).map (fun j => lane 64 j (base.w 2)) = List.replicate 8 (0 : BitVec 64) ∧ enables base.fpctl = 0 :=
  ⟨ready_of (by decide +kernel), rfl, by decide +kernel, by decide +kernel⟩

theorem witness_VectorPermutations : Ready 0 [6] base ∧ sourcesOf [6] base = some ([7], base) := ⟨ready_of (by decide +kernel), by decide +kernel⟩

/-! ## Witnesses: traps, control, the strand's end -/

/-- A strand with a trap vector and a clear trap state, with a set one, and with a misaligned vector. -/
theorem witness_TrapEntry :
    let s := base.modCsr fun c => { c with trapvec := 0x100 }
    let u := base.modSt fun t => { t with ts := true }
    let v := base.modCsr fun c => { c with trapvec := 0x102 }
    (s.st.task = none ∧ s.st.ts = false ∧ s.st.csr.trapvec.toNat % 2 ^ 48 ≠ 0 ∧ s.st.csr.trapvec.toNat % 4 = 0) ∧ (u.st.task = none ∧ u.st.ts = true) ∧
    (v.st.csr.trapvec.toNat % 4 ≠ 0) ∧ bit (0x100 : Word).toNat 8 = true := by decide +kernel

theorem witness_TrapEntry_task : tasked.st.task = some { ts := 5, id := 1, cluster := 0 } ∧ base.st.task = none := by decide +kernel

theorem witness_TrapInstructionAndReturn : let s := base.modSt fun t => { t with ts := true }
    let u := s.modCsr fun c => { c with trappc := 2 }
    Ready 0 [] base ∧ base.st.ts = false ∧ Ready 0 [] s ∧ s.st.ts = true ∧ s.st.csr.trappc.toNat % 4 = 0 ∧ Ready 0 [] u ∧ u.st.ts = true ∧ u.st.csr.trappc.toNat % 4 ≠ 0 ∧
    base.st.csr.gangSize = 0 :=
  ⟨ready_of (by decide +kernel), by decide +kernel, ready_of (by decide +kernel), by decide +kernel, by decide +kernel, ready_of (by decide +kernel), by decide +kernel, by decide +kernel,
    by decide +kernel⟩

theorem witness_BranchesAndCalls : base.k < 16 ∧ base.st.csr.gangSize = 0 ∧ base.p 0 = (1 == 1) ∧ base.p 2 ≠ (1 == 1) ∧ base.st.pendingOn [27] = none := by decide +kernel

theorem witness_JumpsAndLoops : Ready 0 [8, 27] (withG 8 64 base) ∧ Ready 0 [8] (withG 8 64 base) ∧ Ready 0 [6, 27] base ∧ Ready 0 [6] base ∧ Ready 0 [5] (withG 5 1 base) ∧ Ready 0 [5] base ∧
    sourcesOf [8] (withG 8 64 base) = some ([64], withG 8 64 base) ∧ sourcesOf [6] base = some ([7], base) ∧ (64 : Word).toNat % 4 = 0 ∧ (7 : Word).toNat % 4 ≠ 0 ∧
    Ready 0 [27] base ∧ (base.g 27).toNat % 4 = 0 ∧ ((withG 27 6 base).g 27).toNat % 4 ≠ 0 ∧ (withG 5 1 base).g 5 = 1 ∧ base.g 5 ≠ 1 :=
  ⟨ready_of (by decide +kernel), ready_of (by decide +kernel), ready_of (by decide +kernel), ready_of (by decide +kernel), ready_of (by decide +kernel), ready_of (by decide +kernel),
    by decide +kernel, by decide +kernel, by decide, by decide, ready_of (by decide +kernel), by decide +kernel, by decide +kernel, by decide +kernel, by decide +kernel⟩

theorem base_settled : base.settled := ⟨fun c => by cases c <;> decide +kernel, by decide +kernel⟩

theorem witness_StrandEnds : Ready 0 [] base ∧ base.settled ∧ ReadyPlain 0 [8, 3, 4, 5, 6, 7] (withG 8 64 base) ∧ sourcesOf [8] (withG 8 64 base) = some ([64], withG 8 64 base) ∧
    (withG 8 64 base).settled ∧ (64 : Word).toNat % 4 = 0 ∧ ReadyPlain 0 [6, 3, 4, 5, 6, 7] base ∧ sourcesOf [6] base = some ([7], base) ∧ (7 : Word).toNat % 4 ≠ 0 :=
  ⟨ready_of (by decide +kernel), base_settled, plain_of (by decide +kernel) (by decide +kernel), by decide +kernel, ⟨fun c => by cases c <;> decide +kernel, by decide +kernel⟩, by decide,
    plain_of (by decide +kernel) (by decide +kernel), by decide +kernel, by decide⟩

/-- A strand that asks the queue, and one whose answer has come. -/
theorem witness_StrandEnds_suspend : let u := withG 8 64 base
    let s := u.modSt fun t => { t with waiting := .answer 1 (some [0, 0]) 0 }
    ReadyPlain 0 [2, 8, 3, 4, 5, 6, 7] u ∧ sourcesOf [2, 8] u = some ([0, 64], u) ∧ u.settled ∧ u.st.waiting = .none ∧ u.dropLease.outFull = false ∧
    ReadyPlain 0 [2, 8, 3, 4, 5, 6, 7] s ∧ sourcesOf [2, 8] s = some ([0, 64], s) ∧ s.st.waiting = .answer 1 (some [0, 0]) 0 ∧ (([0, 0] : List Word).getD 0 0).toNat = 0 ∧
    ReadyPlain 0 [2, 6, 3, 4, 5, 6, 7] base ∧ sourcesOf [2, 6] base = some ([0, 7], base) :=
  ⟨plain_of (by decide +kernel) (by decide +kernel), by decide +kernel, ⟨fun c => by cases c <;> decide +kernel, by decide +kernel⟩, by decide +kernel, by decide +kernel,
    plain_of (by decide +kernel) (by decide +kernel), by decide +kernel, by decide +kernel, by decide, plain_of (by decide +kernel) (by decide +kernel), by decide +kernel⟩

theorem witness_SleepAndWake : Ready 0 [6] base ∧ sourcesOf [0] base = some ([0], base) ∧ (0 : Word).toNat ≤ base.sys.now ∧ sourcesOf [6] base = some ([7], base) ∧ base.sys.now < (7 : Word).toNat ∧
    base.inMesh base.here = true ∧ base.k = 0 ∧ (base.modSt fun t => { t with waiting := .sleep 0, life := .wait }).st.waiting = .sleep 0 :=
  ⟨ready_of (by decide +kernel), by decide +kernel, by decide +kernel, by decide +kernel, by decide +kernel, by decide +kernel, by decide +kernel, by decide +kernel⟩

theorem witness_ControlRegisters : Ready 0 [5] base ∧ writeOf 5 0 base = some (base.setG 5 0) ∧ sourcesOf [6] base = some ([7], base) ∧ 6 ≤ (7 : Word).toNat % 8 ∧
    sourcesOf [0] base = some ([0], base) ∧ (0 : Word).toNat % 8 < 6 := ⟨ready_of (by decide +kernel), rfl, by decide +kernel, by decide, by decide +kernel, by decide⟩

/-! ## Witnesses: the array's lease, local memory, accumulators -/

/-- The strand holds the lease of its cluster; it waits for it; nobody has it. -/
def leased : State := base.modCluster base.cl fun c => { c with lease := { c.lease with holder := some 0, strand := 0, since := 0 } }

theorem witness_LeaseOfTheArray : ReadyPlain 0 [] leased ∧ (leased.cluster leased.cl).lease.holds leased.leaseMe (leased.st.waiting == .lease) = true ∧
    ReadyPlain 0 [] base ∧ (base.cluster base.cl).lease.key = none ∧ (base.cluster base.cl).lease.want = [] ∧ base.st.waiting = .none :=
  ⟨plain_of (by decide +kernel) (by decide +kernel), by decide +kernel, plain_of (by decide +kernel) (by decide +kernel), by decide +kernel, by decide +kernel, by decide +kernel⟩

theorem witness_LeaseOfTheArray_grant : let s := base.modCluster base.cl fun c => { c with lease := { c.lease with want := [3] } }
    (s.cluster s.cl).lease.holder = none ∧ (s.cluster s.cl).lease.nextWant = some 3 := by decide +kernel

theorem witness_LeaseOfTheArray_runEnd : let s := leased.modCluster leased.cl fun c => { c with lease := { c.lease with steps := 32, want := [3] } }
    let u := leased.modSys fun y => { y with now := 8000 }
    (s.cluster s.cl).lease.key = some 0 ∧ 32 ≤ (s.cluster s.cl).lease.steps ∧ (s.cluster s.cl).lease.want ≠ [] ∧
    (u.cluster u.cl).lease.key = some 0 ∧ (u.cluster u.cl).lease.since + 8000 ≤ u.sys.now ∧ (u.cluster u.cl).lease.want = [] := by decide +kernel

/-- The last doubleword of the scratchpad can be read, the byte beyond it is its first byte again, and an odd address is misaligned for a doubleword. -/
theorem witness_LocalLoads : let s := withG 8 (2 ^ 18 - 8) base
    Ready 0 [5, 8] s ∧ sourcesOf [8] s = some ([word (2 ^ 18 - 8)], s) ∧ ((2 ^ 18 - 8 + (BitVec.ofNat 9 0).toInt * bytesOfSize 3) % 2 ^ 18).toNat = 2 ^ 18 - 8 ∧
    (2 ^ 18 - 8) % bytesOfSize 3 = 0 ∧ LocalClear (2 ^ 18 - 8) (bytesOfSize 3) true false [(2 ^ 18 - 8, 8)] s ∧ writeOf 5 0 s = some (s.setG 5 0) ∧
    sourcesOf [6] base = some ([7], base) ∧ 7 % bytesOfSize 3 ≠ 0 :=
  ⟨ready_of (by decide +kernel), src1 (by decide +kernel), by decide +kernel, by decide +kernel, clear_of (k := 0) (by decide +kernel), dst1 (by decide +kernel), src1 (by decide +kernel), by decide +kernel⟩

/-- Region 0 grants reads of [0, 256) alone: the doubleword at 248 is inside, the one at 256 is in no region. -/
theorem witness_LocalLoads_bounds : let s := (withG 8 256 base).modCsr fun c => { c with region := vset c.region 0 (word (2 ^ 24 + 2 ^ 10)) }
    Ready 0 [5, 8] s ∧ sourcesOf [8] s = some ([256], s) ∧ s.st.regionFor 256 8 true false = none ∧ LocalClear 248 8 true false [(248, 8)] s :=
  ⟨ready_of (by decide +kernel), src1 (by decide +kernel), by decide +kernel, clear_of (k := 0) (by decide +kernel)⟩

theorem witness_LocalLoads_wide : Ready 0 [1] base ∧ sourcesOf [1] base = some ([0], base) ∧ LocalClear 0 64 true false (pieces 0 0 64) base ∧
    Ready 0 [5, 1, 6] base ∧ sourcesOf [1, 1] base = some ([0, 0], base) ∧ LocalClear 0 (widthOf 0 / 8) true false [(0, 8)] base :=
  ⟨ready_of (by decide +kernel), src1 (by decide +kernel), clear_of (k := 0) (by decide +kernel), ready_of (by decide +kernel), src2 (by decide +kernel), clear_of (k := 0) (by decide +kernel)⟩

theorem witness_LocalStores : Ready 0 [1, 6] base ∧ sourcesOf [1, 6] base = some ([0, 7], base) ∧ LocalClear 0 (bytesOfSize 3) false true [(0, 8)] base ∧
    LocalClear 0 64 false true (pieces 0 0 64) base ∧ Ready 0 [1, 2, 6] base ∧ sourcesOf [1, 2, 6] base = some ([0, 0, 7], base) ∧ (7 : Word).toNat % bytesOfSize 3 ≠ 0 :=
  ⟨ready_of (by decide +kernel), src2 (by decide +kernel), clear_of (k := 0) (by decide +kernel), clear_of (k := 0) (by decide +kernel), ready_of (by decide +kernel), src3 (by decide +kernel), by decide +kernel⟩

/-- Region 0 grants writes of [0, 256) alone. -/
theorem witness_LocalStores_bounds : let s := (withG 8 256 base).modCsr fun c => { c with region := vset c.region 0 (word (2 ^ 25 + 2 ^ 10)) }
    Ready 0 [8, 6] s ∧ sourcesOf [8, 6] s = some ([256, 7], s) ∧ s.st.regionFor 256 8 false true = none ∧ LocalClear 248 8 false true [(248, 8)] s :=
  ⟨ready_of (by decide +kernel), src2 (by decide +kernel), by decide +kernel, clear_of (k := 0) (by decide +kernel)⟩

theorem witness_ExactAccumulators : Ready 0 [1, 6] base ∧ sourcesOf [1, 6] base = some ([0, 7], base) ∧ AccClear 0 true (pieces 0 0 80) base ∧ Ready 0 [1] base ∧ sourcesOf [1] base = some ([0], base) ∧
    Ready 0 [5, 1] base ∧ AccClear 0 false (pieces 0 0 80) base ∧ writeOf 5 0 base = some (base.setG 5 0) ∧ Ready 0 [6, 6] base ∧ sourcesOf [6, 6] base = some ([7, 7], base) ∧ (7 : Word).toNat % 2 ^ 18 % 16 ≠ 0 :=
  ⟨ready_of (by decide +kernel), src2 (by decide +kernel), acc_of (k := 0) (by decide +kernel), ready_of (by decide +kernel), src1 (by decide +kernel), ready_of (by decide +kernel),
    acc_of (k := 0) (by decide +kernel), dst1 (by decide), ready_of (by decide +kernel), src2 (by decide +kernel), by decide +kernel⟩

/-- A second accumulator at 96. -/
theorem witness_ExactAccumulators_merge : let s := withG 8 96 base
    Ready 0 [1, 8] s ∧ sourcesOf [1, 8] s = some ([0, 96], s) ∧ AccClear 0 true (pieces 0 0 80) s ∧ (96 : Word).toNat % 16 = 0 ∧ AccClear 96 false (pieces 0 96 80) s :=
  ⟨ready_of (by decide +kernel), src2 (by decide +kernel), acc_of (k := 0) (by decide +kernel), by decide +kernel, acc_of (k := 0) (by decide +kernel)⟩

/-- An accumulator of one unit, rounded with the inexact trap enabled, raises UF and NX. -/
theorem witness_ExactAccumulators_trap : (accRound f32 (2 ^ 10 - 32) 1).2 &&& enables (2 ^ 10 - 32) ≠ 0 := by decide +kernel

/-! ## Witnesses: engines, messages, queues, synchronisation, gangs, tapes -/

theorem witness_EngineRegistersAndWaits : Ready 0 [6] base ∧ sourcesOf [6] base = some ([7], base) ∧ Ready 0 [] base ∧
    (∀ k, base.st.unretired k ≤ 0) ∧ base.st.report (fun _ => 0) = none ∧ ReadyPlain 0 [] base ∧ base.core.allOps = [] ∧ base.st.ops = [] :=
  ⟨ready_of (by decide +kernel), src1 (by decide +kernel), ready_of (by decide +kernel), fun k => by cases k <;> decide +kernel, by decide +kernel,
    plain_of (by decide +kernel) (by decide +kernel), by decide +kernel, by decide +kernel⟩

/-- One outstanding copy; a failed one that has completed. -/
def copying : State := base.modSt fun t => { t with ops := [{ id := 3, kind := .copy, cls := .c }], issued := vset t.issued 2 1 }
def failedCopy : State := base.modSt fun t => { t with ops := [{ id := 3, kind := .copy, cls := .c, complete := true, fail := some { code := 0x0C } }], issued := vset t.issued 2 1 }

theorem witness_EngineRegistersAndWaits_wait : Ready 0 [] copying ∧ (∃ k, (0 : Nat) < copying.st.unretired k) ∧ Ready 0 [] failedCopy ∧ (∀ k, failedCopy.st.unretired k ≤ 0) ∧
    failedCopy.st.report (fun _ => 0) = some { id := 3, kind := .copy, cls := .c, complete := true, fail := some { code := 0x0C } } :=
  ⟨ready_of (by decide +kernel), ⟨.c, by decide +kernel⟩, ready_of (by decide +kernel), fun k => by cases k <;> decide +kernel, by decide +kernel⟩

/-- The scope of core (0, 0) alone is well-formed, one whose x0 is above its x1 is not; a remote store to core (0, 0) is in the scope of that core. -/
theorem witness_EngineRegistersAndWaits_fence : ReadyPlain 0 [1] base ∧ sourcesOf [1] base = some ([0], base) ∧
    ((0 : Word).toNat < 2 ^ 49 ∧ bits (0 : Word).toNat 11 0 ≤ bits (0 : Word).toNat 35 24 ∧ bits (0 : Word).toNat 23 12 ≤ bits (0 : Word).toNat 47 36) ∧
    ¬ bits (1 : Word).toNat 11 0 ≤ bits (1 : Word).toNat 35 24 ∧
    ((withOps [{ id := 4, kind := .rst, cls := .s }] base).st.ops.any fun o => !o.complete && base.fenced 0 o) = true :=
  ⟨plain_of (by decide +kernel) (by decide +kernel), src1 (by decide +kernel), by decide +kernel, by decide +kernel, by decide +kernel⟩

/-- The pointers 0 (in range), 2^48 - 8 moved by 8 (outside), and 7 (misaligned for 8 bytes). -/
theorem witness_GlobalAccessIssue : Ready 0 [5, 1] base ∧ sourcesOf [1] base = some ([0], base) ∧ base.st.unretired .l < 63 ∧ base.st.unretired .s < 63 ∧ base.leafNow 0 = none ∧
    base.st.ops = [] ∧ Ready 0 [1, 6] base ∧ sourcesOf [1, 6] base = some ([0, 7], base) ∧
    ((2 ^ 48 - 8 : Nat) + (BitVec.ofNat 9 1).toInt * bytesOfSize 3 = 2 ^ 48) ∧ (0 + (BitVec.ofNat 9 511).toInt * bytesOfSize 3 < 0) ∧ sourcesOf [6] base = some ([7], base) ∧ (7 % 8 ≠ 0) :=
  ⟨ready_of (by decide +kernel), src1 (by decide +kernel), by decide +kernel, by decide +kernel, by decide +kernel, by decide +kernel, ready_of (by decide +kernel), src2 (by decide +kernel),
    by decide +kernel, by decide +kernel, src1 (by decide +kernel), by decide +kernel⟩

/-- A page in the scratchpad of core (1, 0). -/
theorem witness_GlobalAccessIssue_far : let e : TlbEntry := { gid := 7, base := 0x30000, size := 65536, dw0 := 0x10073, dw1 := 0, place := 0 }
    let s := (withG 8 0x30000 crewed).modCore fun c => { c with dtlb := [e] }
    Ready 0 [5, 8] s ∧ sourcesOf [8] s = some ([0x30000], s) ∧ Ready 0 [8, 6] s ∧ sourcesOf [8, 6] s = some ([0x30000, 7], s) ∧ s.cached 0x30000 = some e ∧ e.type = 4 ∧ e.scratchCore ≠ s.here ∧
    s.replyFree = true ∧ s.outFull = false ∧ s.st.unretired .l < 63 ∧ s.st.unretired .s < 63 ∧ s.st.ops = [] :=
  ⟨ready_of (by decide +kernel), src1 (by decide +kernel), ready_of (by decide +kernel), src2 (by decide +kernel), by decide +kernel, by decide +kernel, by decide +kernel, by decide +kernel,
    by decide +kernel, by decide +kernel, by decide +kernel, by decide +kernel⟩

theorem witness_CopyAndIndexIssue : ReadyPlain 0 [6, 7] base ∧ sourcesOf [6, 7] base = some ([7, 9], base) ∧ sourcesOf [7] base = some ([9], base) ∧ base.st.unretired .c < 63 ∧ base.st.promised < 16 ∧
    (base.cluster base.cl).locks.length < 64 ∧ base.core.ranges.length = 0 ∧ base.ownRanges [(7, 8)] = 0 ∧ base.core.allOps = [] :=
  ⟨plain_of (by decide +kernel) (by decide +kernel), src2 (by decide +kernel), src1 (by decide +kernel), by decide +kernel, by decide +kernel, by decide +kernel, by decide +kernel, by decide +kernel, by decide +kernel⟩

/-- Tiles 0 and 1 of 16 rows of 32 BF16 values (format 10), accumulator 0 of 16 by 16, tile 2 of blocks; the pointer in g8 agrees with tile 0. The strand
holds the lease. -/
def tiled : State := (withG 8 (10 * 2 ^ 58) leased).modCore fun c => { c with
  tgeom := vset (vset (vset c.tgeom 0 (word (16 + 32 * 64 + 10 * 2 ^ 16))) 1 (word (16 + 32 * 64 + 10 * 2 ^ 16))) 2 (word (16 + 32 * 64 + 16 * 2 ^ 16 + 5 * 2 ^ 22))
  ageom := vset c.ageom 0 (word (16 + 16 * 64)) }

theorem witness_TileAndMatrixIssue : ReadyPlain 0 [8] tiled ∧ sourcesOf [8] tiled = some ([word (10 * 2 ^ 58)], tiled) ∧ tiled.core.tileOk 0 = true ∧
    ptrDisagrees 0 (tiled.core.geomOf 0) (word (10 * 2 ^ 58)) = false ∧ tiled.st.unretired .t < 63 ∧ (tiled.cluster tiled.cl).locks.length < 64 ∧
    tiled.core.tileBusy 0 true = none ∧ tiled.core.tileBusy 0 false = none ∧ geomOk (tiled.core.geomOf 2) = true ∧ fmtBlock (geomFmt (tiled.core.geomOf 2)) = true ∧ tiled.core.tileBusy 2 true = none :=
  ⟨plain_of (by decide +kernel) (by decide +kernel), src1 (by decide +kernel), by decide +kernel, by decide +kernel, by decide +kernel, by decide +kernel, by decide +kernel, by decide +kernel,
    by decide +kernel, by decide +kernel, by decide +kernel⟩

theorem witness_TileAndMatrixIssue_step : ReadyPlain 0 [] tiled ∧ (tiled.cluster tiled.cl).lease.holds tiled.leaseMe false = true ∧
    stepFail 0 (tiled.core.geomOf 0) (tiled.core.geomOf 1) (tiled.core.geomOf (8 + 0)) = none ∧ (tiled.cluster tiled.cl).lease.key = some tiled.leaseMe ∧
    (tiled.cluster tiled.cl).lease.over tiled.sys.now = false ∧ (tiled.cluster tiled.cl).mxq.length < 16 ∧ (base.cluster base.cl).lease.holds base.leaseMe false = false :=
  ⟨plain_of (by decide +kernel) (by decide +kernel), by decide +kernel, by decide +kernel, by decide +kernel, by decide +kernel, by decide +kernel, by decide +kernel⟩

/-- A sparse pair (format 0x21) by a BF16 tile for MXMAS, and two tiles of 8-bit integers for an integer accumulator for MXMT. -/
theorem witness_TileAndMatrixIssue_kinds : stepFail 1 (16 + 32 * 64 + 0x21 * 2 ^ 16) (16 + 32 * 64 + 10 * 2 ^ 16) (16 + 16 * 64) = none := by decide +kernel

/-- A two-flit message of kind 0 to the own core, whose handler is at 64. -/
def sending : State := withG 8 64 (withG 9 0 crewed)

theorem witness_MessagesSent : Ready 0 [8, 9] sending ∧ sending.st.task = none ∧ sendAllowed 0 0 (1 + 1) 0 (sending.g 8) sending = true ∧ sending.outFull = false ∧ sending.reaches ((sending.g 9).toNat % 2 ^ 24) = true ∧
    expects 0 (sending.g 8) = false ∧ sending.unsent sending.sys.nextId = false ∧ sending.hpStarted = false ∧ sending.replyFree = true ∧ sending.st.unretired .m < 63 ∧ sending.st.promised < 16 :=
  ⟨ready_of (by decide +kernel), by decide +kernel, by decide +kernel, by decide +kernel, by decide +kernel, by decide +kernel, by decide +kernel, by decide +kernel, by decide +kernel, by decide +kernel, by decide +kernel⟩

/-- A message of kind 0 to the crew's whole rectangle. -/
theorem witness_MessagesSent_many : let s := withG 9 (3 * 2 ^ 24 + 3 * 2 ^ 36) sending
    Ready 0 [8, 9] s ∧ s.crew = some { id := 1, job := 1, idx := 0, x0 := 0, y0 := 0, x1 := 3, y1 := 3 } ∧ bit (s.g 8).toNat 63 = false ∧
    inRect (pack 0 0) 0 0 3 3 = true ∧ inRect (pack 3 3) 0 0 3 3 = true :=
  ⟨ready_of (by decide +kernel), by decide +kernel, by decide +kernel, by decide +kernel, by decide +kernel⟩

theorem witness_MessagesSent_reply : let s := sending.modSt fun t => { t with start := some { h0 := header0 0 0 0 2 false false 64, h1 := header1 1 1 81 } }
    ReadyPlain 0 [8] s ∧ s.st.start = some { h0 := header0 0 0 0 2 false false 64, h1 := header1 1 1 81 } ∧
    ({ h0 := header0 0 0 0 2 false false 64, h1 := header1 1 1 81 } : Msg).kind = 0 ∧ s.st.replied = false ∧ s.st.q1.length ≤ 4 * (0 + 1) - 3 ∧ (s.g 8).toNat % 4 = 0 ∧ s.outFull = false ∧ s.unsent s.sys.nextId = false :=
  ⟨plain_of (by decide +kernel) (by decide +kernel), by decide +kernel, by decide +kernel, by decide +kernel, by decide +kernel, by decide +kernel, by decide +kernel, by decide +kernel⟩

/-- The layout of a block of 4 elements over the rectangle (0, 0) to (3, 3). -/
theorem witness_MessagesSent_owner : let s := withG 8 16 (base.modCore fun c => { c with scratch := (c.scratch.wrN 16 8 (3 * 2 ^ 24 + 3 * 2 ^ 36)).wrN 24 8 4 })
    Ready 0 [5, 6, 8] s ∧ sourcesOf [6, 8] s = some ([7, 16], s) ∧ LocalClear 16 16 true false (pieces 0 16 16) s ∧
    (let v := wordOfBytes (s.core.readPieces (pieces 0 16 16)); v % 2 ^ 64 < 2 ^ 49 ∧ v / 2 ^ 64 < 2 ^ 44 ∧ bits (v / 2 ^ 64) 23 0 = 4 ∧ bits v 11 0 ≤ bits v 35 24) :=
  ⟨ready_of (by decide +kernel), src2 (by decide +kernel), clear_of (k := 0) (by decide +kernel), by decide +kernel⟩

theorem witness_RemoteAccessIssue : ReadyPlain 0 [1, 2, 6] crewed ∧ sourcesOf [1, 2, 6] crewed = some ([0, 0, 7], crewed) ∧ ReadyPlain 0 [5, 1, 2] crewed ∧ sourcesOf [1, 2] crewed = some ([0, 0], crewed) ∧
    crewed.hpStarted = false ∧ crewed.replyFree = true ∧ crewed.outFull = false ∧ crewed.st.unretired .l < 63 ∧ crewed.st.unretired .s < 63 ∧ crewed.unsent crewed.sys.nextId = false ∧ crewed.behind crewed.sys.nextId 0 (some 0) [(0, 8)] = false ∧ sourcesOf [1, 6] crewed = some ([0, 7], crewed) :=
  ⟨plain_of (by decide +kernel) (by decide +kernel), src3 (by decide +kernel), plain_of (by decide +kernel) (by decide +kernel), src2 (by decide +kernel), by decide +kernel, by decide +kernel,
    by decide +kernel, by decide +kernel, by decide +kernel, by decide +kernel, by decide +kernel, src2 (by decide +kernel)⟩

/-- A handler that a completion reply (kind 3) started. -/
theorem witness_RemoteAccessIssue_hp : let s := crewed.modSt fun t => { t with start := some { h0 := header0 3 1 0 2 false false 64 } }
    ReadyPlain 0 [5, 1, 2] s ∧ sourcesOf [1, 2] s = some ([0, 0], s) ∧ s.hpStarted = true :=
  ⟨plain_of (by decide +kernel) (by decide +kernel), src2 (by decide +kernel), by decide +kernel⟩

theorem witness_QueueInstructions : ReadyPlain 0 [6] crewed ∧ sourcesOf [6] crewed = some ([7], crewed) ∧ ReadyPlain 0 [5, 6] crewed ∧ sourcesOf [6, 7] crewed = some ([7, 9], crewed) ∧
    crewed.st.waiting = .none ∧ crewed.hpStarted = false ∧ crewed.replyFree = true ∧ crewed.outFull = false ∧ crewed.unsent crewed.sys.nextId = false ∧ crewed.st.unretired .m < 63 :=
  ⟨plain_of (by decide +kernel) (by decide +kernel), src1 (by decide +kernel), plain_of (by decide +kernel) (by decide +kernel), src2 (by decide +kernel), by decide +kernel, by decide +kernel,
    by decide +kernel, by decide +kernel, by decide +kernel, by decide +kernel⟩

/-- The answers success, full and empty (codes 0, 1 and 2) raise no trap. -/
theorem witness_QueueInstructions_answered : let s (n : Word) := crewed.modSt fun t => { t with waiting := .answer 1 (some [n, 5]) 0 }
    answerTrap (s 0) [0, 5] = none ∧ answerCode [0, 5] = 0 ∧ answerTrap (s 1) [1, 5] = none ∧ answerCode [1, 5] = 1 ∧ answerTrap (s 2) [2, 5] = none ∧ answerCode [2, 5] = 2 ∧
    (s 0).st.waiting = .answer 1 (some [0, 5]) 0 := by decide +kernel

theorem witness_SyncIssue : ReadyPlain 0 [5, 1, 6] base ∧ sourcesOf [1, 6] base = some ([0, 7], base) ∧ ReadyPlain 0 [1, 6] base ∧ base.st.ops = [] ∧ base.st.unretired .l < 63 ∧ base.st.unretired .s < 63 ∧
    (0 : Word).toNat % (widthOf 0 / 8) = 0 ∧ sourcesOf [6, 7] base = some ([7, 9], base) ∧ (7 : Word).toNat % (widthOf 0 / 8) ≠ 0 ∧ ReadyPlain 0 [5, 1, 6, 7] base ∧
    sourcesOf [1, 6, 7] base = some ([0, 7, 9], base) ∧ sourcesOf [6, 6, 7] base = some ([7, 7, 9], base) ∧ (7 : Word).toNat % bytesOfSize 3 ≠ 0 ∧ ReadyPlain 0 [5, 6] base ∧ sourcesOf [6] base = some ([7], base) :=
  ⟨plain_of (by decide +kernel) (by decide +kernel), src2 (by decide +kernel), plain_of (by decide +kernel) (by decide +kernel), by decide +kernel, by decide +kernel, by decide +kernel, by decide +kernel,
    src2 (by decide +kernel), by decide +kernel, plain_of (by decide +kernel) (by decide +kernel), src3 (by decide +kernel), src3 (by decide +kernel), by decide +kernel, plain_of (by decide +kernel) (by decide +kernel), src1 (by decide +kernel)⟩

/-- A barrier cell at 0x10000 expecting two, in phase 0: phase 2^32 - 1 has passed, phase 0 has not. -/
theorem witness_SyncIssue_barrier : let s := (withG 8 0x10000 paged).setPhysN 0 8 2
    ReadyPlain 0 [8, 1] s ∧ sourcesOf [8, 1] s = some ([0x10000, 0], s) ∧ s.st.ops = [] ∧ s.st.waiting = .none ∧ (match s.syncAt 0x10000 true true with | (t, .cell 0 0) => decide (t = s) | _ => false) = true ∧
    s.cellType 0 = 2 ∧ s.scopeSpans (s.physN 8 8) = false ∧ phasePast (s.physN 24 8 % 2 ^ 32) 0 = false ∧ phasePast (s.physN 24 8 % 2 ^ 32) (2 ^ 32 - 1) = true :=
  ⟨plain_of (by decide +kernel) (by decide +kernel), src2 (by decide +kernel), by decide +kernel, by decide +kernel, by decide +kernel, by decide +kernel, by decide +kernel, by decide +kernel, by decide +kernel⟩

/-- A barrier wait whose phase has ended, and one that a store has ended. -/
theorem witness_SyncIssue_released : ∀ b : Bool, let s := base.modSt fun t => { t with waiting := .barrier 0 0 (some b) }
    ReadyPlain 0 [1, 6] s ∧ sourcesOf [1, 6] s = some ([0, 7], s) ∧ s.st.waiting = .barrier 0 0 (some b) := by
  intro b
  cases b <;> exact ⟨plain_of (by decide +kernel) (by decide +kernel), src2 (by decide +kernel), by decide +kernel⟩

theorem witness_TasksAndGangs : Ready 0 [5, 8, 9] (withG 8 64 base) ∧ (withG 8 64 base).st.q1.length ≤ 5 ∧ ((withG 8 64 base).g 8).toNat % 4 = 0 ∧ base.st.task = none ∧ base.st.unretired .s < 63 ∧
    tasked.st.task = some { ts := 5, id := 1, cluster := 0 } ∧ 5 ≤ ((withG 9 5 tasked).g 9).toNat ∧ ReadyPlain 0 [] base ∧ base.gangLeft 2 = none :=
  ⟨ready_of (by decide +kernel), by decide +kernel, by decide +kernel, by decide +kernel, by decide +kernel, by decide +kernel, by decide +kernel, plain_of (by decide +kernel) (by decide +kernel), by decide +kernel⟩

/-- In the crew of four columns a gang of two at column 0 is possible; its partner (1, 0) does not wait for it yet; and where it does, the gang forms. -/
theorem witness_TasksAndGangs_gang : let u := crewed.atCore 1 0 fun s => s.modSt fun t => { t with life := .wait, waiting := .gang 2 100 }
    ReadyPlain 0 [] crewed ∧ crewed.gangLeft 2 = some 0 ∧ crewed.st.waiting = .none ∧ (vget (crewed.coreAt (pack 1 0)).strands crewed.k {}).wantsGang 2 crewed.sys.now = false ∧
    (vget (u.coreAt (pack 1 0)).strands u.k {}).wantsGang 2 u.sys.now = true ∧ u.gangLeft 2 = some 0 ∧ u.st.waiting = .none :=
  ⟨plain_of (by decide +kernel) (by decide +kernel), by decide +kernel, by decide +kernel, by decide +kernel, by decide +kernel, by decide +kernel, by decide +kernel⟩

/-- A strand whose 65,536 cycles have passed. -/
theorem witness_TasksAndGangs_late : let s := crewed.modSt fun t => { t with waiting := .gang 2 0 }
    ReadyPlain 0 [] s ∧ s.gangLeft 2 = some 0 ∧ s.st.waiting = .gang 2 0 ∧ 0 ≤ s.sys.now :=
  ⟨plain_of (by decide +kernel) (by decide +kernel), by decide +kernel, by decide +kernel, by decide +kernel⟩

theorem witness_TasksAndGangs_gvt : (base.modSys fun y => { y with gvts := [(base.myJob, 9)] }).sys.gvts.find? (fun e => e.1 == base.myJob) = some (base.myJob, 9) := by decide +kernel

/-- The neighbour (1, 0) is ready for a strand of core (0, 0); core (9, 0) is outside the crew. -/
theorem witness_TasksAndGangs_neighbour : let s := withG 8 9 (withG 9 1 crewed)
    s.crew = some { id := 1, job := 1, idx := 0, x0 := 0, y0 := 0, x1 := 3, y1 := 3 } ∧ s.st.waiting = .none ∧ ReadyPlain 0 [5, 9] s ∧ inRect ((s.g 9).toNat % 2 ^ 24) 0 0 3 3 = true ∧
    inRect ((s.g 8).toNat % 2 ^ 24) 0 0 3 3 = false ∧ ReadyPlain 0 [5, 9, 1] s ∧ (s.g 1).toNat % 2 ^ 18 % 8 = 0 ∧
    (let s := (s.modSys fun y => { y with crews := [{ id := 1, job := 1, idx := 0, x0 := 0, y0 := 0, x1 := 3, y1 := 3 }] }).atCore 1 0 fun u => (u.modCore fun c => { c with crew := some 1 }).modSt fun t => { t with life := .run }
     let u := s.setP 1 false
     s.neighbourReady 1 = true ∧ u.behind u.sys.nextId 1 none [(0, 8)] = false ∧ (u.lockedFor (u.clusterKey 1) (scratchSide 1) [(0, 8)] true).isNone = true ∧ (u.coreAt 1).racy = false ∧
       (u.coreAt 1).softAt 0 8 true = none ∧ (u.focus 1 u.k).sleeping [(0, 8)] = []) ∧
    (let s := s.modSt fun t => { t with waiting := .none }; s.neighbourReady 1 = false) ∧ sourcesOf [9] s = some ([1], s) ∧ sourcesOf [9, 1] s = some ([1, 0], s) ∧ sourcesOf [8] s = some ([9], s) :=
  ⟨by decide +kernel, by decide +kernel, plain_of (by decide +kernel) (by decide +kernel), by decide +kernel, by decide +kernel, plain_of (by decide +kernel) (by decide +kernel), by decide +kernel, by decide +kernel, by decide +kernel,
    src1 (by decide +kernel), src2 (by decide +kernel), src1 (by decide +kernel)⟩

theorem witness_AttentionIssue : ReadyPlain 0 [1] base ∧ ReadyPlain 0 [1, 2] base ∧
    base.sleeping (((base.attRanges { kind := .asub, cls := .c }).1.flatMap fun r => (dwords r.1 (r.2 + 1 - r.1)).map fun d => (d * 8, 8))) = [] ∧
    base.st.unretired .c < 63 ∧ base.st.promised < 16 ∧ (base.cluster base.cl).locks.length < 64 ∧
    base.core.ranges.length + (base.attRanges { kind := .asub, cls := .c }).1.length + (base.attRanges { kind := .asub, cls := .c }).2.length +
      base.ownRanges (Op.attMemory { kind := .asub, cls := .c }).1 + base.ownRanges (Op.attMemory { kind := .asub, cls := .c }).2 ≤ 16 :=
  ⟨plain_of (by decide +kernel) (by decide +kernel), plain_of (by decide +kernel) (by decide +kernel), by decide +kernel, by decide +kernel, by decide +kernel, by decide +kernel, by decide +kernel⟩

/-- A core that records tape 1. -/
def recording : State := (withG 8 64 (withG 9 (2 ^ 48) crewed)).modCore fun c => { c with tape := { c.tape with recording := some 1 } }

theorem witness_TapeAndDebug : ReadyPlain 0 [6] crewed ∧ sourcesOf [6] crewed = some ([7], crewed) ∧ (crewed.mayRecord 7).isSome = true ∧ base.mayRecord 7 = none ∧ crewed.core.tape.recording = none ∧
    recording.core.tape.recording = some 1 ∧ ReadyPlain 0 [8] recording ∧ sourcesOf [8] recording = some ([64], recording) ∧ ReadyPlain 0 [8, 6] recording ∧
    sourcesOf [8, 6] recording = some ([64, 7], recording) ∧ (64 : Word).toNat % 8 = 0 ∧ (7 : Word).toNat % 8 ≠ 0 ∧ sourcesOf [6, 6] recording = some ([7, 7], recording) :=
  ⟨plain_of (by decide +kernel) (by decide +kernel), src1 (by decide +kernel), by decide +kernel, by decide +kernel, by decide +kernel, by decide +kernel, plain_of (by decide +kernel) (by decide +kernel),
    src1 (by decide +kernel), plain_of (by decide +kernel) (by decide +kernel), src2 (by decide +kernel), by decide +kernel, by decide +kernel, src2 (by decide +kernel)⟩

theorem witness_TapeAndDebug_replay : let s := withG 9 (2 ^ 48) crewed
    ReadyPlain 0 [6, 9] s ∧ s.crew = some { id := 1, job := 1, idx := 0, x0 := 0, y0 := 0, x1 := 3, y1 := 3 } ∧ sourcesOf [6, 9] s = some ([7, word (2 ^ 48)], s) ∧ (s.printOf s.core).isSome = false ∧
    s.sys.prints = [] ∧ bits (word (2 ^ 48)).toNat 53 48 ≠ 0 :=
  ⟨plain_of (by decide +kernel) (by decide +kernel), by decide +kernel, src2 (by decide +kernel), by decide +kernel, by decide +kernel, by decide +kernel⟩

theorem witness_TapeAndDebug_slots : (crewed.job.map fun j : Job => j.num) = some 81 ∧ Ready 0 [8, 6] (withG 8 64 crewed) ∧ sourcesOf [8, 6] (withG 8 64 crewed) = some ([64, 7], withG 8 64 crewed) ∧
    bits (64 : Word).toNat 60 48 = 0 ∧ (64 : Word).toNat % 4 = 0 ∧ (7 : Word).toNat % 4 ≠ 0 ∧ 7 < 8 ∧ ReadyPlain 0 [5] crewed :=
  ⟨by decide +kernel, ready_of (by decide +kernel), src2 (by decide +kernel), by decide +kernel, by decide +kernel, by decide +kernel, by decide, plain_of (by decide +kernel) (by decide +kernel)⟩

/-- The whole address space of 2^48 bytes is a range, one more page is not; and half a page is no range. -/
theorem witness_SystemInstructions : let s := withG 8 (2 ^ 48) (withG 9 0x8000 (withG 10 0x10000 crewed))
    let poor := crewed.modDie 0 fun d => { d with ctxs := [{ num := 1, dws := [0x70001] }] }
    ReadyPlain 0 [1, 8] s ∧ sourcesOf [1, 8] s = some ([0, word (2 ^ 48)], s) ∧ s.myCtx.right 8 = true ∧ (0 + (word (2 ^ 48)).toNat ≤ 2 ^ 48) ∧ sourcesOf [10, 8] s = some ([0x10000, word (2 ^ 48)], s) ∧
    2 ^ 48 < 0x10000 + (word (2 ^ 48)).toNat ∧ (0x8000 : Word).toNat % 65536 ≠ 0 ∧ s.st.waiting = .none ∧ poor.myCtx.right 8 = false ∧ poor.myCtx.right 10 = false ∧ s.myCtx.right 10 = true ∧
    poor.myCtx.right 11 = false ∧ s.myCtx.right 11 = true ∧ s.core.gate < 2 ^ 32 :=
  ⟨plain_of (by decide +kernel) (by decide +kernel), src2 (by decide +kernel), by decide +kernel, by decide +kernel, src2 (by decide +kernel), by decide +kernel, by decide +kernel, by decide +kernel,
    by decide +kernel, by decide +kernel, by decide +kernel, by decide +kernel, by decide +kernel, by decide +kernel⟩

theorem witness_SystemInstructions_ended : let s := crewed.modSt fun t => { t with waiting := .inval 0 65536 false true }
    ReadyPlain 0 [6, 7] s ∧ ReadyPlain 0 [] s ∧ s.st.waiting = .inval 0 65536 false true ∧ s.myCtx.right 8 = true ∧ ReadyPlain 0 [5, 6, 1] s ∧ sourcesOf [1, 1] s = some ([0, 0], s) ∧
    writeOf 5 1 s = some (s.setG 5 1) ∧ (7 : Word).toNat % 64 ≠ 0 :=
  ⟨plain_of (by decide +kernel) (by decide +kernel), plain_of (by decide +kernel) (by decide +kernel), by decide +kernel, by decide +kernel, plain_of (by decide +kernel) (by decide +kernel),
    src2 (by decide +kernel), dst1 (by decide), by decide +kernel⟩

/-- TLBINV of the whole address space asked for; ways of a bank without versions; descriptors read and written in the page at 0x20000. -/
theorem witness_SystemInstructions_effects : let s := withG 8 0x20000 paged
    ReadyPlain 0 [] s ∧ s.myCtx.right 8 = true ∧ s.st.waiting = .none ∧ ReadyPlain 0 [6] s ∧ sourcesOf [6] s = some ([7], s) ∧ s.core.gate < 2 ^ 32 ∧ s.myCtx.right 10 = true ∧ s.sys.versions = [] ∧
    ReadyPlain 0 [5, 6, 8] s ∧ sourcesOf [6, 8] s = some ([7, 0x20000], s) ∧ s.myCtx.right 11 = true ∧ (0x20000 : Word).toNat % 64 = 0 ∧ bits (0x20000 : Word).toNat 53 48 = 0 ∧ (7 : Word).toNat % 256 ≠ 0 ∧
    ((s.engineRead (s.partyNow 0) 0x20000 64).2 matches .ok _) ∧ ((s.engineWrite (s.partyNow 1) 0x20000 ((s.ctxSaved 0 7).flatMap (bytesOfWord 8))).2 matches .ok _) :=
  ⟨plain_of (by decide +kernel) (by decide +kernel), by decide +kernel, by decide +kernel, plain_of (by decide +kernel) (by decide +kernel), src1 (by decide +kernel), by decide +kernel, by decide +kernel,
    by decide +kernel, plain_of (by decide +kernel) (by decide +kernel), src2 (by decide +kernel), by decide +kernel, by decide +kernel, by decide +kernel, by decide +kernel, by decide +kernel, by decide +kernel⟩

theorem witness_SystemInstructions_badPointer : let s := withG 8 (2 ^ 48) (withG 9 0 crewed)
    ReadyPlain 0 [5, 6, 8] s ∧ sourcesOf [6, 8] s = some ([7, word (2 ^ 48)], s) ∧ s.myCtx.right 11 = true ∧ (word (2 ^ 48)).toNat % 64 = 0 ∧ (7 : Word).toNat % 256 ≠ 0 ∧ bits (word (2 ^ 48)).toNat 53 48 ≠ 0 ∧
    writeOf 5 0x406 s = some (s.setG 5 0x406) :=
  ⟨plain_of (by decide +kernel) (by decide +kernel), src2 (by decide +kernel), by decide +kernel, by decide +kernel, by decide, by decide +kernel, dst1 (by decide)⟩

/-! Witnesses of the events. -/

/-- The paged strand with one operation outstanding. -/
def waiting (o : Op) : State := withOps [o] paged

theorem waits_of {o : Op} {s : State}
    (h : s.inMesh s.here = true ∧ s.k < 16 ∧ s.st.opById o.id = some o ∧ o.complete = false ∧ (s.core.savedLocks.any fun e => e.op == o.id) = false) : Waits o s :=
  let ⟨mesh, strand, there, outstanding, locked⟩ := h
  { mesh, strand, there, outstanding, locked }

/-- What an access asks of the translation of its page. -/
abbrev leafNow (o : Op) (e : TlbEntry) (s : State) : Prop :=
  bits o.a.toNat 53 48 = 0 ∧ s.cached (o.a.toNat % 2 ^ 48) = some e ∧ s.accessBlocked o o.id = false ∧ e.promotes = false ∧ e.type < 4 ∧
    s.pathHeld (walkerDie s.cl) (e.dieIn s (e.serves o s) (o.a.toNat % 2 ^ 48)) = false ∧ s.keyless e.gid = false ∧ e.onHost = false ∧
    (s.mod (e.serves o s)).failed = false ∧ s.lockedBy s.cl s.me s.gid [(o.a.toNat % 2 ^ 48, o.n)] (o.kind == .gst) = none ∧ e.race = false

theorem leaf_of {o : Op} {e : TlbEntry} {s : State} (h : leafNow o e s) (allowed : if o.kind = .gst then e.w = true ∧ e.dup = false else e.r = true) : LeafClear o e s :=
  let ⟨pointer, hit, unblocked, stays, memory, way, keyed, host, works, locks, race⟩ := h
  { keyed := fun _ => keyed, host := by simp [host], pointer, hit, unblocked, stays, memory, way, works, allowed, locks, race }

/-- A load and a store of 8 bytes in the memory page. -/
def aLoad : Op := { id := 5, kind := .gld, a := 0x20008, n := 8, d := some 5 }
def aStore : Op := { id := 5, kind := .gst, cls := .s, a := 0x20010, n := 8, b := 77 }
def aPage : TlbEntry := { gid := 7, base := 0x20000, size := 65536, dw0 := 0x20063, dw1 := 0, place := 0 }

theorem witness_AccessesComplete_load : let s := waiting aLoad
    Waits aLoad s ∧ aLoad.started = false ∧ LeafClear aLoad aPage s ∧ s.st.task = none ∧ (s.readFrame aPage (aPage.readHome s (s.cl / 144)) (aLoad.a.toNat % 2 ^ 48) 8).isSome = true :=
  ⟨waits_of (by decide +kernel), rfl, leaf_of (by decide +kernel) (by decide +kernel), by decide +kernel, by decide +kernel⟩

theorem witness_AccessesComplete_store : Waits aStore (waiting aStore) ∧ LeafClear aStore aPage (waiting aStore) :=
  ⟨waits_of (by decide +kernel), leaf_of (by decide +kernel) (by decide +kernel)⟩

/-- The same of a task. -/
def aTask (o : Op) : State := (waiting o).modSt fun t => { t with task := some { ts := 5, id := 1, cluster := 0 } }

theorem witness_AccessesComplete_task : Waits aLoad (aTask aLoad) ∧ LeafClear aLoad aPage (aTask aLoad) ∧ aPage.type < 2 ∧ Waits aStore (aTask aStore) ∧ LeafClear aStore aPage (aTask aStore) ∧
    (aTask aStore).sys.versions = [] ∧ (aTask aStore).sys.readers = [] ∧ (aTask aStore).pathHeld (aTask aStore).dk (aPage.leafDie (aTask aStore) 0x20010) = false ∧
    ((aTask aLoad).readFrame aPage (aPage.readHome (aTask aLoad) 0) 0x20008 8).isSome = true :=
  ⟨waits_of (by decide +kernel), leaf_of (by decide +kernel) (by decide +kernel), by decide +kernel, waits_of (by decide +kernel), leaf_of (by decide +kernel) (by decide +kernel), by decide +kernel, by decide +kernel, by decide +kernel, by decide +kernel⟩

/-- The paged strand with a table of three levels above the page at 0x40000; the page at 0x50000 is absent, the one at 0x60000 not mapped. -/
def tabled : State :=
  let s := paged.modDie 0 fun d => { d with ctxs := [{ num := 1, dws := [0x71F01, 0x100000, 0, 0, word (47 * 2 ^ 24 + 47 * 2 ^ 36)] }] }
  ((((s.setPhysN (memKey 0 0 0x100000) 8 0x200001).setPhysN (memKey 0 0 0x200000) 8 0x300001).setPhysN (memKey 0 0 0x300000) 8 0x400001).setPhysN
    (memKey 0 0 (0x400000 + 64)) 8 0x50063).setPhysN (memKey 0 0 (0x400000 + 80)) 8 2

/-- The same with the page at 0x20000 in the table, for the walkers of the engines. -/
def rooted : State := tabled.setPhysN (memKey 0 0 (0x400000 + 32)) 8 0x20063

/-- The state 5 ns later. -/
def later (s : State) : State := s.modSys fun y => { y with now := y.now + 5 }

/-- A load at an address with its walk. -/
def far (va at_ : Nat) : Op := { id := 5, kind := .gld, a := word va, n := 8, d := some 5, absentAt := at_ }

theorem witness_AccessesComplete_walk : let s (va : Nat) := withOps [far va 0] tabled
    Waits (far 0x40008 0) (s 0x40008) ∧ (far 0x40008 0).walks = true ∧ (s 0x40008).cached 0x40008 = none ∧ (((s 0x40008).setWalking (far 0x40008 0) false).walkIn 7 0x40008 0).2 matches .leaf _ ∧
    (((s 0x50000).setWalking (far 0x50000 0) false).walkIn 7 0x50000 0).2 matches .absent ∧ (((s 0x60000).setWalking (far 0x60000 0) false).walkIn 7 0x60000 0).2 matches .unmapped ∧ (s 0).gid = 7 ∧ (s 0).cl = 0 ∧
    (s 0x40008).walkRoom 7 0x40008 0 = true ∧ Waits (far 0x40008 1) (later (withOps [far 0x40008 1] tabled)) ∧ 1 ≤ (later (withOps [far 0x40008 1] tabled)).sys.now :=
  ⟨waits_of (by decide +kernel), by decide +kernel, by decide +kernel, by decide +kernel, by decide +kernel, by decide +kernel, by decide +kernel, by decide +kernel, by decide +kernel,
    waits_of (by decide +kernel), by decide +kernel⟩

/-- A die whose fault queue 3 is a ring of 16 entries at 0x20000. -/
def faulty (routed : Bool) : State := rooted.modDie 0 fun d => { d with
  faultBuf := [(List.replicate 17 (0 : Word)).set 8 1]
  queues := [{ idx := 3, valid := true, owner := 1, log2cap := 4, ring := 0x20000 }]
  routes := if routed then [(1, 2 ^ 32 + 3)] else [] }

theorem witness_AccessesComplete_faults : (faulty true).isDie 0 = true ∧ (∀ r ∈ ((faulty false).die 0).faultBuf, (faulty false).faultRoute 0 ((r.getD 8 0).toNat % 256) = none) ∧
    ((faulty true).die 0).faultBuf = [(List.replicate 17 (0 : Word)).set 8 1] ∧ (faulty true).faultRoute 0 1 = some (0, 3) ∧
    ((faulty true).publishAll 0 3 (List.replicate 2 (List.replicate 64 (0 : Byte)))).2 = true :=
  ⟨by decide +kernel, by decide +kernel, by decide +kernel, by decide +kernel, by decide +kernel⟩

/-- Atomics on the cell at 0x10000, on its byte `off`. -/
def atomic (kind : OpKind) (op : Nat) (off : Nat) (b : Word) : Op := { id := 5, kind := kind, a := word (0x10000 + off), n := if kind = .famo then 0 else 8, op := op, b := b, c := 9, d := some 5 }
def cell (o : Op) : State × SyncAt := (waiting o).syncAt o.a (o.cls == .l) true

theorem witness_SyncAccessesComplete : let ok (o : Op) : Bool := !(waiting o).syncBehind o && (match cell o with
      | (w, .cell key off) => w.cellType key == 0 && off == 16
      | _ => false)
    Waits (atomic .amo 0 16 3) (waiting (atomic .amo 0 16 3)) ∧ ok (atomic .amo 0 16 3) = true ∧
    Waits (atomic .amocas 0 16 0) (waiting (atomic .amocas 0 16 0)) ∧ ok (atomic .amocas 0 16 0) = true ∧
    Waits (atomic .famo 1 16 0x3F800000) (waiting (atomic .famo 1 16 0x3F800000)) ∧ ok (atomic .famo 1 16 0x3F800000) = true ∧
    (f32.minmax false 0 0 0x3F800000).2 = 0 :=
  ⟨waits_of (by decide +kernel), by decide +kernel, waits_of (by decide +kernel), by decide +kernel, waits_of (by decide +kernel), by decide +kernel, by decide +kernel⟩

/-- A barrier cell of two parties of which one has arrived, or none. -/
def barrier (arrived : Nat) : State := ((waiting (atomic .arrive 0 0 0)).setPhysN (memKey 0 0 0) 8 2).setPhysN (memKey 0 0 16) 8 (2 + arrived * 2 ^ 32)

theorem witness_SyncAccessesComplete_barrier : ∀ n ∈ [0, 1], Waits (atomic .arrive 0 0 0) (barrier n) ∧ (barrier n).syncBehind (atomic .arrive 0 0 0) = false ∧
    (match (barrier n).syncAt (word 0x10000) true true with
      | (w, .cell key off) => w.cellType key == 2 && off == 0 && w.physN (key + 16) 8 % 2 ^ 32 == 2 && w.physN (key + 16) 8 / 2 ^ 32 == n
      | _ => false) = true := by
  intro n h
  simp only [List.mem_cons, List.not_mem_nil, or_false] at h
  rcases h with rfl | rfl
  · exact ⟨waits_of (by decide +kernel), by decide +kernel, by decide +kernel⟩
  · exact ⟨waits_of (by decide +kernel), by decide +kernel, by decide +kernel⟩

/-! Copies, tiles, the array. -/

/-- A copy of n bytes from 0x20000 to 0x2F000, of which `at_` have gone. -/
def aCopy (n at_ : Nat) : Op := { id := 5, kind := .copy, cls := .c, a := 0x2F000, b := 0x20000, regs := [word n, 0, 0, 0, 0, 0, 0, 0], op := 1, done := [at_, 0] }

theorem witness_CopiesAndTilesComplete_copy : let go (n at_ : Nat) : Bool := (aCopy n at_).copy.check (aCopy n at_).a (aCopy n at_).b none == none &&
      (match ((waiting (aCopy n at_)).copyPiece ((waiting (aCopy n at_)).party (aCopy n at_)) (aCopy n at_).copy (aCopy n at_).copied).2 with
        | .ok d => d.fail.isNone && decide (n ≤ d.i) && d.fl == 0
        | _ => false)
    Waits (aCopy 0 0) (waiting (aCopy 0 0)) ∧ (aCopy 0 0).copy.check (aCopy 0 0).a (aCopy 0 0).b none = some none ∧ (aCopy 0 0).absentAt ≤ (waiting (aCopy 0 0)).sys.now ∧
    Waits (aCopy 8 0) (waiting (aCopy 8 0)) ∧ go 8 0 = true :=
  ⟨waits_of (by decide +kernel), by decide +kernel, by decide +kernel, waits_of (by decide +kernel), by decide +kernel⟩

/-- A copy from the page at 0x20000 over its end into the page at 0x30000 of the scratchpad has a first piece and a second. -/
def overEnd : Op := { id := 5, kind := .copy, cls := .c, a := 0x20000, b := 0x2FFF8, regs := [16, 0, 0, 0, 0, 0, 0, 0], op := 1 }

theorem witness_CopiesAndTilesComplete_pieces : Waits overEnd (waiting overEnd) ∧ overEnd.copy.check overEnd.a overEnd.b none = none ∧
    (match ((waiting overEnd).copyPiece ((waiting overEnd).party overEnd) overEnd.copy overEnd.copied).2 with
      | .ok d => d.fail.isNone && d.i == 8
      | _ => false) = true :=
  ⟨waits_of (by decide +kernel), by decide +kernel, by decide +kernel⟩

/-- A copy of 8 values armed for tile 2. -/
def anArmed (started : Bool) : Op := { id := 5, kind := .armed, cls := .c, a := 0, b := word (0x20000 + 10 * 2 ^ 58), regs := [8, 1, 1, 0, 0, 0, 0, 0], op := 1, sgn := true, geoms := [word (1 + 8 * 64 + 10 * 2 ^ 16)], target := 2, started := started }

theorem witness_CopiesAndTilesComplete_armed : Waits (anArmed false) (waiting (anArmed false)) ∧ (waiting (anArmed false)).core.tileBlocked (anArmed false) = false ∧
    Waits (anArmed true) (waiting (anArmed true)) ∧ (anArmed true).copy.check (anArmed true).a (anArmed true).b (anArmed true).arm = none ∧
    (match (armedRuns ((waiting (anArmed true)).party (anArmed true)) (anArmed true).copy ((anArmed true).copy.runs * (anArmed true).copy.planes) 0 (waiting (anArmed true))).2 with
      | .ok ws fl => blockCheck (1 + 8 * 64 + 10 * 2 ^ 16) (ws.flatMap (·.2)) == none && fl == 0
      | _ => false) = true :=
  ⟨waits_of (by decide +kernel), by decide +kernel, waits_of (by decide +kernel), by decide +kernel, by decide +kernel⟩

/-- Commands of tile 2 on a row of 8 values, and on a block of 32. -/
def tileOp (kind : OpKind) : Op := { id := 5, kind := kind, cls := .t, a := word (0x20000 + 10 * 2 ^ 58), n := 2, regs := [1, 0], geoms := [word (1 + 8 * 64 + 10 * 2 ^ 16)] }
def blockOp (kind : OpKind) : Op := { tileOp kind with geoms := [word (1 + 32 * 64 + 16 * 2 ^ 16 + 5 * 2 ^ 22)] }

theorem witness_CopiesAndTilesComplete_tile : let r := tileRows 2 (1 + 8 * 64 + 10 * 2 ^ 16) 1
    (∀ k ∈ [OpKind.tzero, .tld, .tst], Waits (tileOp k) (waiting (tileOp k)) ∧ (waiting (tileOp k)).core.tileBlocked (tileOp k) = false) ∧
    ptrBad (tileOp .tld).a = false ∧ (boundRuns 0x20000 r.stride r.n r.len).isSome = true ∧
    ((readRows ((waiting (tileOp .tld)).party (tileOp .tld)) 0x20000 r r.n 0 (waiting (tileOp .tld))).2 matches .ok _) ∧ blockCheck (1 + 8 * 64 + 10 * 2 ^ 16) [] = none ∧
    ((writeRows ((waiting (tileOp .tst)).party (tileOp .tst)) 0x20000 r r.n 0 (rowsOf r ((waiting (tileOp .tst)).core.tileBytes 2)) (waiting (tileOp .tst)) none).2 matches .ok _) := by
  refine ⟨?_, by decide +kernel, by decide +kernel, by decide +kernel, by decide +kernel, by decide +kernel⟩
  intro k h
  simp only [List.mem_cons, List.not_mem_nil, or_false] at h
  rcases h with rfl | rfl | rfl
  all_goals exact ⟨waits_of (by decide +kernel), by decide +kernel⟩

theorem witness_CopiesAndTilesComplete_quantise : let g := 1 + 32 * 64 + 16 * 2 ^ 16 + 5 * 2 ^ 22
    let r := quantRows g 2 0
    let s := waiting (blockOp .qnt)
    Waits (blockOp .qnt) s ∧ s.core.tileBlocked (blockOp .qnt) = false ∧ quantSize (blockOp .qnt).a = 2 ∧ ptrFmt (blockOp .qnt).a = 10 ∧ (boundRuns 0x20000 r.stride r.n r.len).isSome = true ∧
    ((readRows (s.party (blockOp .qnt)) 0x20000 r r.n 0 s).2 matches .ok _) ∧
    (quantImage g ((chunks (2 ^ geomBlen g) 4096 (lanes 16 32 0)).map (quantBlock 2 g 1 0)) (s.core.tileBytes 2) matches .ok _) ∧
    enables 0 = 0 ∧ ((blockOp .qnt).regs.getD 0 0).toNat % 8 = 1 :=
  ⟨waits_of (by decide +kernel), by decide +kernel, by decide +kernel, by decide +kernel, by decide +kernel, by decide +kernel, by decide +kernel, by decide, by decide⟩

theorem witness_CopiesAndTilesComplete_dqnt : let g := 1 + 8 * 64 + 10 * 2 ^ 16
    let r := quantRows g 2 0
    let s := waiting (tileOp .dqnt)
    Waits (tileOp .dqnt) s ∧ s.core.tileBlocked (tileOp .dqnt) = false ∧ blockCheck g (s.core.tileBytes 2) = none ∧
    ((writeRows (s.party (tileOp .dqnt)) 0x20000 r r.n 0 (List.replicate 16 0) s none).2 matches .ok _) :=
  ⟨waits_of (by decide +kernel), by decide +kernel, by decide +kernel, by decide +kernel⟩

/-- A matrix step of two tiles of 16 rows queued for the strand, not yet executing or executing. -/
def aStep (executing : Bool) : MxCmd := { id := 5, core := 0, strand := 0, pc := 0, word := 0, acc := 0, ta := 0, tb := 1, zero := true, kind := 0, fpctl := 0, reg := 0, tgeomA := word (16 + 32 * 64 + 10 * 2 ^ 16), tgeomB := word (16 + 32 * 64 + 10 * 2 ^ 16), ageom := word (16 + 16 * 64), executing := executing }
def aStepOp : Op := { id := 5, kind := .mxstep, cls := .t }
def queued (executing : Bool) : State := (waiting aStepOp).modCluster 0 fun c => { c with mxq := [aStep executing] }

theorem witness_MatrixAndIndexComplete_step : ((queued false).cluster 0).mxq.find? (fun m => !m.executing) = some (aStep false) ∧ (queued false).inMesh (queued false).here = true ∧
    (queued false).here = (aStep false).core ∧ (queued false).k = (aStep false).strand ∧ (queued false).st.opById 5 = some aStepOp ∧ (queued false).core.tileBlocked aStepOp = false ∧
    (queued false).core.stepPoison (aStep false) = none ∧ tileCheck (aStep false).tgeomA.toNat [] = none ∧
    ((queued true).cluster 0).mxq.find? (fun m => m.executing) = some (aStep true) ∧ (queued true).st.opById 5 = some aStepOp ∧ aStepOp.d = none ∧ (aStep true).status = none ∧
    ((aStep true).flags % 32) &&& enables aStepOp.fpctl = 0 := by decide +kernel

/-- PART of two rows of the row pointers at 0x20000 over one part. -/
def aPart : Op := { id := 5, kind := .part, cls := .c, op := 1, a := 0x20100, b := 0x20000, regs := [2, 0, 0, 0, 0, 0, 1, 0, 0, 0, 0, 0] }

theorem witness_MatrixAndIndexComplete_index : let s := waiting aPart
    Waits aPart s ∧ aPart.kind.engine = 2 ∧ (idxPlan aPart.op aPart.a aPart.b aPart.regs (s.idxNow (s.party aPart) aPart)).check = none ∧ s.idxBusy aPart.id = false ∧ aPart.absentAt ≤ s.sys.now ∧
    (match s.idxRun (s.party aPart) aPart with
      | (u, .ok r) => r.fail == none && r.fl == 0 && ((writeAll (s.party aPart) r.ws u none).2 matches .ok _)
      | (_, .error _) => false) = true ∧ s.st.ops = [aPart] :=
  ⟨waits_of (by decide +kernel), by decide +kernel, by decide +kernel, by decide +kernel, by decide +kernel, by decide +kernel, by decide +kernel⟩

/-! Messages. -/

/-- A message of channel 0 of the job from core (0, 1) to core (0, 0), on its way. -/
def letter (kind pri flits target : Nat) (pay : List Word) : Msg := { h0 := header0 kind pri 0 flits false false target, h1 := header1 0 (pack 0 1) 81, pay := pay, gid := 7 }
def flying (m : Msg) : State := paged.modSys fun y => { y with flight := [m] }
def landed (m : Msg) : State := ((flying m).modSys fun y => { y with flight := y.flight.eraseIdx 0 }).focus m.dst 0

/-- What a message asks of its destination: a core of the mesh, at work for its job, which takes it now. -/
abbrev arrivesNow (m : Msg) (s out : State) : Prop :=
  s.deliverable 0 = true ∧ s.inMesh m.dst = true ∧ m.malformed = false ∧ out.core.fenced = false ∧ (out.mod (out.moduleOf m.dst)).failed = false ∧
    out.core.crew.isSome = true ∧ (out.job.map fun j : Job => j.num) = some m.job ∧ out.regionOk m out.gid = true

theorem arrives_in {m : Msg} {s out : State} (at_ : out = (s.modSys fun y => { y with flight := y.flight.eraseIdx 0 }).focus m.dst 0)
    (first : s.sys.flight[0]? = some m) (now : m = { m with arrived := s.sys.now }) (h : arrivesNow m s out) : Arrives 0 m s out :=
  let ⟨turn, mesh, sound, unfenced, works, crew, job, region⟩ := h
  { there := ⟨m, first, now⟩, turn, mesh, at_, sound, unfenced, works, crew, job, region }

theorem arrives_of {m : Msg} (now : m = { m with arrived := (flying m).sys.now }) (h : arrivesNow m (flying m) (landed m)) : Arrives 0 m (flying m) (landed m) :=
  arrives_in rfl rfl now h

/-- Requests to the array agent, to the copy agent, to an engine without an agent. -/
def request (engine : Nat) (pay : List Word) : Msg := letter 6 0 4 engine pay

theorem witness_EngineAgents_request : (∀ e ∈ [1, 3, 5], Arrives 0 (request e []) (flying (request e [])) (landed (request e [])) ∧ (request e []).kind = 6 ∧ (request e []).target = e) ∧
    (crewed.cluster 0).agent = [] ∧ (crewed.cluster 0).copyAgent = [] := by
  refine ⟨?_, by decide +kernel, by decide +kernel⟩
  intro e h
  simp only [List.mem_cons, List.not_mem_nil, or_false] at h
  rcases h with rfl | rfl | rfl
  all_goals exact ⟨arrives_of rfl (by decide +kernel), by decide +kernel, by decide +kernel⟩

theorem witness_EngineAgents_elsewhere : let m : Msg := { request 2 [] with h1 := header1 (pack 1 0) (pack 0 1) 81 }
    let s := (flying m).atCore (pack 1 0) 0 fun s => s.modCore fun c => { c with crew := some 1 }
    Arrives 0 m s ((s.modSys fun y => { y with flight := y.flight.eraseIdx 0 }).focus m.dst 0) ∧ m.kind = 6 ∧ m.target = 2 ∧
      s.dieCorner (s.dieKey m.dst) ≠ m.dst :=
  ⟨⟨⟨_, rfl, by decide +kernel⟩, by decide +kernel, by decide +kernel, rfl, by decide +kernel, by decide +kernel, by decide +kernel,
    by decide +kernel, by decide +kernel, by decide +kernel⟩, by decide +kernel, by decide +kernel, by decide +kernel⟩

/-- A request of 8 bytes from 0x20000 to 0x20100 for the copy agent, of a kind of its own; at its stage. -/
def copyReq (n : Nat) : Msg := request 3 [word (0x52 * 2 ^ 25 + 2 ^ 18), 0x2F000, 0x20000, word n, 0, 0, 0, 0, 0, 0, 0, 0, 0]
def agents (r : AgentReq) : State := paged.modCluster 0 fun c => { c with copyAgent := [r], agent := [r] }

theorem witness_EngineAgents_copy : (copyReq 8).copyOk = true ∧ (copyReq 8).copyOf.check ((copyReq 8).word 1) ((copyReq 8).word 2) none = none ∧
    ((agents { msg := copyReq 8 }).cluster 0).copyAgent = [{ msg := copyReq 8 }] ∧ ((agents { msg := copyReq 8 }).cluster 0).locks = [] ∧
    (match (agents { msg := copyReq 8, stage := 1 }).copyPiece ((copyReq 8).party 0) (copyReq 8).copyOf {} with
      | (_, .ok d) => d.fail.isNone && d.i == 8 && d.fl == 0
      | _ => false) = true := by decide +kernel

/-- The request of a copy over the end of a page goes forward by its first piece. -/
theorem witness_EngineAgents_piece : let m := request 3 [word (0x52 * 2 ^ 25 + 2 ^ 18), 0x20000, 0x2FFF8, 16, 0, 0, 0, 0, 0, 0, 0, 0, 0]
    m.copyOk = true ∧ m.copyOf.check (m.word 1) (m.word 2) none = none ∧ m.copyOf.total = 16 ∧
    (match (agents { msg := m, stage := 1 }).copyPiece (m.party 0) m.copyOf {} with
      | (_, .ok d) => d.fail.isNone && d.i == 8
      | _ => false) = true := by decide +kernel

/-- A request for a step over two tiles of one row of 32 values, without a C, at its stages. -/
def stepReq : Msg := request 1 [word (0x68 * 2 ^ 25), word (1 + 32 * 64 + 10 * 2 ^ 16), word (1 + 32 * 64 + 10 * 2 ^ 16), word (1 + 1 * 64), word (0x20000 + 10 * 2 ^ 58), word (0x20000 + 10 * 2 ^ 58), 0, word (0x20100 + 8 * 2 ^ 58), 0]
def stepping (stage : Nat) : State := (agents { msg := stepReq, stage := stage, op := { done := [0] } }).modCluster 0 fun c => { c with lease := { c.lease with holder := some 16 } }

theorem witness_EngineAgents_array : stepReq.stepOk = true ∧ stepFail stepReq.stepKind (stepReq.word 1).toNat (stepReq.word 2).toNat (stepReq.word 3).toNat = none ∧ stepReq.stepPtrs = none ∧
    ((stepping 0).cluster 0).agent = [{ msg := stepReq, stage := 0, op := { done := [0] } }] ∧ ((stepping 0).cluster 0).agentPlace = some 0 ∧ ((stepping 0).cluster 0).locks = [] ∧
    (match (stepping 1).agentLoad 0 stepReq 0 with
      | (w, .ok _) => tileCheck (stepReq.word 1).toNat ((w.cluster 0).guest.get (guestTile 0 0) 4096) == none && tileCheck (stepReq.word 2).toNat ((w.cluster 0).guest.get (guestTile 0 1) 4096) == none
      | _ => false) = true ∧ ((stepping 2).cluster 0).lease.key = some agentKey ∧ ((stepping 2).cluster 0).lease.over (stepping 2).sys.now = false ∧
    ((stepping 2).cluster 0).mxq.any (·.executing) = false ∧ enables (stepReq.word 8).toNat = 0 ∧
    (let rows := agentRows 8 (stepReq.word 3).toNat
     (writeRows (stepReq.party 0) 0x20100 rows rows.n 0 (rowsOf rows (((stepping 3).cluster 0).guest.get (guestAcc 0) 4096)) (stepping 3) none).2 matches .ok _) := by decide +kernel

/-- A handler message finds room in the queue of the crewed core (four places), or, where the queue is of no place, in the cellar. -/
def shut : State := (flying (letter 0 0 2 64 [])).modCore fun c => { c with lpqdepth := 0 }

theorem witness_MessagesServed_handler : Arrives 0 (letter 0 0 2 64 []) (flying (letter 0 0 2 64 [])) (landed (letter 0 0 2 64 [])) ∧ (letter 0 0 2 64 []).porchLen = 0 ∧
    (let c := (landed (letter 0 0 2 64 [])).core; c.ni.cellar = [] ∧ c.ni.infrz = false ∧ c.ni.lpq.length < c.lpDepth ∧ c.ni.cellar.length < c.cellarRoom) ∧ shut.core.lpDepth ≤ shut.core.ni.lpq.length :=
  ⟨arrives_of rfl (by decide +kernel), by decide +kernel, by decide +kernel, by decide +kernel⟩

/-- A store of 8 bytes, a load and an atomic at 4088 of the scratchpad, and a store of two instructions at the end of the instruction store. -/
def rStore : Msg := letter 1 0 2 4088 [8, 0x1122334455667788]
def rLoad : Msg := letter 2 0 2 4088 [3]
def rAtomic : Msg := letter 4 0 2 4088 [3, 1]
def rCode : Msg := { letter 1 0 2 (2 ^ 47 + 2 ^ 15 - 8) [8, 0x1122334455667788] with mark := .launch }

theorem witness_MessagesServed_remote : let off := 4088
    Arrives 0 rStore (flying rStore) (landed rStore) ∧ Arrives 0 rLoad (flying rLoad) (landed rLoad) ∧ Arrives 0 rAtomic (flying rAtomic) (landed rAtomic) ∧
    rStore.kind = 1 ∧ bit rStore.target 47 = false ∧ storeLen 8 rStore.flits = true ∧ rStore.target = off ∧ ((landed rStore).chargeNow rStore).niChecks rStore off 8 true false = none ∧
    (landed rStore).sleeping [(off, 8)] = [] ∧ rLoad.kind = 2 ∧ ((landed rLoad).chargeNow rLoad).niChecks rLoad off 8 false false = none ∧ (landed rLoad).sleeping [(off, 8)] = [] ∧
    rAtomic.kind = 4 ∧ bits (rAtomic.word 0).toNat 5 2 = 0 ∧ ((landed rAtomic).chargeNow rAtomic).niChecks rAtomic off 8 true true = none ∧ (landed rAtomic).sleeping [(off, 8)] = [] :=
  ⟨arrives_of rfl (by decide +kernel), arrives_of rfl (by decide +kernel), arrives_of rfl (by decide +kernel), by decide +kernel⟩

theorem witness_MessagesServed_code : Arrives 0 rCode (flying rCode) (landed rCode) ∧ rCode.kind = 1 ∧ bit rCode.target 47 = true ∧ bits rCode.target 46 15 = 0 ∧ storeLen 8 rCode.flits = true ∧
    rCode.target % 2 ^ 15 + 8 = 2 ^ 15 := ⟨arrives_of rfl (by decide +kernel), by decide +kernel⟩

/-- The mesh of one module has 48 columns; a message to column 60 comes back. -/
theorem witness_MessagesServed_bounce : let m : Msg := { letter 0 0 2 64 [] with h1 := header1 (pack 60 0) (pack 0 1) 81 }
    (flying m).sys.flight[0]? = some m ∧ (flying m).deliverable 0 = true ∧ (flying m).inMesh m.dst = false ∧ m.kind ≠ 3 := by decide +kernel

/-- A remote load and a send that await a handler's reply, and their replies: a value, a handler's reply, a bounce for want of the destination's work. -/
def expecting (group target : Nat) (m : Msg) : State := (flying m).modCore fun c => { (withOps [{ id := 5, kind := .rld, cls := .l, n := 8, d := some 5 }] base).core with
  crew := some 1, ni := { c.ni with reply := [{ group := group, ch := 0, server := pack 0 1, target := target, strand := 0, op := 5 }] } }
def answer (t : Nat) (pay : List Word) : Msg := letter 3 1 2 t pay

/-- The state with message 0 out of the flight, at its destination. -/
def outOf (m : Msg) (s : State) : State := (s.modSys fun y => { y with flight := y.flight.eraseIdx 0 }).focus m.dst 0

theorem witness_RepliesAndUnitMessages_value : let m := answer 3 [0, 7]
    let out := outOf m (expecting 1 0 m)
    Arrives 0 m (expecting 1 0 m) out ∧ m.kind = 3 ∧ m.rect = none ∧ bit m.target 0 = true ∧ bits m.target 3 1 = 1 ∧ (out.core.ni.match_ 1 m.ch m.src none).isSome = true ∧
    (m.word 0).toNat = 0 ∧ (vget out.core.strands 0 {}).opById 5 = some { id := 5, kind := .rld, cls := .l, n := 8, d := some 5 } :=
  ⟨arrives_in rfl rfl rfl (by decide +kernel), by decide +kernel⟩

theorem witness_RepliesAndUnitMessages_store : let m := answer 1 [0, 64]
    Arrives 0 m (expecting 0 64 m) (outOf m (expecting 0 64 m)) ∧ bit m.target 0 = true ∧ bits m.target 3 1 = 0 ∧ ((outOf m (expecting 0 64 m)).core.ni.match_ 0 m.ch m.src (some 64)).isSome = true :=
  ⟨arrives_in rfl rfl rfl (by decide +kernel), by decide +kernel⟩

theorem witness_RepliesAndUnitMessages_handler : let m := answer 64 []
    Arrives 0 m (expecting 3 0 m) (outOf m (expecting 3 0 m)) ∧ bit m.target 0 = false ∧ ((outOf m (expecting 3 0 m)).core.ni.match_ 3 m.ch m.src none).isSome = true :=
  ⟨arrives_in rfl rfl rfl (by decide +kernel), by decide +kernel⟩

theorem witness_RepliesAndUnitMessages_bounce : let m := answer 9 [word (4 + 2 ^ 63), header0 2 0 0 2 false false 64, header1 (pack 0 1) 0 81]
    let q : Msg := { h0 := m.word 1, h1 := m.word 2 }
    Arrives 0 m (expecting 1 0 m) (outOf m (expecting 1 0 m)) ∧ bit m.target 0 = true ∧ bits m.target 3 1 = 4 ∧ ((outOf m (expecting 1 0 m)).core.ni.match_ (groupOf q.kind) q.ch q.dst none).isSome = true ∧
    OpKind.rld ≠ .qop := ⟨arrives_in rfl rfl rfl (by decide +kernel), by decide +kernel⟩

/-- The launch unit's messages; the crew of the core is being pre-empted. -/
def unitMsg (sub : Nat) : Msg := { letter 7 0 2 64 [] with mark := .launch, sub := sub }
def leaving (m : Msg) : State := (flying m).modSys fun y => { y with crews := y.crews.map fun w => { w with life := .preempting } }

theorem witness_RepliesAndUnitMessages_unit : (∀ n ∈ [0, 1, 2, 3], Arrives 0 (unitMsg n) (leaving (unitMsg n)) (outOf (unitMsg n) (leaving (unitMsg n))) ∧ (unitMsg n).kind = 7 ∧ (unitMsg n).sub = n) ∧
    ((outOf (unitMsg 1) (leaving (unitMsg 1))).crew.map (·.life)) = some .preempting ∧ ((leaving (unitMsg 1)).cluster 0).mxq = [] := by
  refine ⟨?_, by decide +kernel, by decide +kernel⟩
  intro n h
  simp only [List.mem_cons, List.not_mem_nil, or_false] at h
  rcases h with rfl | rfl | rfl | rfl
  all_goals exact ⟨arrives_in rfl rfl rfl (by decide +kernel), by decide +kernel⟩

/-- The crewed core with a message in its start slot, in a queue, in the cellar, on its way out. -/
def holding (f : Ni → Ni) : State := paged.modCore fun c => { c with ni := f c.ni }

theorem witness_DispatchAndInjection : let m := letter 0 0 2 64 []
    let o : Outgoing := { msg := m, strand := 0 }
    paged.inMesh paged.here = true ∧ paged.core.freeStrandNo = some 1 ∧ m.run = none ∧ (match (holding fun n => { n with startSlot := some m }).core.nextUp, (holding fun n => { n with hpq := [m] }).core.nextUp, (holding fun n => { n with lpq := [m] }).core.nextUp with
      | some (.start x), some (.hp y), some (.lp z) => x == m && y == m && z == m
      | _, _, _ => false) = true ∧
    (let c := (holding fun n => { n with cellar := [m] }).core; c.ni.cellar = [m] ∧ c.ni.infrz = false ∧ c.ni.lpq.length < c.lpDepth) ∧ m.porchLen = 0 ∧
    (holding fun n => { n with outb := [o] }).core.ni.outb.find? (fun o => o.held.isNone) = some o ∧ m.rect = none ∧ paged.st.csr.gangSize = 0 :=
  ⟨by decide +kernel, by decide +kernel, rfl, by decide +kernel, by decide +kernel, by decide +kernel, by decide +kernel, rfl, by decide +kernel⟩

/-! Waits, queues, tasks. -/

/-- The crewed strand in a wait, 5 ns after reset. -/
def waitsIn (w : Waiting) : State := (later crewed).modSt fun t => { t with waiting := w, life := .wait }

theorem witness_WaitsAndTasksGoOn_waits : (waitsIn (.answer 3 none 5)).st.waiting = .answer 3 none 5 ∧ 5 ≤ (waitsIn .none).sys.now ∧ (waitsIn (.neighbour 5 5)).st.waiting = .neighbour 5 5 ∧
    (waitsIn .none).st.csr.gangSize = 0 ∧ (waitsIn (.gang 2 5)).st.waiting = .gang 2 5 ∧ (waitsIn (.gang 2 5)).st.life = .wait ∧
    (waitsIn (.inval 0 65536 false false)).st.waiting = .inval 0 65536 false false ∧ (waitsIn .none).usesRange 7 0 65536 = false ∧ (waitsIn .none).gid = 7 ∧
    (waitsIn .none).inMesh (waitsIn .none).here = true ∧ (waitsIn .none).k < 16 := by decide +kernel

/-- Breakpoint 2 of the job armed at the pc 64 of the strand, or at another. -/
def claiming (pc : Nat) : State := ((waitsIn (.claim 2 none)).modSt fun t => { t with pc := 64 }).modJob 1 fun j => { j with bps := vset j.bps 2 { pc := pc, once := true, any := true, armed := true } }

theorem witness_WaitsAndTasksGoOn_claim : (claiming 64).st.waiting = .claim 2 none ∧ (claiming 64).job.isSome = true ∧ ((claiming 64).slotOf 2).stops 64 (claiming 64).st.csr.taskid.toNat = true ∧
    ((claiming 68).slotOf 2).stops 64 (claiming 68).st.csr.taskid.toNat = false := by decide +kernel

/-- The crewed strand of job 81 with a task unit that holds one task. -/
def manned (x : TaskRec) : State := (crewed.modSt fun t => { t with csr := { t.csr with jobno := 81 } }).modCluster 0 fun c => { c with task := { en := true, job := 81, gid := 7, tasks := [x] } }
def aReady : TaskRec := { ts := 5, id := 1, handler := 64, args := [1, 2], parent := none }
def aDeferred : TaskRef := { ts := 5, id := 1, cluster := 0, deferred := some { code := 3 } }
def deferring : State := (manned { aReady with life := .running }).modSt fun t => { t with task := some aDeferred }

theorem witness_WaitsAndTasksGoOn_deferred : deferring.st.task = some aDeferred ∧ aDeferred.deferred = some { code := 3 } ∧ deferring.isEarliest deferring.myJob (5, 1) = true := by decide +kernel

theorem witness_WaitsAndTasksGoOn_request : let s := manned aReady
    s.coreJob s.core = some s.myJob ∧ s.core.freeStrandNo.isSome = true ∧ s.core.ni.lpq = [] ∧ s.core.ni.cellar = [] ∧ s.core.ni.startSlot = none ∧ s.sys.flight = [] ∧
    s.pollDue = false ∧ s.core.ni.claiming = none ∧ s.core.draining = false ∧ s.readyUnit s.myJob = some 0 ∧ (s.cluster 0).task.specn < 64 ∧ firstKey TaskRec.key ((s.cluster 0).task.tasks.filter fun t => t.life == .ready && t.spill.isNone) = some aReady := by decide +kernel

/-- A spawn outstanding, refused before or not. -/
def aSpawn (started : Bool) : Op := { id := 5, kind := .spawn, cls := .m, a := 64, b := 6, regs := [3], started := started }
def spawning (started : Bool) : State := withOps [aSpawn started] (manned { aReady with life := .running })

theorem witness_WaitsAndTasksGoOn_spawn : Waits (aSpawn false) (spawning false) ∧ Waits (aSpawn true) (spawning true) ∧
    (let s := spawning true
    let u := (s.cluster 0).task
    let id := (s.crew.map fun w => s.clusterIndex w 0).getD 0 % 256 * 2 ^ 24 + u.counter % 2 ^ 24
    u.serves s.myJob = true ∧ (∀ t ∈ s.tasksOf s.myJob, t.2.id ≠ id) ∧ keyBefore (s.lastCommitted s.myJob) (6, id) = true ∧ u.tasks.length < 256 ∧ (aSpawn true).absentAt ≤ s.sys.now ∧ (aSpawn true).n = 0 ∧ (s.die 0).relock = none) :=
  ⟨waits_of (by decide +kernel), waits_of (by decide +kernel), by decide +kernel⟩

theorem witness_WaitsAndTasksGoOn_epoch : let s := (manned aReady).modSys fun y => { y with now := 2000 }
    let e := s.modCluster 0 fun c => { c with task := { en := true, job := 81, gid := 7 } }
    s.sys.gvtAt ≤ s.sys.now ∧ (crewed.modSys fun y => { y with now := 2000 }).taskJobs = [] ∧ e.taskJobs = [e.myJob] ∧ e.tasksOf e.myJob = [] := by decide +kernel

/-- A request to the queue controller of die 0: put a ticket in queue 3; and a core that takes messages from that queue. -/
def ask (fn : Nat) : Msg := { letter 6 0 3 2 [word fn, 3, 5] with mark := .queueReq }
def asked (fn : Nat) : State := ((faulty false).modDie 0 fun d => { d with faultBuf := [] }).modSys fun y => { y with flight := [ask fn] }

theorem witness_WaitsAndTasksGoOn_queue : let out := (asked 0).modSys fun y => { y with flight := [] }
    (asked 0).sys.flight[0]? = some (ask 0) ∧ (asked 0).deliverable 0 = true ∧ (ask 0).kind = 6 ∧ (ask 0).target = 2 ∧ (asked 0).inMesh (ask 0).dst = true ∧
    (asked 0).dieCorner ((asked 0).dieKey (ask 0).dst) = (ask 0).dst ∧ (ask 0).mark = .queueReq ∧ ((ask 0).word 0).toNat < 512 ∧ (out.die 0).fenced 4 = false ∧ (match out.qCheck 0 3 ((out.die 0).ctxOfGid 7) with | none => true | _ => false) = true ∧
    (match out.qServe 0 0 3 (((ask 0).pay.drop 2).take 8) none with
      | (w, .ok _, _) => (w.die 0).faultBuf.isEmpty
      | _ => false) = true := by decide +kernel

/-- A core whose run queue is queue 3 of die 0, in which a message of kind 5 stands. -/
def polling : State :=
  let e := [header0 5 0 0 2 false false 64, header1 0 0 81, 0, 0, 0, 0, 0, 0]
  let s := ((faulty false).modDie 0 fun d => { d with faultBuf := [] }).modCore fun c => { c with runq0 := word (2 ^ 32 + 3) }
  (s.qPut 0 3 (e.flatMap fun w => bytesOfWord 8 w.toNat) true none).1

theorem witness_WaitsAndTasksGoOn_poll : let s := polling
    s.inMesh s.here = true ∧ s.k = 0 ∧ s.core.ni.claiming = none ∧ s.pollDue = true ∧ bit (s.core.runq 0) 32 = true ∧
    (let r := s.pollOne (s.core.runq 0 % 2 ^ 32) (fun s => s.runqOff 0); r.2 = .placed ∧ r.1.here = s.here) := by decide +kernel

/-! Attention. -/

def anApass : Op := { id := 5, kind := .apass, cls := .c, d := some 5, regs := [0x20000, 1, 0x20000, word (3 * 2 ^ 24 + 3 * 2 ^ 36), word (2 * 2 ^ 16), 0, 1, 0] }

theorem witness_AttentionEvents_open : let s := waiting anApass
    Waits anApass s ∧ s.passBad anApass.regs = false ∧ (List.range 64).find? (fun n => !(s.passAt s.dk n).isOpen) = some 0 ∧ ((s.engineRead (s.party anApass) 0x20000 4).2 matches .ok _) :=
  ⟨waits_of (by decide +kernel), by decide +kernel⟩

/-- A subscription of core (0, 0) to page 0 of the layer, and the pass it waits for, with other fields. -/
def aSub : Sub := { slot := 1, core := 0, gid := 7, job := 81, layer := 0, nbuf := 1, land := 0x8000, handler := 64, user := 0, desc := 0x800, refs := [0] }
def aPass : Pass := { slot := 0, isOpen := true, gid := 7, job := 81, pages := [0], base := 0x20000, rect := 3 * 2 ^ 24 + 3 * 2 ^ 36, count := 2, expect := 1, deadline := some 5 }
def passing (p : Pass) : State := (later rooted).modDie 0 fun d => { d with passes := [p] }
def holdsBack : State := (passing aPass).modDie 0 fun d => { d with held := [(aSub, 0)] }

theorem witness_AttentionEvents_window : (passing aPass).passAt 0 0 = aPass ∧ aPass.deadline = some 5 ∧ aPass.isOpen = true ∧ aPass.started = false ∧ 5 ≤ (passing aPass).sys.now ∧ ((passing aPass).die 0).held = [] := by decide +kernel

theorem witness_AttentionEvents_join : let s := holdsBack
    0 < 4 * s.sys.mx * s.sys.my ∧ (s.die 0).held = [(aSub, 0)] ∧ (∀ c ∈ s.cores, ∀ o ∈ c.allOps, o.untaken = false) ∧ s.joinable 0 aSub = some aPass ∧ s.subscriberHere aSub = true ∧ (s.focus 0 0).sleeping [(aSub.desc + 32, 8)] = [] ∧ aSub.core < 2 ^ 24 ∧ aSub.slot < aPass.count ∧ (∃ j ∈ aSub.refs, j < aPass.pages.length) ∧
    aPass.subs = [] ∧ s.entriesUsed 0 + (aSub.refs.filter fun j => j < aPass.pages.length).length ≤ 16384 := by decide +kernel

/-- The pass started, its page begun, read, merged. -/
def started (l : List Delivery) : Pass := { aPass with started := true, subs := [aSub], deliver := l }

theorem witness_AttentionEvents_begin : let s := passing (started [])
    s.passAt 0 0 = started [] ∧ (started []).closing = false ∧ (List.range 1).find? (fun j => (started []).next ≤ j && (started []).subs.any fun b => b.live && b.refs.contains j) = some 0 ∧
    (∀ b ∈ (started []).subs, b.freeBuffers ≠ []) ∧ (started []).occupied + (started []).subs.length ≤ (started []).count := by decide +kernel

theorem witness_AttentionEvents_page : let s := passing (started [{ idx := 0, left := [(1, 0x8000)] }])
    s.passAt 0 0 = started [{ idx := 0, left := [(1, 0x8000)] }] ∧ bits aPass.base.toNat 53 48 = 0 ∧
    (match s.engineRead { gid := 7, cl := engineWalker 0, job := 81, me := 2 ^ 40, quiet := true } 0x20000 8 with
      | (w, .ok _) => (w.die 0).passes == (s.die 0).passes
      | _ => false) = true := by decide +kernel

theorem witness_AttentionEvents_done : (passing (started [{ idx := 0, read := true }])).passAt 0 0 = started [{ idx := 0, read := true }] ∧
    ∀ c ∈ (passing (started [{ idx := 0, read := true }])).cores, ∀ o ∈ c.allOps, o.untaken = false := by decide +kernel

/-- A pass whose subscription has its result. -/
def merged : Pass := { aPass with started := true, subs := [{ aSub with merged := [0], acc := some [0, 0x3F800000, 0x3F800000] }] }
def aTrayget : Op := { id := 5, kind := .trayget, cls := .c, op := 1, a := 0x20100, b := word (2 ^ 32) }
def anAclose : Op := { id := 5, kind := .aclose, cls := .c, op := 1 }

theorem witness_AttentionEvents_result : let s := withOps [aTrayget] (passing merged)
    Waits aTrayget s ∧ (match s.trayOf aTrayget with
      | .ok (p, b) => p == merged && b.nextPage == none && b.acc == some [0, 0x3F800000, 0x3F800000]
      | .error _ => false) = true ∧
    ((s.engineWrite (s.party aTrayget) 0x20100 (trayResult [0, 0x3F800000, 0x3F800000]).1).2 matches .ok _) ∧ (trayResult [0, 0x3F800000, 0x3F800000]).2 &&& enables 0 = 0 :=
  ⟨waits_of (by decide +kernel), by decide +kernel⟩

theorem witness_AttentionEvents_close : let s := withOps [anAclose] (passing merged)
    Waits anAclose s ∧ (match s.passOf anAclose.a.toNat with
      | .ok p => p == merged && p.deliver == []
      | .error _ => false) = true ∧ (∀ c ∈ s.cores, ∀ o ∈ c.allOps, o.untaken = false) ∧ (s.die (s.handlePass anAclose.a.toNat)).held = [] :=
  ⟨waits_of (by decide +kernel), by decide +kernel, by decide +kernel, by decide +kernel⟩

/-! The owner, the launch unit, the watchdog. -/

/-- The crewed core with strand 0 halted, restartable from its message. -/
def halted : State := (crewed.modDie 0 fun d => { d with ctxs := [{ num := 1, dws := [0x71F01, 0, 0, 0, word (47 * 2 ^ 24 + 47 * 2 ^ 36), word (0x100000000 + 30 * 2 ^ 48)] }] }).modSt fun t => { t with life := .halted, start := some (letter 0 0 2 64 []), csr := { t.csr with trappc := 64 } }

theorem witness_OwnerCommands_owner : let w : Crew := { id := 1, job := 1, idx := 0, x0 := 0, y0 := 0, x1 := 3, y1 := 3 }
    halted.inMesh halted.here = true ∧ halted.k = 0 ∧ halted.crew = some w ∧ (halted.jobOf w.job).isSome = true ∧ halted.crewGid w = ((halted.die (halted.dieKey halted.here)).ctx 1).gidOf ∧
    halted.core.draining = false ∧ (vget halted.core.strands 0 {}).life = .halted ∧ (vget halted.core.strands 0 {}).ops = [] ∧ (vget halted.core.strands 0 {}).start = some (letter 0 0 2 64 []) ∧
    (let r := halted.requestPreempt 1; r.2 = true ∧ r.1.here = halted.here ∧ r.1.k = 0) ∧ (halted.killJob 1 1 0x14 1).here = halted.here ∧ (halted.killJob 1 1 0x14 1).k = 0 := by decide +kernel

/-- Queue 3 of die 0 is valid; queue 4 is not. -/
theorem witness_OwnerCommands_queues : let s := (faulty false).modDie 0 fun d => { d with faultBuf := [] }
    s.isDie 0 = true ∧ ((s.die 0).queue 3).valid = true ∧ s.queueRight 0 1 hostWho = true ∧ ((s.die 0).queue 4).valid = false ∧ (s.die 0).faultBuf = [] ∧ s.writesHeld s.sys.held.length = false := by decide +kernel

/-- A sender table of core 0, and trace sessions and monitors of die 0 as after reset; session 0 has a ring of 2^12 entries. -/
def traced : State := crewed.modDie 0 fun d => { d with sessions := vset d.sessions 0 { rlog := 12 }, queues := [{ idx := 3, valid := true, owner := 1 }] }

theorem witness_OwnerCommands_units : traced.inMesh 0 = true ∧ (let x := vget (traced.die 0).sessions 0 {}; x.en = false ∧ x.rlog = 12) ∧ traced.sessionRight 0 0 hostWho = true ∧
    (∀ e ∈ traced.dies, ∀ y ∈ e.sessions.toList, y.en = true → y.job ≠ 81) ∧ (vget (traced.die 0).monitors 0 {}).en = false ∧
    (traced.quantity 0 0 2 0).isSome = true ∧ (traced.quantityB 0 0 { qb := 7 }).isSome = true ∧ (traced.die 0).dirState 0 = 0 ∧ (traced.die 0).dirActive 0 = 0 ∧
    ((traced.die 0).queue (handleIdx (2 ^ 32 + 3))).owner = 1 := by decide +kernel

/-- The host writes a context's first doubleword. -/
theorem witness_OwnerCommands_register : (match traced.writeReg 0 (0x500000 / 8 * 8) 8 3 hostWho with
    | .ok _ _ => true
    | _ => false) = true ∧ traced.isDie 0 = true := by decide +kernel

/-- A launch record for a crew of 4 × 4 cores, without code, with an empty routing image at 0x20400, at the head of the launch queue 3. -/
def aRecord : List Word := [word (4 + 4 * 2 ^ 12), word (64 + 82 * 2 ^ 48), 0x20400, word (2 ^ 56), 0, 0, 0, 0]
def launching : State :=
  let s := rooted.modDie 0 fun d => { d with
    queues := [{ idx := 3, valid := true, owner := 1, log2cap := 4, launch := true, ring := 0x20000 }]
    ctxs := [{ num := 1, dws := [0x71F01, 0x100000, 0, 0, word (47 * 2 ^ 24 + 47 * 2 ^ 36), word (0x100000000 + 30 * 2 ^ 48)] }] }
  (s.qPut 0 3 (aRecord.flatMap fun w => bytesOfWord 8 w.toNat) true none).1

theorem witness_LaunchAndWatchdog_claim : (List.range (launching.sys.mx * launching.sys.my)).findSome? (fun m => (launching.nextRecord m).map fun q => (m, q)) = some (0, 0, 3) ∧
    (match launching.headRecord 0 3 with
      | (w, .ok bs) =>
        let q := (w.die 0).queue 3
        let r := toWords 8 (wordOfBytes bs)
        let w' := w.modMod 0 fun y => { y with turn := putKey (·.1) (q.prio, 3) y.turn }
        r == aRecord && w'.recordOk r && w.sys.jobs.all (fun j => j.num != recJob r) && (match (w'.readImages (w.ownerGid 0 q.owner) (engineWalker 0) r).2 with
          | .ok .. => true
          | _ => false)
      | _ => false) = true := by decide +kernel

/-- The record has become the job 2 and waits for a rectangle; nothing else waits. -/
def aJob : Job := { id := 2, num := 82, gid := 7, die := 0, ctx := 1, queue := 3, ticket := 0, record := aRecord }
def placing (since : Nat) : State := launching.modSys fun y => { y with now := 50000, jobs := aJob :: y.jobs, waiters := [{ die := 0, queue := 3, since := since, job := some 2, w := 4, h := 4 }] }

theorem witness_LaunchAndWatchdog_place : let s := placing 50000
    let owner := (s.die 0).ctx 1
    s.sys.waiters[0]? = some { die := 0, queue := 3, since := 50000, job := some 2, w := 4, h := 4 } ∧ s.jobOf 2 = some aJob ∧ ((s.die 0).queue 3).owner = 1 ∧
    (s.freePlace owner 4 4 (some 0)).isSome = true ∧ s.blocked 0 ((s.die 0).queue 3).prio (some 0) = false ∧ s.resumes 0 ((s.die 0).queue 3).prio = false ∧ recTape aRecord = 0 ∧ s.outranked 0 ((s.die 0).queue 3).prio = false ∧
    (match cellarsIn owner.pool.1 owner.pool.2 (cellarBytes (bits (rec_ aRecord 0) 33 31)) 16 (s.poolUsed 7), s.readImages 7 (engineWalker 0) aRecord, s.freePlace owner 4 4 (some 0) with
      | some cs, (_, .ok _ routing _), some (x0, y0) => (placeIn owner.pool.1 owner.pool.2 (2 ^ 21) (2 ^ 21 * 17) (cs ++ s.poolUsed 7)).isSome &&
          (routesOf routing (owner.dw 4) x0 y0 (x0 + 3) (y0 + 3)).isSome
      | _, _, _ => false) = true ∧ bit (rec_ aRecord 0) 24 = false := by decide +kernel

/-- A rectangle as wide and high as the mesh is not free while a crew stands in it. -/
theorem witness_LaunchAndWatchdog_age : let s := (placing 0).modSys fun y => { y with waiters := [{ die := 0, queue := 3, since := 0, w := 48, h := 48 }] }
    s.sys.waiters[0]? = some { die := 0, queue := 3, since := 0, w := 48, h := 48 } ∧ 0 + 50000 ≤ s.sys.now ∧ s.freePlace ((s.die 0).ctx 1) 48 48 (some 0) = none := by decide +kernel

/-- Crew 1 in a life, all its strands free. -/
def crewIn (f : Crew → Crew) : State := ((crewed.modSt fun t => { t with life := .free }).modSys fun y => { y with now := 200000000 }).modCrew 1 f
def crew1 : Crew := { id := 1, job := 1, idx := 0, x0 := 0, y0 := 0, x1 := 3, y1 := 3 }

theorem witness_LaunchAndWatchdog_crews :
    (let s := crewIn (fun w => { w with life := .killed }); s.crewOf 1 = some { crew1 with life := .killed } ∧ (∀ c ∈ s.cores, c.crew = some 1 → c.stopping = false) ∧ 0 + (s.limits ((s.jobOf 1).getD default)).2.2 ≤ s.sys.now) ∧
    (let s := crewIn id; s.crewOf 1 = some crew1 ∧ s.crewDone crew1 = true ∧ (s.jobOf 1).isSome = true ∧ s.sys.prints = [] ∧ (∀ j, s.jobOf 1 = some j → j.completed + 1 = recCrews j.record) ∧
      0 + (s.limits ((s.jobOf 1).getD default)).1 ≤ s.sys.now) ∧
    (let s := (crewIn id).modJob 1 fun j => { j with record := [0, 0, 0, word (2 ^ 57)] }; s.crewDone crew1 = true ∧ (match s.jobOf 1 with
        | some j => j.completed + 1 != recCrews j.record
        | none => false) = true) ∧
    (let s := (crewIn id).modSys fun y => { y with jobs := [] }; s.crewOf 1 = some crew1 ∧ s.crewDone crew1 = true ∧ (s.jobOf 1).isNone = true) ∧
    (let s := ((crewIn fun w => { w with life := .parked, valid := true }).modCore fun c => { c with crew := none }); s.mayResume { crew1 with life := .parked, valid := true } = true ∧ s.launchQueues 0 = [] ∧ s.blocked 0 1 none = false) ∧
    (let s := crewIn (fun w => { w with asked := some 0 }); s.crewOf 1 = some { crew1 with asked := some 0 } ∧ 0 + (s.limits ((s.jobOf 1).getD default)).2.1 ≤ s.sys.now) := by decide +kernel

/-! Recovery, time, the boundary, the step. -/

/-- Tier 0 of module 0 wants a free frame and offers the frame 0x50000 for a move down; tier 1 has a free frame. Rings of 64 slots at 0x800000, 0x801000. -/
def tiered : State :=
  let s := tabled.modDie 0 fun d => { d with tier := [(0, [1, 0x800000, 0x801000, word (6 + 6 * 2 ^ 8)]), (1, [0, 0x802000, 0x803000, word (6 + 6 * 2 ^ 8)])] }
  (s.setPhysN (memKey 0 0 0x801000) 8 0x50000).setPhysN (memKey 0 0 0x802000) 8 0x90000

theorem witness_RecoveryAndTime_demotion : let s := tiered
    ((s.ringSlots 0 0 0).filter fun k => s.physN k 8 != 0).length < s.tierReg 0 0 0 ∧ s.ringFirst (s.ringSlots 0 0 1) = some (memKey 0 0 0x801000, 0x50000) := by decide +kernel

def coldPages : State × List TlbEntry :=
  let w := tiered.setPhysN (memKey 0 0 0x801000) 8 0
  (w, ((0 :: w.liveCtxs.map Ctx.gidOf).eraseDups.flatMap fun g => (w.items g).filterMap fun i => match i with
    | .page e => if e.type = 0 && e.home w = 0 && e.dw0 / 2 ^ 16 = 0x50000 / 2 ^ 16 && !e.dup then some e else none
    | .table _ _ => none))

theorem witness_RecoveryAndTime_cold : (match coldPages.2.head? with
    | some e => !coldPages.1.moving e.gid e.base && e.base == 0x40000
    | none => false) = true := by decide +kernel

/-- A translation that asks for a promotion, as the table has it, and a move under way. -/
def promoting : State := (rooted.setPhysN (memKey 0 0 (0x400000 + 32)) 8 0x20067).modCore fun c => { c with dtlb := [{ gid := 7, base := 0x20000, size := 65536, dw0 := 0x20067, dw1 := 2 ^ 30, place := 0 }] }
def aMove : PageMove := { gid := 7, va := 0x40000, size := 65536, entry := memKey 0 0 0x400040, fromTier := 0, toTier := 1, oldFrame := 0x50000, dw0 := 0x50063, dw1 := 0, module := 0, die := 0 }
def moving : State := tiered.modSys fun y => { y with moves := [aMove] }

theorem witness_RecoveryAndTime_moves : ((promoting.coreAt 0).dtlb.find? (fun e => e.promotes && promoting.leafCurrent e && !promoting.moving e.gid e.base)).isSome = true ∧ promoting.sys.wanted = [] ∧ promoting.inMesh 0 = true ∧
    moving.sys.moves[0]? = some aMove ∧ moving.usesRange 7 0x40000 0x50000 = false ∧ moving.ringFirst (moving.ringSlots 0 1 0) = some (memKey 0 0 0x802000, 0x90000) := by decide +kernel

/-- One module; link 0 leads to the west, where nothing is. Of two modules module 1 fails. Times have come. -/
theorem witness_RecoveryAndTime_units : let s := crewed.modSys fun y => { y with now := 200000 }
    let two := s.modSys fun y => { y with mx := 2 }
    s.inMesh 0 = true ∧ (∃ x, x / 12 < 1 ∧ s.neighbour 0 (x % 12 / 3) = none) ∧ 1 < two.sys.mx * two.sys.my ∧ (two.mod 1).failed = false ∧ s.sys.keepAt ≤ s.sys.now ∧ s.sys.flitAt ≤ s.sys.now ∧
    (s.mod 0).timeset = false ∧ s.sys.versions = [] ∧ s.isDie 0 = true ∧ (s.die 0).sampleAt ≤ s.sys.now :=
  ⟨by decide +kernel, ⟨0, by decide +kernel⟩, by decide +kernel⟩

theorem witness_RecoveryAndTime_clocks : let s := crewed.modDie 0 fun d => { d with relock := some {} }
    (s.die 0).relock = some {} ∧ (s.die 0).queued = [] ∧ (crewed.die 0).relock = none ∧ (crewed.die 0).queued = [] ∧ (crewed.mod 0).powerAt ≤ crewed.sys.now ∧ (crewed.die 0).ftarget ≠ 10 ∧ (crewed.die 0).fnow ≠ 10 ∧ (crewed.die 0).plimit < 3000 ∧ 8 < (crewed.die 0).fnow ∧
    (let t := crewed.modDie 0 fun d => { d with ftarget := 20 }; 2000 ≤ (t.die 0).plimit ∧ (t.die 0).throttled = 0 ∧ (t.die 0).fnow < (t.die 0).ftarget) := by decide +kernel

/-- A packet of one message of two flits, after its extension header. -/
theorem witness_HostAndBoundary_packet : let ws := [7, 0, 0, 0, (header0 0 0 0 2 false false 64).toNat, (header1 0 (pack 0 1) 81).toNat, 0, 1, 2, 3, 4, 5]
    (match packetMsgs 17 ws with
      | [m] => 7 + m.pay.length == ws.length
      | _ => false) = true := by decide +kernel

/-- A stream that listens on an enabled port, in a frame. -/
def aStream : Stream := { port := 0, idx := 0, dws := [2 ^ 63, 0, 0, 0, 2 ^ 32 * 5], live := true, frame := 9 }
def streaming : State := crewed.modMod 0 fun m => { m with ports := [(0, true)], streams := [aStream] }

theorem witness_HostAndBoundary_stream : let s := streaming.modSys fun y => { y with now := 5000 }
    s.streamOf 0 0 = some aStream ∧ bit (aStream.dw 0) 63 = true ∧ (∃ p ∈ (s.mod 0).ports, p.1 = 0 ∧ p.2 = true) ∧ aStream.live = true ∧ 9 % 2 ^ 32 = aStream.frame ∧
    s.receives 0 = true ∧ s.packetHeld s.sys.held.length 0 0 = false ∧ crewed.receives 0 = false ∧ crewed.sys.fencedLinks.contains 0 = false ∧ aStream.overdue streaming.sys.now 1 = false ∧ aStream.dw 4 / 2 ^ 32 ≠ 0 ∧ aStream.first + 1000 * (aStream.dw 4 / 2 ^ 32) ≤ s.sys.now := by decide +kernel

/-- A sensor set to level 2 above 500, on which the readings 500 and 501 border, and the junction temperatures about the levels 1 and 3. -/
theorem witness_HostAndBoundary_alarm : let level (celsius reading : Nat) : Nat :=
      let x := celsius * 2 ^ 24 + reading * 2 ^ 40
      if x % 2 ^ 24 = 0 then { crewed.die 0 with alarmRegs := [(1, word (2 * 2 ^ 32 + 500))] }.alarmLevel (bits x 39 24) (lanes 32 255 (x / 2 ^ 40)) else 9
    crewed.isDie 0 = true ∧ level 105 500 = 0 ∧ level 106 500 = 1 ∧ level 106 501 = 2 ∧ level 115 0 = 1 ∧ level 116 501 = 3 := by decide +kernel

/-- The host's context 1 reaches the page at 0x20000 through the window at 0. -/
def hosted : State := rooted.modDie 0 fun d => { d with hostCtx := 1 }

theorem witness_HostAndBoundary_window : let c := (hosted.die 0).ctx ((hosted.die 0).hostCtx.toNat % 256)
    (hosted.die 0).hdmbase.toNat ≤ 0x20000 ∧ c.dark = false ∧ c.valid = true ∧ hosted.pageHeld hosted.sys.held.length 0x20000 = false ∧
    hosted.windowOf 0x20000 = some 0 ∧ (match hosted.translate c.gidOf 0x20000 (engineWalker 0) with
      | (w, .hit e) => !w.darkFrame e 0x20000 2 && ((w.accessLeaf (firmwareParty 0 c.gidOf) e 0x20000 2 (some [1, 2]) false).2 matches .ok _) &&
        ((w.accessLeaf (firmwareParty 0 c.gidOf) e 0x20000 2 none false).2 matches .ok _)
      | _ => false) = true := by decide +kernel

/-- Firmware of 4096 bytes stands in the host's memory at 0x1000. -/
theorem witness_HostAndBoundary_firmware : let s := State.reset.setPhysN (memKey 3 0 0x1000) 4 0x50535646
    (s.mod 0).mbstat % 4 ≠ 1 ∧ (s.mod 0).fw = false ∧ wordOfBytes ((s.hostBytes 0 0x1000 4096).take 4) = 0x50535646 ∧ 0 < s.sys.mx * s.sys.my := by decide +kernel

/-- A darkroom context with its key, under which its tables and the frame of its page at 0x20000 stand. -/
def darkroom : State :=
  let s := rooted.modDie 0 fun d => { d with ctxs := d.ctxs.map fun c => { c with dws := c.dws.set 0 (0x71F01 + 2), key := some 3, secret := some 5 } }
  s.modSys fun y => { y with sealed := [{ lo := memKey 0 0 0x100000, hi := memKey 0 0 0x500000, key := 3, gid := 7, va := none },
    { lo := memKey 0 0 0x20000, hi := memKey 0 0 0x30000, key := 3, gid := 7, va := some 0x20000 }] }

theorem witness_HostAndBoundary_dark : (darkroom.darkCtx 7).isSome = true ∧ ((darkroom.engineRead (firmwareParty 0 7) 0x20000 8).2 matches .ok _) ∧
    ((darkroom.engineWrite (firmwareParty 0 7) 0x20000 [1, 2]).2 matches .ok _) := by decide +kernel

theorem witness_HostAndBoundary_jobs : (crewed.jobNumbered 81).isSome = true ∧ (∀ j, crewed.jobNumbered 81 = some j → ∀ c, crewed.ctxByGid j.gid = some c → c.dark = false) ∧
    (crewed.sys.jobs.find? (fun j => j.queue == 1 && j.ticket == 0)).isSome = true ∧ ((crewed.modCore fun c => { c with fenced := true }).coreAt 0).fenced = true ∧
    (halted.sys.crews.find? (fun w => w.job == 1 && w.idx == 0)).isSome = true ∧ (halted.requestPreempt 1).2 = true := by decide +kernel

/-! The step. -/

/-- The word of `add.s32 g5, g6, g7` placed at the pc of the only strand: that strand has the turn, the word is fetched, no breakpoint stops it. -/
def placed (w : Nat) : State := State.reset.withFetchWord 32 w

theorem witness_StepRunsDecoded : ((placed 0x20531D80).mod 0).fw = true ∧ (placed 0x20531D80).pick.1 = .strand 0 0 ∧ ((placed 0x20531D80).focus 0 0).st.stop = none ∧ ((placed 0x20531D80).focus 0 0).st.soft = false ∧
    (match ((placed 0x20531D80).focus 0 0).fetch with
      | (u, .word w) => decide (w = 0x20531D80) && u.stopHere.isNone
      | _ => false) = true ∧ decode 0x20531D80 = .ok (.add 5 6 7 1 1 0) := ⟨by decide +kernel, by decide +kernel, by decide +kernel, by decide +kernel, by decide +kernel, rfl⟩

theorem witness_StepRunsDecoded_unassigned : (match ((placed 0).focus 0 0).fetch with
      | (u, .word w) => decide (w = 0) && u.stopHere.isNone
      | _ => false) = true ∧ (placed 0).pick.1 = .strand 0 0 ∧ decode 0 = .error 5 := ⟨by decide +kernel, by decide +kernel, rfl⟩

/-- A device out of reset with nothing to run, whose GVT epoch has come; a device held in reset to which nothing comes. -/
theorem witness_StepRunsDecoded_event : let s := (State.reset.modMod 0 fun m => { m with fw := true }).modSys fun y => { y with now := 2000 }
    (s.mod 0).fw = true ∧ s.pick.1 = .event .gvtEpoch ∧ State.reset.inputs = [] ∧ (State.reset.mod 0).fw = false := by decide +kernel

/-- Strand 0 stalls; waits no longer; runs with its code at hand. -/
theorem witness_StepRunsDecoded_after : let s := placed 0x20531D80
    let w := s.focus 0 0 |>.modSt fun t => { t with life := .wait }
    w.stalls 0 0 = true ∧ s.stalls 0 0 = false ∧ (w.focus 0 0).st.life = .wait ∧ (s.focus 0 0).st.life ≠ .wait ∧ s.unfetched 0 0 = false := by decide +kernel

theorem witness_StepKeepsDrained : (match step (placed 0x20531D80) with
    | .next _ => true
    | _ => false) = true := by decide +kernel

theorem witness_DecodeEncode : (Instr.add 5 6 7 1 1 0).wellFormed = true ∧ (Instr.add 5 6 7 1 1 0).encode = some 0x20531D80 ∧ decode 0x20531D80 = .ok (.add 5 6 7 1 1 0) :=
  ⟨by decide +kernel, by decide +kernel, rfl⟩

theorem witness_GuardsAndConstantRegisters : integerForm (.add 5 6 7 1 1 2) = some (5, [6, 7], 2) ∧ 31 ∉ [5, 6, 7] ∧ base.st.csr.gangSize = 0 ∧ base.p 2 = false ∧ base.k < 16 ∧
    floatForm (.fadd 5 6 7 0 2) = some (5, [6, 7], 2) := by decide +kernel

/-! Decoding: for every instruction one word, put together from the bits and the fields that the opcode table gives its row, with a value of its own in every field. -/

theorem test_decode_br_to_add :
    decode 0x02CA09DA = .ok (.br 3 0 657882) ∧ decode 0x05458E72 = .ok (.call 5 0 364146) ∧ decode 0x06048004 = .ok (.jmp 9 4) ∧
    decode 0x0601800A = .ok (.callr 3 2) ∧ decode 0x06000013 = .ok (.ret 3) ∧ decode 0x08203F32 = .ok (.loop 2 2022 2) ∧
    decode 0x0A000002 = .ok (.exitEnd 2) ∧ decode 0x0A02340E = .ok (.suspend 4 13 6) ∧ decode 0x0A000C12 = .ok (.yield 3 2) ∧
    decode 0x0C00169E = .ok (.trap 723 6) ∧ decode 0x0E000003 = .ok (.rft 3) ∧ decode 0x0E100002 = .ok (.rftSkip 2) ∧
    decode 0x0E04800B = .ok (.sleep 9 3) ∧ decode 0x10700003 = .ok (.csrr 7 0 3) ∧ decode 0x12060007 = .ok (.csrw 12 0 7) ∧
    decode 0x14068402 = .ok (.tlbinv 13 1 2) ∧ decode 0x14100002 = .ok (.tlbinvAll 2) ∧ decode 0x1405000A = .ok (.pgateS 10 2) ∧
    decode 0x1412000F = .ok (.pgateW 4 7) ∧ decode 0x14C20812 = .ok (.ctxload 12 4 2 2) ∧ decode 0x1476A01D = .ok (.ctxsave 7 13 8 5) ∧
    decode 0x16600001 = .ok (.flagsGet 6 1) ∧ decode 0x1604800C = .ok (.flagsClr 9 4) ∧ decode 0x16040012 = .ok (.flagsSet 8 2) ∧
    decode 0x20D22602 = .ok (.add 13 4 9 2 0 2) :=
  ⟨rfl, rfl, rfl, rfl, rfl, rfl, rfl, rfl, rfl, rfl, rfl, rfl, rfl, rfl, rfl, rfl, rfl, rfl, rfl, rfl, rfl, rfl, rfl, rfl, rfl⟩

theorem test_decode_sub_to_cmpNe :
    decode 0x2071AB0C = .ok (.sub 7 3 10 3 0 4) ∧ decode 0x2074BB11 = .ok (.and 7 9 14 3 0 1) ∧ decode 0x2055A09E = .ok (.or 5 11 8 0 1 6) ∧
    decode 0x20B215A5 = .ok (.xor 11 4 5 1 1 5) ∧ decode 0x204121AB = .ok (.andn 4 2 8 1 1 3) ∧ decode 0x20821D36 = .ok (.orn 8 4 7 1 0 6) ∧
    decode 0x20E38A3D = .ok (.xnor 14 7 2 2 0 5) ∧ decode 0x20D32441 = .ok (.shl 13 6 9 0 0 1) ∧ decode 0x2043B24F = .ok (.shr 4 7 12 2 0 7) ∧
    decode 0x20D21A54 = .ok (.sra 13 4 6 2 0 4) ∧ decode 0x20D0975A = .ok (.rol 13 1 5 3 0 2) ∧ decode 0x20A09866 = .ok (.ror 10 1 6 0 0 6) ∧
    decode 0x22D3102C = .ok (.addi 13 6 517 4) ∧ decode 0x24D19D74 = .ok (.andi 13 3 942 4) ∧ decode 0x26177AAC = .ok (.ori 1 14 3925 4) ∧
    decode 0x28909BE2 = .ok (.xori 9 1 892 2) ∧ decode 0x2AD08061 = .ok (.shli 13 1 12 1) ∧ decode 0x2C31009B = .ok (.shri 3 2 19 3) ∧
    decode 0x2E548111 = .ok (.srai 5 9 34 1) ∧ decode 0x30D28881 = .ok (.mul 13 5 2 0 1 1) ∧ decode 0x30719109 = .ok (.mulh 7 3 4 1 0 1) ∧
    decode 0x32D42885 = .ok (.div 13 8 10 0 1 5) ∧ decode 0x32E62E8A = .ok (.rem 14 12 11 2 1 2) ∧ decode 0x34253602 = .ok (.cmpEq 2 10 13 2 0 2) ∧
    decode 0x3461910F = .ok (.cmpNe 6 3 4 1 0 7) :=
  ⟨rfl, rfl, rfl, rfl, rfl, rfl, rfl, rfl, rfl, rfl, rfl, rfl, rfl, rfl, rfl, rfl, rfl, rfl, rfl, rfl, rfl, rfl, rfl, rfl, rfl⟩

theorem test_decode_cmpLt_to_ptrClr :
    decode 0x34548494 = .ok (.cmpLt 5 9 1 0 1 4) ∧ decode 0x3433BA1D = .ok (.cmpLe 3 7 14 2 0 5) ∧ decode 0x3412AA26 = .ok (.cmpGt 1 5 10 2 0 6) ∧
    decode 0x3422B62B = .ok (.cmpGe 2 5 13 2 0 3) ∧ decode 0x36268062 = .ok (.cmpiEq 2 13 12 2) ∧ decode 0x360718A1 = .ok (.cmpiNe 0 14 276 1) ∧
    decode 0x3626AE3E = .ok (.cmpiLtS64 2 13 455 6) ∧ decode 0x36143F57 = .ok (.cmpiLeS64 1 8 490 7) ∧ decode 0x36314E4D = .ok (.cmpiGtS64 3 2 457 5) ∧
    decode 0x3635D45B = .ok (.cmpiGeS64 3 11 139 3) ∧ decode 0x3665E9D3 = .ok (.cmpiLtZ64 6 11 314 3) ∧ decode 0x36577EC7 = .ok (.cmpiGeZ64 5 14 472 7) ∧
    decode 0x38330284 = .ok (.clz 3 6 2 1 4) ∧ decode 0x38220109 = .ok (.ctz 2 4 1 0 1) ∧ decode 0x38E68294 = .ok (.popc 14 13 2 1 4) ∧
    decode 0x38518219 = .ok (.brev 5 3 2 0 1) ∧ decode 0x38130224 = .ok (.bswap 1 6 2 0 4) ∧ decode 0x3A231419 = .ok (.sel 2 6 5 3 1) ∧
    decode 0x3C22A149 = .ok (.li 2 172361) ∧ decode 0x3E161D33 = .ok (.lui 1 400691) ∧ decode 0x40D22C02 = .ok (.adda 13 4 11 2) ∧
    decode 0x42B27779 = .ok (.addai 11 4 3823 1) ∧ decode 0x44D20C03 = .ok (.ptrSet 13 4 3 3) ∧ decode 0x4463800E = .ok (.ptrGet 6 7 6) ∧
    decode 0x44218017 = .ok (.ptrClr 2 3 7) :=
  ⟨rfl, rfl, rfl, rfl, rfl, rfl, rfl, rfl, rfl, rfl, rfl, rfl, rfl, rfl, rfl, rfl, rfl, rfl, rfl, rfl, rfl, rfl, rfl, rfl, rfl⟩

theorem test_decode_predAnd_to_fma :
    decode 0x46130C03 = .ok (.predAnd 1 6 3 3) ∧ decode 0x4630840E = .ok (.predOr 3 1 1 6) ∧ decode 0x46319413 = .ok (.predXor 3 3 5 3) ∧
    decode 0x4653101B = .ok (.predAndn 5 6 4 3) ∧ decode 0x46220027 = .ok (.predNot 2 4 7) ∧ decode 0x4602802D = .ok (.predFromg 0 5 5) ∧
    decode 0x46910034 = .ok (.predTog 9 2 4) ∧ decode 0x48A00004 = .ok (.coordSelf 10 4) ∧ decode 0x4845240F = .ok (.coordPack 4 10 9 7) ∧
    decode 0x48D48011 = .ok (.coordX 13 9 1) ∧ decode 0x4836001D = .ok (.coordY 3 12 5) ∧ decode 0x4893A024 = .ok (.coordAdd 9 7 8 4) ∧
    decode 0x4A231501 = .ok (.min 2 6 5 1 0 1) ∧ decode 0x4A36278A = .ok (.max 3 12 9 3 1 2) ∧ decode 0x4A53A497 = .ok (.absd 5 7 9 0 1 7) ∧
    decode 0x4C347BA6 = .ok (.muli 3 8 3956 6) ∧ decode 0x6082AC03 = .ok (.fadd 8 5 11 0 3) ∧ decode 0x6053B60A = .ok (.fsub 5 7 13 2 2) ∧
    decode 0x60110D15 = .ok (.fmul 1 2 3 1 5) ∧ decode 0x60A72419 = .ok (.fdiv 10 14 9 0 1) ∧ decode 0x60B69A23 = .ok (.fmin 11 13 6 2 3) ∧
    decode 0x60468D29 = .ok (.fmax 4 13 3 1 1) ∧ decode 0x60940231 = .ok (.fabs 9 8 2 1) ∧ decode 0x6015013B = .ok (.fneg 1 10 1 3) ∧
    decode 0x62268CE7 = .ok (.fma 2 13 3 7 7) :=
  ⟨rfl, rfl, rfl, rfl, rfl, rfl, rfl, rfl, rfl, rfl, rfl, rfl, rfl, rfl, rfl, rfl, rfl, rfl, rfl, rfl, rfl, rfl, rfl, rfl, rfl⟩

theorem test_decode_fms_to_vor :
    decode 0x62C42C49 = .ok (.fms 12 8 11 2 1) ∧ decode 0x62E2A8F5 = .ok (.fnma 14 5 10 7 5) ∧ decode 0x62B6995B = .ok (.fnms 11 13 6 10 3) ∧
    decode 0x64509506 = .ok (.fcmpEq 5 1 5 1 6) ∧ decode 0x64129A0E = .ok (.fcmpNe 1 5 6 2 6) ∧ decode 0x64029011 = .ok (.fcmpLt 0 5 4 0 1) ∧
    decode 0x64519A1D = .ok (.fcmpLe 5 3 6 2 5) ∧ decode 0x64643123 = .ok (.fcmpUn 6 8 12 1 3) ∧ decode 0x66D50002 = .ok (.fsqrt 13 10 2) ∧
    decode 0x66750009 = .ok (.rcp 7 10 1) ∧ decode 0x66750012 = .ok (.rsqrt 7 10 2) ∧ decode 0x66950019 = .ok (.exp2 9 10 1) ∧
    decode 0x66848027 = .ok (.log2 8 9 7) ∧ decode 0x68220331 = .ok (.cvt 2 4 6 3 1) ∧ decode 0x6827011E = .ok (.cvto 2 14 2 1 6) ∧
    decode 0x6A050801 = .ok (.xacc 10 2 0 1) ∧ decode 0x6A05260A = .ok (.xaccp 10 9 2 2) ∧ decode 0x6A458316 = .ok (.xrnd 4 11 3 6) ∧
    decode 0x6A033819 = .ok (.xmrg 6 14 1) ∧ decode 0x6A028025 = .ok (.xclr 5 5) ∧ decode 0x6C5BD526 = .ok (.fli 5 775462) ∧
    decode 0x70262102 = .ok (.vadd 2 12 8 1 0 2) ∧ decode 0x7070970F = .ok (.vsub 7 1 5 3 0 7) ∧ decode 0x70320996 = .ok (.vand 3 4 2 1 1 6) ∧
    decode 0x70871D19 = .ok (.vor 8 14 7 1 0 1) :=
  ⟨rfl, rfl, rfl, rfl, rfl, rfl, rfl, rfl, rfl, rfl, rfl, rfl, rfl, rfl, rfl, rfl, rfl, rfl, rfl, rfl, rfl, rfl, rfl, rfl, rfl⟩

theorem test_decode_vxor_to_vcmpNe :
    decode 0x70C38BA6 = .ok (.vxor 12 7 2 3 1 6) ∧ decode 0x70D31F2E = .ok (.vandn 13 6 7 3 0 6) ∧ decode 0x70368437 = .ok (.vorn 3 13 1 0 0 7) ∧
    decode 0x70830E3A = .ok (.vxnor 8 6 3 2 0 2) ∧ decode 0x70D588C3 = .ok (.vshl 13 11 2 0 1 3) ∧ decode 0x706112CB = .ok (.vshr 6 2 4 2 1 3) ∧
    decode 0x702231D6 = .ok (.vsra 2 4 12 1 1 6) ∧ decode 0x7020985D = .ok (.vrol 2 1 6 0 0 5) ∧ decode 0x7021A264 = .ok (.vror 2 3 8 2 0 4) ∧
    decode 0x7094386C = .ok (.vadds 9 8 14 0 0 4) ∧ decode 0x7062A1F6 = .ok (.vsubs 6 5 8 1 1 6) ∧ decode 0x72968504 = .ok (.vfadd 9 13 1 1 4) ∧
    decode 0x72E40D09 = .ok (.vfsub 14 8 3 1 1) ∧ decode 0x72819215 = .ok (.vfmul 8 3 4 2 5) ∧ decode 0x7235BA1F = .ok (.vfdiv 3 11 14 2 7) ∧
    decode 0x72623524 = .ok (.vfmin 6 4 13 1 4) ∧ decode 0x7280AD2D = .ok (.vfmax 8 1 11 1 5) ∧ decode 0x72A18132 = .ok (.vfabs 10 3 1 2) ∧
    decode 0x7234013C = .ok (.vfneg 3 8 1 4) ∧ decode 0x74658D81 = .ok (.vfma 6 11 3 12 1) ∧ decode 0x745718EC = .ok (.vfms 5 14 6 7 4) ∧
    decode 0x74A619B4 = .ok (.vfnma 10 12 6 13 4) ∧ decode 0x7484855E = .ok (.vfnms 8 9 1 10 6) ∧ decode 0x76833484 = .ok (.vcmpEq 8 6 13 1 4) ∧
    decode 0x7665120C = .ok (.vcmpNe 6 10 4 4 4) :=
  ⟨rfl, rfl, rfl, rfl, rfl, rfl, rfl, rfl, rfl, rfl, rfl, rfl, rfl, rfl, rfl, rfl, rfl, rfl, rfl, rfl, rfl, rfl, rfl, rfl, rfl⟩

theorem test_decode_vcmpLt_to_ngetS :
    decode 0x76621614 = .ok (.vcmpLt 6 4 5 4 4) ∧ decode 0x76A3999F = .ok (.vcmpLe 10 7 6 3 7) ∧ decode 0x769401A5 = .ok (.vcmpLtz 9 8 3 5) ∧
    decode 0x76D380AF = .ok (.vcmpLez 13 7 1 7) ∧ decode 0x78658083 = .ok (.vredSum 6 11 1 3) ∧ decode 0x7851020F = .ok (.vredMin 5 2 4 7) ∧
    decode 0x78530097 = .ok (.vredMax 5 6 1 7) ∧ decode 0x78B0809C = .ok (.vredAnd 11 1 1 4) ∧ decode 0x78C30025 = .ok (.vredOr 12 6 0 5) ∧
    decode 0x7893012C = .ok (.vredXor 9 6 2 4) ∧ decode 0x7A613803 = .ok (.vshuf 6 2 14 0 3) ∧ decode 0x7AA41F0E = .ok (.vrotl 10 8 7 3 6) ∧
    decode 0x7AC0A213 = .ok (.vzip 12 1 8 2 3) ∧ decode 0x7A80B01C = .ok (.vunzip 8 1 12 0 4) ∧ decode 0x7C768866 = .ok (.vcvt 7 13 2 0 6 6) ∧
    decode 0x7C668789 = .ok (.vcvto 6 13 1 7 0 1) ∧ decode 0x7E332903 = .ok (.vsel 3 6 10 1 3) ∧ decode 0x80612501 = .ok (.vdot 6 2 9 1 1) ∧
    decode 0x82160C37 = .ok (.vsplat 1 12 0 390 7) ∧ decode 0x84000004 = .ok (.gang2 4) ∧ decode 0x8400000A = .ok (.gang4 2) ∧
    decode 0x84000011 = .ok (.gang8 1) ∧ decode 0x8400001B = .ok (.disband 3) ∧ decode 0x8641A802 = .ok (.ngetG 4 3 10 2) ∧
    decode 0x8612980B = .ok (.ngetS 1 5 6 3) :=
  ⟨rfl, rfl, rfl, rfl, rfl, rfl, rfl, rfl, rfl, rfl, rfl, rfl, rfl, rfl, rfl, rfl, rfl, rfl, rfl, rfl, rfl, rfl, rfl, rfl, rfl⟩

theorem test_decode_nput_to_ramoAnd :
    decode 0x88B2B007 = .ok (.nput 11 5 12 7) ∧ decode 0x90854EDF = .ok (.ld 8 10 315 1 1 7) ∧ decode 0x92358035 = .ok (.st 3 11 0 3 5) ∧
    decode 0x94C47782 = .ok (.ldw 12 8 478 2) ∧ decode 0x96953607 = .ok (.stw 9 10 216 7) ∧ decode 0x98860607 = .ok (.ldx 8 12 1 2 0 0 7) ∧
    decode 0x9A668406 = .ok (.stx 6 13 1 0 0 6) ∧ decode 0xA0561E03 = .ok (.gld 5 12 120 0 0 3) ∧ decode 0xA2D08F54 = .ok (.gst 13 1 61 1 4) ∧
    decode 0xAC014582 = .ok (.pref 2 278 2) ∧ decode 0xAC1493C4 = .ok (.prefTier 9 79 4) ∧ decode 0xA4096807 = .ok (.cpy 0 2 11 8 7) ∧
    decode 0xA42C0A19 = .ok (.cpyArm 0 3 10 3 1) ∧ decode 0xA6AA2167 = .ok (.wait 5 5 1 0 11 7) ∧ decode 0xA8058006 = .ok (.fence 11 6) ∧
    decode 0xAA240C03 = .ok (.owner 2 8 3 3) ∧ decode 0xB02B12C4 = .ok (.send 0 0 5 12 9 3 4) ∧ decode 0xB2898546 = .ok (.sendm 0 2 1 6 2 5 6) ∧
    decode 0xBF1380C3 = .ok (.reply 2 14 3) ∧ decode 0xB425A606 = .ok (.rst 2 11 9 2 6) ∧ decode 0xB693B384 = .ok (.rld 9 7 12 3 1 4) ∧
    decode 0xB8559D01 = .ok (.ramoAdd 5 11 7 1 0 1) ∧ decode 0xB845158D = .ok (.ramoMin 4 10 5 1 1 5) ∧ decode 0xB8E43493 = .ok (.ramoMax 14 8 13 0 1 3) ∧
    decode 0xB8C5A719 = .ok (.ramoAnd 12 11 9 3 0 1) :=
  ⟨rfl, rfl, rfl, rfl, rfl, rfl, rfl, rfl, rfl, rfl, rfl, rfl, rfl, rfl, rfl, rfl, rfl, rfl, rfl, rfl, rfl, rfl, rfl, rfl, rfl⟩

theorem test_decode_ramoOr_to_amocas :
    decode 0xB8B29A25 = .ok (.ramoOr 11 5 6 2 0 5) ∧ decode 0xB8151CAA = .ok (.ramoXor 1 10 7 0 1 2) ∧ decode 0xB853A536 = .ok (.ramoSwap 5 7 9 1 0 6) ∧
    decode 0xB8B3353F = .ok (.ramoFadd 11 6 13 7) ∧ decode 0xBAD00005 = .ok (.msgPorch 13 5) ∧ decode 0xBAD00009 = .ok (.msgLen 13 1) ∧
    decode 0xBA000013 = .ok (.msgSkip 3) ∧ decode 0xBC030C01 = .ok (.qenq 6 3 1) ∧ decode 0xBCB19C01 = .ok (.qenqR 11 3 7 1) ∧
    decode 0xBC65100F = .ok (.qclaim 6 10 4 7) ∧ decode 0xBC022C12 = .ok (.qpub 4 11 2) ∧ decode 0xBC11001D = .ok (.qstat 1 2 5) ∧
    decode 0xBC010022 = .ok (.qfreeze 2 2) ∧ decode 0xBC060029 = .ok (.qthaw 12 1) ∧ decode 0xBC160036 = .ok (.qskip 1 12 6) ∧
    decode 0xC0B70C04 = .ok (.amoAdd 11 14 3 0 4) ∧ decode 0xC0D6100A = .ok (.amoMin 13 12 4 0 2) ∧ decode 0xC0869E15 = .ok (.amoMax 8 13 7 2 5) ∧
    decode 0xC017331E = .ok (.amoMinz 1 14 12 3 6) ∧ decode 0xC0359922 = .ok (.amoMaxz 3 11 6 1 2) ∧ decode 0xC0B51529 = .ok (.amoAnd 11 10 5 1 1) ∧
    decode 0xC0661C36 = .ok (.amoOr 6 12 7 0 6) ∧ decode 0xC0D5263B = .ok (.amoXor 13 10 9 2 3) ∧ decode 0xC0868647 = .ok (.amoSwap 8 13 1 2 7) ∧
    decode 0xC243B0BD = .ok (.amocas 4 7 12 5 3 5) :=
  ⟨rfl, rfl, rfl, rfl, rfl, rfl, rfl, rfl, rfl, rfl, rfl, rfl, rfl, rfl, rfl, rfl, rfl, rfl, rfl, rfl, rfl, rfl, rfl, rfl, rfl⟩

theorem test_decode_famoFaddx_to_mxmas :
    decode 0xC4E20502 = .ok (.famoFaddx 14 4 1 1 2) ∧ decode 0xC474AD09 = .ok (.famoFmin 7 9 11 1 1) ∧ decode 0xC4360411 = .ok (.famoFmax 3 12 1 0 1) ∧
    decode 0xC4152C1F = .ok (.famoFrdx 1 10 11 0 7) ∧ decode 0xC6069207 = .ok (.redAdd 13 4 2 7) ∧ decode 0xC6038E0A = .ok (.redMin 7 3 2 2) ∧
    decode 0xC6062F17 = .ok (.redMax 12 11 3 7) ∧ decode 0xC606101D = .ok (.redMinz 12 4 0 5) ∧ decode 0xC6051222 = .ok (.redMaxz 10 4 2 2) ∧
    decode 0xC607302E = .ok (.redAnd 14 12 0 6) ∧ decode 0xC6058A35 = .ok (.redOr 11 2 2 5) ∧ decode 0xC6043A3E = .ok (.redXor 8 14 2 6) ∧
    decode 0xC6051081 = .ok (.redFaddx 10 4 0 1) ∧ decode 0xC605048A = .ok (.redFmin 10 1 0 2) ∧ decode 0xC6059295 = .ok (.redFmax 11 4 2 5) ∧
    decode 0xC8868004 = .ok (.barArr 8 13 4) ∧ decode 0xC8E0800F = .ok (.barDrop 14 1 7) ∧ decode 0xC803AC11 = .ok (.barWait 7 11 1) ∧
    decode 0xC864B81F = .ok (.barTest 6 9 14 7) ∧ decode 0xCA329C02 = .ok (.tspawn 3 5 7 2) ∧ decode 0xCCD00006 = .ok (.taskGvt 13 6) ∧
    decode 0xCCE0000D = .ok (.taskTs 14 5) ∧ decode 0xD0002247 = .ok (.mxma 1 2 2 0 7) ∧ decode 0xD004E56F = .ok (.mxmaZ 7 5 3 1 7) ∧
    decode 0xD2006504 = .ok (.mxmas 3 5 0 0 4) :=
  ⟨rfl, rfl, rfl, rfl, rfl, rfl, rfl, rfl, rfl, rfl, rfl, rfl, rfl, rfl, rfl, rfl, rfl, rfl, rfl, rfl, rfl, rfl, rfl, rfl, rfl⟩

theorem test_decode_mxmasZ_to_trayput :
    decode 0xD2042506 = .ok (.mxmasZ 1 5 0 0 6) ∧ decode 0xD4006566 = .ok (.mxmt 3 5 3 0 6) ∧ decode 0xD4044357 = .ok (.mxmtZ 2 3 2 2 7) ∧
    decode 0xD6000006 = .ok (.lease 6) ∧ decode 0xD6040007 = .ok (.unlease 7) ∧ decode 0xD6080022 = .ok (.mxwaitb 1 2) ∧
    decode 0xD800E903 = .ok (.tld 7 9 3) ∧ decode 0xD8048501 = .ok (.tst 4 5 1) ∧ decode 0xD8094001 = .ok (.tzero 10 1) ∧
    decode 0xD80CA007 = .ok (.twaitc 5 7) ∧ decode 0xDA00ED06 = .ok (.qnt 7 13 6) ∧ decode 0xDC004703 = .ok (.dqnt 2 7 3) ∧
    decode 0xDE004801 = .ok (.isect 2 8 1) ∧ decode 0xDE04AA02 = .ok (.part 5 10 2) ∧ decode 0xDE096505 = .ok (.bmpackP 11 5 5) ∧
    decode 0xDE09090F = .ok (.bmpackX 8 9 7) ∧ decode 0xDE09CB15 = .ok (.bmpackC 14 11 5) ∧ decode 0xDE086919 = .ok (.bmpackCt 3 9 1) ∧
    decode 0xE0016115 = .ok (.prune 11 1 2 5) ∧ decode 0xE005C202 = .ok (.msearch 14 2 2) ∧ decode 0xE200C002 = .ok (.apass 6 2) ∧
    decode 0xE2044707 = .ok (.asub 2 7 7) ∧ decode 0xE204850A = .ok (.asubNd 4 5 2) ∧ decode 0xE2094C07 = .ok (.aunsub 10 12 7) ∧
    decode 0xE20C4B07 = .ok (.trayput 2 11 7) :=
  ⟨rfl, rfl, rfl, rfl, rfl, rfl, rfl, rfl, rfl, rfl, rfl, rfl, rfl, rfl, rfl, rfl, rfl, rfl, rfl, rfl, rfl, rfl, rfl, rfl, rfl⟩

theorem test_decode_trayget_to_dbgRd :
    decode 0xE2110E03 = .ok (.trayget 8 14 3) ∧ decode 0xE2154003 = .ok (.aclose 10 3) ∧ decode 0xE4018006 = .ok (.trec 12 6) ∧
    decode 0xE4040003 = .ok (.tend 3) ∧ decode 0xE4098804 = .ok (.treplay 12 8 4) ∧ decode 0xE40C4006 = .ok (.tpatchA 2 6) ∧
    decode 0xE40CE00C = .ok (.tpatchB 7 4) ∧ decode 0xE40CE213 = .ok (.tpatchE 7 2 3) ∧ decode 0xE411AA07 = .ok (.tguard 13 10 7) ∧
    decode 0xE410670A = .ok (.tguardEarly 3 7 2) ∧ decode 0xE610E013 = .ok (.eset 4 7 2 3) ∧ decode 0xE8070001 = .ok (.trace 14 1) ∧
    decode 0xE807300C = .ok (.mark 14 12 4) ∧ decode 0xEA320404 = .ok (.dbgSet 3 4 1 4) ∧ decode 0xEA30000C = .ok (.dbgClr 3 4) ∧
    decode 0xEA909016 = .ok (.dbgRd 9 1 4 6) :=
  ⟨rfl, rfl, rfl, rfl, rfl, rfl, rfl, rfl, rfl, rfl, rfl, rfl, rfl, rfl, rfl, rfl⟩

/-- Words that the spec prints beside their assembly text. -/
theorem test_decode_printed : decode 0x10700080 = .ok (.csrr 7 16 0) ∧ decode 0xE6050000 = .ok (.eset 1 8 0 0) ∧ decode 0xA4088300 = .ok (.cpy 0 2 4 3 0) ∧ decode 0xA0928030 = .ok (.gld 9 5 0 3 0 0) ∧
    decode 0x16030010 = .ok (.flagsSet 6 0) ∧ decode 0x6A01A608 = .ok (.xaccp 3 9 2 0) ∧ decode 0x6AA18010 = .ok (.xrnd 10 3 0 0) ∧ decode 0x84000008 = .ok (.gang4 0) ∧
    decode 0xD8006500 = .ok (.tld 3 5 0) ∧ decode 0xD0008710 = .ok (.mxma 4 7 0 2 0) ∧ decode 0xDA004700 = .ok (.qnt 2 7 0) ∧ decode 0xE0008508 = .ok (.prune 4 5 1 0) ∧
    decode 0xA4280D18 = .ok (.cpyArm 0 2 13 3 0) ∧ decode 0xB10A12C0 = .ok (.send 1 0 1 8 9 3 0) ∧ decode 0xBF0A40C0 = .ok (.reply 1 9 0) ∧ decode 0xB8921480 = .ok (.ramoAdd 9 4 5 0 1 0) ∧
    decode 0xC0921508 = .ok (.amoMin 9 4 5 1 0) ∧ decode 0xC4921608 = .ok (.famoFmin 9 4 5 2 0) ∧ decode 0xC8222418 = .ok (.barTest 2 4 9 0) ∧ decode 0xBC320808 = .ok (.qclaim 3 4 2 0) ∧
    decode 0xCA04A800 = .ok (.tspawn 0 9 10 0) ∧ decode 0x09007FC8 = .ok (.loop 16 4089 0) ∧ decode 0x20DF0018 = .ok (.or 13 30 0 0 0 0) ∧ decode 0x342CC410 = .ok (.cmpLt 2 25 17 0 0 0) ∧
    decode 0xA3690070 = .ok (.gst 22 18 1 3 0) ∧ decode 0x037FFFFD = .ok (.br 5 1 2097149) :=
  ⟨rfl, rfl, rfl, rfl, rfl, rfl, rfl, rfl, rfl, rfl, rfl, rfl, rfl, rfl, rfl, rfl, rfl, rfl, rfl, rfl, rfl, rfl, rfl, rfl, rfl, rfl⟩

/-- A word of each class of unassigned encodings (R41): a reserved format, a branch on a false p0, wide register 16, the port q1 as a source, the word 0. -/
theorem test_decode_rejects : decode 0x6084AB00 = .error 1 ∧ decode 0x02000000 = .error 2 ∧ decode 0x75010C80 = .error 3 ∧ decode 0x608EA800 = .error 4 ∧ decode 0 = .error 5 := ⟨rfl, rfl, rfl, rfl, rfl⟩

/-! Well-formedness: a term that each check refuses. -/

theorem test_wf_field_too_wide : (Instr.addi 5 6 4096 0).wellFormed = false ∧ (Instr.add 32 6 7 1 1 0).wellFormed = false ∧ (Instr.br 8 1 0).wellFormed = false := by decide +kernel

theorem test_wf_reserved_code : ∀ i ∈ [Instr.fadd 5 6 7 3 0, .vfadd 1 2 3 3 0, .famoFmin 5 6 7 3 0, .redFmax 6 7 3 0, .xaccp 5 6 0 0, .xrnd 5 6 1 0, .cvt 5 6 2 2 0, .vcvt 1 2 0 2 2 0, .vcmpEq 1 2 3 7 0, .vcmpLtz 1 2 4 0,
    .bswap 5 6 3 0 0, .cpy 0 0 5 6 0, .cpyArm 0 0 6 2 0, .eset 15 6 2 0, .csrr 5 0xFFF 0, .csrw 5 0xFFF 0, .prune 5 6 3 0], i.flaw1 = true ∧ i.wellFormed = false := by decide +kernel

theorem test_wf_reserved_form : ∀ i ∈ [Instr.br 0 0 4, .call 0 0 4, .send 0 0 0 6 7 0 0, .send 1 0 1 6 7 0 0, .sendm 0 0 0 6 7 0 0, .reply 0 6 0, .dbgRd 5 2 0 0, .predAnd 8 1 2 0, .cmpEq 9 6 7 1 1 0],
    i.flaw2 = true ∧ i.wellFormed = false := by decide +kernel

theorem test_wf_out_of_range : ∀ i ∈ [Instr.vfma 16 2 3 4 0, .loop 0 0 0, .tld 12 5 0, .dbgClr 8 0, .vcvt 1 2 4 0 1 0], i.flaw3 = true ∧ i.wellFormed = false := by decide +kernel

theorem test_wf_port_misuse : ∀ i ∈ [Instr.add 5 29 7 1 1 0, .add 28 6 7 1 1 0, .add 30 6 7 1 1 0, .sleep 28 0, .ctxload 0 6 7 0], i.flaw4 = true ∧ i.wellFormed = false := by decide +kernel

theorem test_wf_accepts : (Instr.add 5 6 7 1 1 0).wellFormed = true ∧ (Instr.vfma 15 2 3 4 7).wellFormed = true := by decide +kernel

/-! Results. The expected values are the spec's worked examples and tables, or worked by hand from its rules. -/

/-- ALU (R110): 8 bits wrap and sign-extend, 64 bits wrap; a shift counts modulo the width. -/
theorem test_add_wraps : (out (.add 5 8 9 3 1 0) (withG 8 0x7F (withG 9 1 base))).g 5 = word (2 ^ 64 - 128) ∧ (out (.add 5 8 9 0 0 0) (withG 8 (2 ^ 64 - 1) (withG 9 2 base))).g 5 = 1 := by decide +kernel
theorem test_shl_counts_modulo : (out (.shl 5 8 9 1 0 0) (withG 8 3 (withG 9 33 base))).g 5 = 6 := by decide +kernel

/-- FADD (R99, R105, R125, the example of 05): 2^24 + 1 is a tie, which goes to 2^24 and sets NX. -/
theorem test_fadd_tie : let t := out (.fadd 11 8 9 0 0) (withG 8 0x4B800000 (withG 9 0x3F800000 base))
    t.g 11 = 0x4B800000 ∧ t.st.csr.fpflags = 1 := by decide +kernel

/-- CVT (R102, the example of 04): 1.0625 + 2^-20 goes to the qf8 0x39. -/
theorem test_cvt_one_rounding : (out (.cvt 5 8 5 2 0) (withG 8 0x3F880008 base)).g 5 = 0x39 := by decide +kernel

/-- XACC (R132, the example of 05): 1.0 adds 2^266 to the accumulator: doubleword 4 becomes 0x400. -/
theorem test_xacc_bit : (let t := out (.xacc 8 9 0 0) (withG 8 0x100 (withG 9 0x3F800000 crewed)); t.core.scratch.rdN 0x120 8) = 0x400 := by decide +kernel

/-- XRND (R133): back to 1.0. -/
theorem test_xrnd_one : (out (.xrnd 5 8 0 0) ((withG 8 0x100 crewed).modCore fun c => { c with scratch := c.scratch.wrN 0x120 8 0x400 })).g 5 = 0x3F800000 := by decide +kernel

/-- ST (R66): little-endian bytes at the local offset; LD (R66) of a byte extends its sign. -/
theorem test_st_bytes : (out (.st 9 8 0 2 0) (withG 8 0x100 (withG 9 0x11223344 crewed))).core.scratch.get 0x100 4 = [0x44, 0x33, 0x22, 0x11] := by decide +kernel
theorem test_ld_extends : (out (.ld 5 8 0 0 0 0) ((withG 8 0x100 crewed).modCore fun c => { c with scratch := c.scratch.wrN 0x100 1 0x80 })).g 5 = word (2 ^ 64 - 128) := by decide +kernel

/-- TRAP (R55, R58): TRAPINFO is the immediate, TRAPPC the pc, the strand goes on at TRAPVEC in the trap state; RFT (R59) goes back, RFT.SKIP behind it. -/
def vectored : State := base.modSt fun t => { t with pc := 64, csr := { t.csr with trapvec := 0x1000 } }
theorem test_trap_enters : let t := out (.trap 7 0) vectored
    t.st.csr.trapinfo = 7 ∧ t.st.csr.trappc = 64 ∧ t.st.pc = 0x1000 ∧ t.st.ts = true := by decide +kernel
theorem test_rft_returns : (out (.rft 0) (out (.trap 7 0) vectored)).st.pc = 64 ∧ (out (.rftSkip 0) (out (.trap 7 0) vectored)).st.pc = 68 ∧ (out (.rft 0) (out (.trap 7 0) vectored)).st.ts = false := by
  decide +kernel

/-- CALL and RET (R50, R51); LOOP (R52) goes back while its counter is not zero. -/
theorem test_call_links : let t := out (.call 0 1 4) vectored
    t.st.pc = 80 ∧ t.g 27 = 68 ∧ (out (.ret 0) t).st.pc = 68 := by decide +kernel
theorem test_loop_ends : (out (.loop 8 4095 0) (withG 8 2 vectored)).st.pc = 60 ∧ (out (.loop 8 4095 0) (withG 8 1 vectored)).st.pc = 68 := by decide +kernel

/-- A barrier (R255, R256, the example of 11) of three parties in phase 7 with one arrived: the drop is the second, the arrival after it ends the phase; two parties
are expected in phase 8. -/
def dropCell : State := (((waiting { (atomic .arrive 0 0 0) with op := 1 }).setPhysN (memKey 0 0 0) 8 2).setPhysN (memKey 0 0 16) 8 (3 + 2 ^ 32)).setPhysN (memKey 0 0 24) 8 7
noncomputable def dropped : State := out (.barrierArrival 0 0 5) dropCell
theorem test_barrier_drop : dropped.physN (memKey 0 0 20) 4 = 2 ∧ dropped.physN (memKey 0 0 28) 4 = 1 ∧ dropped.physN (memKey 0 0 24) 4 = 7 := by decide +kernel
theorem test_barrier_last : let t := out (.barrierArrival 0 0 5) (withOps [atomic .arrive 0 0 0] dropped)
    t.physN (memKey 0 0 16) 4 = 2 ∧ t.physN (memKey 0 0 20) 4 = 0 ∧ t.physN (memKey 0 0 24) 4 = 8 ∧ t.g 5 = 7 := by decide +kernel

/-- VADD (R136) of bytes wraps in each lane. -/
theorem test_vadd_lanes : ((out (.vadd 1 2 3 3 0 0) (base.modSt fun t => { t with w := vset (vset t.w 2 0x01FF) 3 0x0101 })).st.w[1]).toNat = 0x0200 := by decide +kernel

/-- The reset state runs a placed `add.s32 g5, g6, g7`: the pc is at the next word. -/
theorem test_step_runs : (match step (placed 0x20531D80) with
    | .next t => (vget t.core.strands 0 {}).pc == 4
    | _ => false) = true := by decide +kernel

/-- An unassigned word traps ILLEGAL with its class (R41); with no handler (TRAPVEC 0) the strand halts (R56). -/
theorem test_step_illegal : (match step (placed 0) with
    | .next t => (vget t.core.strands 0 {}).life == .halted && (vget t.core.strands 0 {}).csr.trapcode.toNat == 1
    | _ => false) = true := by decide +kernel

/-- decodeTableWord reads the bits as the table numbers them. -/
theorem test_table_word : decodeTableWord 32 0x20531D80 = some (.add 5 6 7 1 1 0) ∧ decodeTableWord 32 0 = none := ⟨rfl, rfl⟩

/-- MXMA (R168, R169, the example of 06): 2^24, fifteen products of 1 and the outlier product −2^24 sum to 15, exactly. -/
def tileA : List Byte := 0x7F :: List.replicate 15 0 ++ ([0x38, 0x38, 0x38, 0x80] ++ List.replicate 12 0x38) ++ List.replicate 3808 0 ++ [0x80, 0xCB, 0x03, 0x00] ++
  (List.replicate 63 [0, 0, 0xFF, 0xFF]).flatten
theorem test_mxma_outlier : matrixStep 0 0 0x01110401 0x000B0401 0x41 false tileA (List.replicate 16 0x38) [0x00, 0x00, 0x80, 0x4B] = ([0x00, 0x00, 0x70, 0x41], 0) := by decide +kernel

/-! ## Witnesses: a print -/

/-- A print of a negative whose stream on core (0, 0) holds one entry of each kind that its statement names, at entry i. -/
def printing (i nc : Nat) (failed : Option Trap) : State :=
  let e (m : Mem) (n k w v : Nat) : Mem := (m.wrN (4224 + 16 * n) 8 (k + w * 2 ^ 32)).wrN (4224 + 16 * n + 8) 8 v
  let m := (((Mem.wrN [] 8 8 (4096 + 1024 * 2 ^ 22)).wrN (4096 + 8) 8 (1 + 2 ^ 12 + nc * 2 ^ 24)).wrN (4096 + 64) 8 0).wrN (4096 + 72) 8 (128 + 8 * 2 ^ 22)
  let m := e (e (e (e m 0 4 0x31 5) 1 3 2 77) 2 1 (0x6C * 2 ^ 25 + 2 * 2 ^ 18) 0) 3 2 0 0
  let m := e (e (e (e m 4 6 0 (3 * 2 ^ 32)) 5 6 0 (100 * 2 ^ 32)) 6 9 0 0) 7 0 0 0
  ((crewed.modDie 0 fun d => { d with tapeMem := m }).modSys fun y => { y with
    prints := [{ id := 7, crew := 1, num := 7, die := 0, entry := 0, failed := failed }] }).modCore
    fun c => { c with tgeom := vset c.tgeom 0 (word (16 + 32 * 64 + 10 * 2 ^ 16)), tape := { c.tape with print := some 7, pos := i, dest := 9 } }

/-- The print of `printing`. -/
def thePrint (failed : Option Trap) : Print := { id := 7, crew := 1, num := 7, die := 0, entry := 0, failed := failed }

/-- The core of `printing` before it joined. -/
def joining (nc : Nat) : State := (printing 0 nc none).modCore fun c => { c with tape := {} }

theorem witness_TapeReplay_join : ReadyPlain 0 [6, 7] (joining 1) ∧ sourcesOf [6, 7] (joining 1) = some ([7, 9], joining 1) ∧
    (joining 1).crew = some { id := 1, job := 1, idx := 0, x0 := 0, y0 := 0, x1 := 3, y1 := 3 } ∧ (joining 1).printOf (joining 1).core = none ∧
    ((joining 1).sys.prints.find? fun q => q.crew == 1 && q.num == (7 : Word).toNat % 2 ^ 16 && !q.launch) = some (thePrint none) ∧
    (joining 1).here ∉ (thePrint none).ended ∧ ((joining 1).die 0).negStream 0 0 = some (128, 8) ∧ ((joining 0).die 0).negStream 0 0 = none ∧
    ReadyPlain 0 [6, 7] (joining 0) ∧ sourcesOf [6, 7] (joining 0) = some ([7, 9], joining 0) ∧ writeOf 6 0 (joining 0) = some ((joining 0).setG 6 0) :=
  ⟨plain_of (by decide +kernel) (by decide +kernel), src2 (by decide +kernel), by decide +kernel, by decide +kernel, by decide +kernel, by decide +kernel,
    by decide +kernel, by decide +kernel, plain_of (by decide +kernel) (by decide +kernel), src2 (by decide +kernel), dst1 (by decide)⟩

theorem witness_TapeReplay_runs : ∀ i < 8, let s := printing i 1 none
    s.inMesh s.here = true ∧ s.k < 16 ∧ s.printOf s.core = some (thePrint none) ∧ s.core.tape.driver = s.k ∧ s.core.tape.fin = false ∧
    s.crew = some { id := 1, job := 1, idx := 0, x0 := 0, y0 := 0, x1 := 3, y1 := 3 } ∧ (s.die 0).negStream 0 (Crew.uvOf { id := 1, job := 1, idx := 0, x0 := 0, y0 := 0, x1 := 3, y1 := 3 } s.here) = some (128, 8) ∧
    s.core.tape.pos = i ∧ (((s.die 0).negEntry 0 128 i).kind) = [4, 3, 1, 2, 6, 6, 9, 0].getD i 0 ∧ s.core.tape.dest = 9 := by decide +kernel

theorem witness_TapeReplay_entries : let e (i : Nat) := ((printing i 1 none).die 0).negEntry 0 128 i
    (e 0).word = 0x30 + 1 ∧ bits (e 1).word 15 8 = 0 ∧ bits (e 1).word 7 0 = 2 ∧ (e 2).kind ≠ 3 ∧ (e 2).word = 0x6C * 2 ^ 25 + 2 * 2 ^ 18 + 0 * 2 ^ 13 ∧
    (printing 2 1 none).core.tileOk 0 = true ∧ (printing 2 1 none).core.tileBusy 0 true = none ∧ (printing 2 1 none).st.unretired .t < 63 ∧
    (printing 4 1 none).streamAt (thePrint none) { id := 1, job := 1, idx := 0, x0 := 0, y0 := 0, x1 := 3, y1 := 3 } ((e 4).value.toNat % 2 ^ 24) = some (4, false) ∧ (e 4).value.toNat / 2 ^ 32 ≤ 4 ∧
    (printing 5 1 none).streamAt (thePrint none) { id := 1, job := 1, idx := 0, x0 := 0, y0 := 0, x1 := 3, y1 := 3 } ((e 5).value.toNat % 2 ^ 24) = some (5, false) ∧ 5 < (e 5).value.toNat / 2 ^ 32 ∧
    (∀ c ∈ [Cls.l, .s, .c, .t, .m], (printing 6 1 none).st.unretired c = 0) ∧ (printing 6 1 none).st.report (fun _ => 0) = none ∧
    (printing 5 1 (some { code := 1 })).printOf (printing 5 1 (some { code := 1 })).core = some (thePrint (some { code := 1 })) ∧ (thePrint none).launch = false := by
  decide +kernel

/-- R335: an EREG entry sets the register and moves on; FINAL ends the stream with status 0 in the register treplay names. -/
theorem test_replay : let s1 := out (.replayEntry 0 0) (printing 1 1 none)
    let s6 := out (.replayEntry 0 0) (printing 6 1 none)
    let s2 := out (.replayEntry 0 0) (printing 2 1 none)
    vget s1.st.shadow.copy 2 0 = 77 ∧ s1.core.tape.pos = 2 ∧ s6.g 9 = 0 ∧ s6.st.life = .run ∧ s6.st.pc = 4 ∧ s2.st.ops.length = 1 ∧ s2.core.tape.pos = 4 := by
  decide +kernel

end Sys2Proof.Tests
end

section
/-! PROOFS. Scalar floating point (R106, R107, R124): a read of the sources leaves FPCTL as it was captured, so that the flags of a result
are held against the enables of the state the instruction began in. -/

namespace Sys2Proof.Machine

/-! ## The sources leave the control registers alone (R29, R30) -/

theorem State.setP_csr {s : State} (i : Nat) (v : Bool) (hk : s.k < 16) : (s.setP i v).st.csr = s.st.csr := by
  unfold State.setP
  split
  · rfl
  · rw [State.modSt_st _ hk]

/-- What a read of a source operand does to the state: nothing, a pop of q0 or of q2, or p1 set for an empty port (R29). -/
theorem readOf_cases {i : Nat} {s s' : State} {x : Word} (h : readOf i s = some (x, s')) :
    s' = s ∨ s' = s.modSt (fun t => { t with q0 := t.q0 + 1 }) ∨ (∃ ws, s' = s.modSt fun t => { t with q2 := ws }) ∨
      s' = s.setP 1 true := by
  unfold readOf at h
  split at h
  case isTrue => cases h; exact .inl rfl
  case isFalse =>
  split at h
  case isTrue =>
    split at h
    · split at h
      · split at h <;> cases h
        exact .inr (.inl rfl)
      · cases h; exact .inr (.inr (.inr rfl))
    · cases h; exact .inr (.inr (.inr rfl))
  case isFalse =>
  split at h
  case isTrue =>
    split at h
    · cases h; exact .inr (.inr (.inl ⟨_, rfl⟩))
    · split at h <;> cases h
      exact .inr (.inr (.inr rfl))
  case isFalse => cases h

theorem readOf_csr {i : Nat} {s s' : State} {x : Word} (h : readOf i s = some (x, s')) (hk : s.k < 16) : s'.st.csr = s.st.csr := by
  obtain rfl | rfl | ⟨ws, rfl⟩ | rfl := readOf_cases h
  · rfl
  · rw [State.modSt_st _ hk]
  · rw [State.modSt_st _ hk]
  · exact State.setP_csr 1 true hk

/-- Sources read are a first one read and then the rest (R30). -/
theorem sourcesOf_cons {i : Nat} {is : List Nat} {s s' : State} {xs : List Word} (h : sourcesOf (i :: is) s = some (xs, s')) :
    ∃ x s₁ ys, readOf i s = some (x, s₁) ∧ sourcesOf is s₁ = some (ys, s') ∧ xs = x :: ys := by
  simp only [sourcesOf] at h
  split at h
  · cases h
  · next x s₁ hx =>
    split at h
    · cases h
    · next ys s₂ hys => cases h; exact ⟨x, s₁, ys, hx, hys, rfl⟩

theorem sourcesOf_one {a : Nat} {s s' : State} {xs : List Word} (h : sourcesOf [a] s = some (xs, s')) : ∃ x, xs = [x] := by
  obtain ⟨x, _, ys, -, hys, rfl⟩ := sourcesOf_cons h
  cases hys
  exact ⟨x, rfl⟩

theorem sourcesOf_two {a b : Nat} {s s' : State} {xs : List Word} (h : sourcesOf [a, b] s = some (xs, s')) : ∃ x y, xs = [x, y] := by
  obtain ⟨x, _, ys, -, hys, rfl⟩ := sourcesOf_cons h
  obtain ⟨y, rfl⟩ := sourcesOf_one hys
  exact ⟨x, y, rfl⟩

theorem sourcesOf_three {a b c : Nat} {s s' : State} {xs : List Word} (h : sourcesOf [a, b, c] s = some (xs, s')) :
    ∃ x y z, xs = [x, y, z] := by
  obtain ⟨x, _, ys, -, hys, rfl⟩ := sourcesOf_cons h
  obtain ⟨y, z, rfl⟩ := sourcesOf_two hys
  exact ⟨x, y, z, rfl⟩

theorem sourcesOf_csr {is : List Nat} {s s' : State} {xs : List Word} (h : sourcesOf is s = some (xs, s')) (hk : s.k < 16) :
    s'.st.csr = s.st.csr := by
  induction is generalizing s xs with
  | nil => cases h; rfl
  | cons i is ih =>
    obtain ⟨x, s₁, ys, hx, hys, -⟩ := sourcesOf_cons h
    have hk₁ : s₁.k < 16 := by rw [readOf_pc hx]; exact hk
    rw [ih hys hk₁, readOf_csr hx hk]

theorem sourcesOf_fpctl {is : List Nat} {s s' : State} {xs : List Word} (h : sourcesOf is s = some (xs, s')) (hk : s.k < 16) :
    s'.fpctl = s.fpctl := by
  unfold State.fpctl
  rw [sourcesOf_csr h hk]

/-- Three sources read in order (R30). -/
theorem src_three {a b c : Nat} {s s' : State} {x y z : Word} (h : sourcesOf [a, b, c] s = some ([x, y, z], s'))
    (f : Word → Word → Word → State → Act) :
    (src a s fun u s => src b s fun v s => src c s fun w s => f u v w s) = f x y z s' := by
  obtain ⟨_, s₁, _, hx, hyz, e⟩ := sourcesOf_cons h
  cases e
  rw [src_readOf hx, src_two hyz]

/-! ## A result with its flags (R106, R107) -/

/-- An outcome of an instruction that began in s, read its sources into s' and has the pattern r.1 and the flags r.2 for its result: with no
raised exception enabled the flags are set, the pattern is in d and the strand goes on; else the flags alone are set and FP is raised. -/
def FlaggedResult (d : Nat) (r : Nat × Nat) (s s' : State) (o : Host.Outcome State Fault Refusal) : Prop :=
  (r.2 &&& enables s.fpctl = 0 → ∀ t, writeOf d (word r.1) (s'.orFlags r.2) = some t → o = .next t.advance) ∧
  (r.2 &&& enables s.fpctl ≠ 0 → o = .next ((s.orFlags r.2).takeTrap { code := 0x15, info := word r.2 }))

theorem withFlags_flaggedResult (d : Nat) (r : Nat × Nat) {s s' : State} (hc : s'.fpctl = s.fpctl) :
    FlaggedResult d r s s' (settle s (withFlags s'.fpctl r.2 s' (dst d (word r.1)))) := by
  constructor
  · intro quiet t ht
    simp only [withFlags, hc, quiet, bne_self_eq_false, Bool.false_eq_true, if_false, dst_writeOf ht, settle_next, State.advance]
  · intro raised
    simp only [withFlags, hc, bne_iff_ne, ne_eq, raised, not_false_eq_true, if_true, settle_trap]

/-- FARITH (R125, R126). -/
theorem farithOp_flaggedResult (op d a b fmt g : Nat) (s s' : State) (xs : List Word) (hr : Ready g [d, a, b] s)
    (hs : sourcesOf [a, b] s = some (xs, s')) :
    FlaggedResult d
      ((fmtOf fmt).arith op s.fpctl ((xs.getD 0 0).toNat % 2 ^ (fmtOf fmt).width) ((xs.getD 1 0).toNat % 2 ^ (fmtOf fmt).width))
      s s' (farithOp d a b fmt g op s) := by
  obtain ⟨x, y, rfl⟩ := sourcesOf_two hs
  have hc := sourcesOf_fpctl hs hr.strand
  rw [farithOp, issue_ready hr, src_two hs, ← hc]
  exact withFlags_flaggedResult d _ hc

/-- FFMA (R127). -/
theorem fmaOp_flaggedResult (sub d a b c g : Nat) (s s' : State) (xs : List Word) (hr : Ready g [d, a, b, c] s)
    (hs : sourcesOf [a, b, c] s = some (xs, s')) :
    FlaggedResult d
      (fmaRound sub s.fpctl ((xs.getD 0 0).toNat % 2 ^ 32) ((xs.getD 1 0).toNat % 2 ^ 32) ((xs.getD 2 0).toNat % 2 ^ 32))
      s s' (fmaOp d a b c g sub s) := by
  obtain ⟨x, y, z, rfl⟩ := sourcesOf_three hs
  have hc := sourcesOf_fpctl hs hr.strand
  rw [fmaOp, issue_ready hr, src_three hs, ← hc]
  exact withFlags_flaggedResult d _ hc

/-- SFU (R129). -/
theorem sfuOp_flaggedResult (op d a g : Nat) (s s' : State) (xs : List Word) (hr : Ready g [d, a] s)
    (hs : sourcesOf [a] s = some (xs, s')) :
    FlaggedResult d (sfuRound op s.fpctl ((xs.getD 0 0).toNat % 2 ^ 32)) s s' (sfuOp d a g op s) := by
  obtain ⟨x, rfl⟩ := sourcesOf_one hs
  have hc := sourcesOf_fpctl hs hr.strand
  rw [sfuOp, issue_ready hr, src_one hs, ← hc]
  exact withFlags_flaggedResult d _ hc

/-- CVT (R130). -/
theorem cvtOp_flaggedResult (rto : Bool) (d a t u g : Nat) (s s' : State) (xs : List Word) (hr : Ready g [d, a] s)
    (hs : sourcesOf [a] s = some (xs, s')) :
    FlaggedResult d
      (convert 64 t u (if rto then forceRto s.fpctl else s.fpctl) ((xs.getD 0 0).toNat % 2 ^ cvtWidth 64 u))
      s s' (cvtOp d a t u g rto s) := by
  obtain ⟨x, rfl⟩ := sourcesOf_one hs
  have hc := sourcesOf_fpctl hs hr.strand
  rw [cvtOp, issue_ready hr, src_one hs, ← hc]
  exact withFlags_flaggedResult d _ hc

/-- Settles O10: each instruction is an instance of FARITH, FFMA, SFU or CVT, whose results are flagged results; cvto forces the mode alone. -/
theorem floatResults : Obligations.FloatResults := by
  unfold Obligations.FloatResults
  intro d a b c fmt u t' g s
  have farith (op : Nat) := farithOp_flaggedResult op d a b fmt g s
  have ffma (sub : Nat) := fmaOp_flaggedResult sub d a b c g s
  have sfu (op : Nat) := sfuOp_flaggedResult op d a g s
  have cvt (rto : Bool) := cvtOp_flaggedResult rto d a t' u g s
  exact ⟨farith 0, farith 1, farith 2, farith 3, farith 4, farith 5, ffma 0, ffma 1, ffma 2, ffma 3,
    sfu 0, sfu 1, sfu 2, sfu 3, sfu 4, cvt false, cvt true⟩

end Sys2Proof.Machine
end

section
/-! PROOFS. The matrix array and the index engine (R164 to R170, R182 to R187): an engine's accesses leave the strands of the focused core as
they are, so that what a command retires from is the strand that issued it; and what a completion leaves of a core and of a cluster. -/

namespace Sys2Proof.Machine

/-! ## What an engine's accesses leave in place (R76, R355) -/

/-- The focus is where it was, and the strands of the focused core are as they were. -/
structure KeepsStrands (s t : State) : Prop where
  here : t.here = s.here
  strand : t.k = s.k
  strands : t.core.strands = s.core.strands

namespace KeepsStrands

theorem refl (s : State) : KeepsStrands s s := ⟨rfl, rfl, rfl⟩

theorem trans {s t u : State} (h : KeepsStrands s t) (h' : KeepsStrands t u) : KeepsStrands s u :=
  ⟨h'.here.trans h.here, h'.strand.trans h.strand, h'.strands.trans h.strands⟩

theorem of_core {s t : State} (hc : t.core = s.core) (hk : t.k = s.k) : KeepsStrands s t :=
  ⟨congrArg Core.coord hc, hk, congrArg Core.strands hc⟩

/-- An access that ended in a state and a result. -/
theorem of_eq {α : Type} {s t : State} {r : State × α} {x : α} (h : KeepsStrands s r.1) (e : r = (t, x)) : KeepsStrands s t := by
  rw [e] at h; exact h

theorem ite {c : Prop} [Decidable c] {s t u : State} (ht : KeepsStrands s t) (hu : KeepsStrands s u) :
    KeepsStrands s (if c then t else u) := by
  split <;> assumption

/-- The same of the state of a result. -/
theorem ite_fst {α : Type} {c : Prop} [Decidable c] {s : State} {a b : State × α} (ha : KeepsStrands s a.1) (hb : KeepsStrands s b.1) :
    KeepsStrands s (if c then a else b).1 := by
  split <;> assumption

theorem foldl {α : Type} {f : State → α → State} (h : ∀ s a, KeepsStrands s (f s a)) (l : List α) (s : State) :
    KeepsStrands s (l.foldl f s) := by
  induction l generalizing s with
  | nil => exact refl s
  | cons a l ih => exact (h s a).trans (ih (f s a))

theorem st {s t : State} (h : KeepsStrands s t) : t.st = s.st := by
  unfold State.st; rw [h.strands, h.strand]

end KeepsStrands

/-! Memory written, translated addresses (R355 to R364, R371). -/

theorem State.resealed_keepsStrands (s : State) (gid : Nat) (va : Option Nat) (u n : Nat) : KeepsStrands s (s.resealed gid va u n) := by
  unfold State.resealed; dsimp only; split <;> exact .of_core rfl rfl

theorem State.writeUnit_keepsStrands (s : State) (gid : Nat) (va : Option Nat) (always : Bool) (u off : Nat) (bs : List Byte) :
    KeepsStrands s (s.writeUnit gid va always u off bs) := by
  unfold State.writeUnit; dsimp only
  split
  · exact .of_core rfl rfl
  · refine .ite (.of_core rfl rfl) (.ite ?_ (.of_core rfl rfl))
    exact (s.resealed_keepsStrands gid va u 256).trans (.of_core rfl rfl)

theorem State.writeMem_keepsStrands (s : State) (gid : Nat) (va : Option Nat) (always : Bool) (k : Nat) (bs : List Byte) :
    KeepsStrands s (s.writeMem gid va always k bs) := by
  unfold State.writeMem
  exact .ite (.of_core rfl rfl) (.foldl (fun s _ => s.writeUnit_keepsStrands ..) _ _)

theorem walkFrom_keepsStrands (gid va cl fuel : Nat) (s : State) (level module base place : Nat) :
    KeepsStrands s (walkFrom s gid va cl fuel level module base place).1 := by
  induction fuel generalizing s level module base place with
  | zero => exact .refl s
  | succ fuel ih =>
    unfold walkFrom; dsimp only
    split
    · exact .refl s
    · split
      · split <;> exact .refl s
      · split
        · exact .refl s
        · split
          · exact .refl s
          · split
            · exact (s.writeMem_keepsStrands ..).trans (ih ..)
            · exact ih ..

theorem settled_keepsStrands {s : State} (va : Nat) (r : State × Walk) (h : KeepsStrands s r.1) : KeepsStrands s (settled va r).1 := by
  unfold settled
  split
  · split
    · exact h
    · exact h.trans (.of_core rfl rfl)
  · exact h

theorem State.walk_keepsStrands (s : State) (gid va cl : Nat) : KeepsStrands s (s.walk gid va cl).1 := by
  unfold State.walk
  split
  · exact .refl s
  · split
    · exact .refl s
    · split
      · exact .refl s
      · exact settled_keepsStrands va _ (walkFrom_keepsStrands ..)

theorem State.walkIn_keepsStrands (s : State) (gid va k : Nat) : KeepsStrands s (s.walkIn gid va k).1 := by
  unfold State.walkIn
  split
  · exact (settled_keepsStrands va _ (walkFrom_keepsStrands ..)).trans (.of_core rfl rfl)
  · exact (s.walk_keepsStrands gid va (k % 144)).trans (.of_core rfl rfl)

theorem State.useLeaf_keepsStrands (s : State) (e : TlbEntry) : KeepsStrands s (s.useLeaf e).1 := by
  unfold State.useLeaf State.wants
  split
  · exact .ite (.refl s) (.of_core rfl rfl)
  · exact .refl s

theorem State.translate_keepsStrands (s : State) (gid va cl : Nat) : KeepsStrands s (s.translate gid va cl).1 := by
  unfold State.translate
  split
  · exact s.useLeaf_keepsStrands _
  · split
    · have h := s.walk_keepsStrands gid va (cl % 144)
      split <;> rename_i e
      · exact (h.of_eq e).trans (State.useLeaf_keepsStrands _ _)
      · exact h.of_eq e
      · exact h.of_eq e
    · split
      · exact .refl s
      · have h := s.walkIn_keepsStrands gid va cl
        split <;> rename_i e
        · refine (h.of_eq e).trans (.trans ?_ (State.useLeaf_keepsStrands _ _))
          exact .of_core rfl rfl
        · exact h.of_eq e
        · exact h.of_eq e

theorem State.translateFor_keepsStrands (s : State) (p : Party) (va : Nat) : KeepsStrands s (s.translateFor p va).1 := by
  unfold State.translateFor
  split
  · exact s.useLeaf_keepsStrands _
  · exact s.translate_keepsStrands ..

theorem State.modCore_keepsStrands (s : State) (f : Core → Core) (hc : (f s.core).coord = s.core.coord)
    (hs : (f s.core).strands = s.core.strands) : KeepsStrands s (s.modCore f) := ⟨hc, rfl, hs⟩

/-! Frames and scratchpads (R219, R346, R362, R410). -/

theorem State.drawn_keepsStrands (s : State) : KeepsStrands s s.drawn := .of_core rfl rfl

theorem State.evict_keepsStrands (s : State) (key n : Nat) : KeepsStrands s (s.evict key n) :=
  .ite (.refl s) (.of_core rfl rfl)

theorem State.oldUnit_keepsStrands (s : State) (e : TlbEntry) (module upa : Nat) : KeepsStrands s (s.oldUnit e module upa).2 := by
  unfold State.oldUnit
  split <;> exact .of_core rfl rfl

theorem State.writeFrame_keepsStrands (s : State) (e : TlbEntry) (va : Nat) (bs : List Byte) : KeepsStrands s (s.writeFrame e va bs) := by
  have clean (key n : Nat) : KeepsStrands s (s.unpoisoned key n) := .of_core rfl rfl
  unfold State.writeFrame
  refine .ite ((clean ..).trans (State.writeMem_keepsStrands ..)) ((clean ..).trans (.foldl (fun t _ => ?_) _ _))
  exact (t.oldUnit_keepsStrands ..).trans ((State.writeMem_keepsStrands ..).trans (State.writeMem_keepsStrands ..))

/-- The core that a coordinate names bears it (R5). -/
theorem State.coreAt_coord (s : State) {c : Nat} (h : c < 2 ^ 24) : (s.coreAt c).coord = c := by
  unfold State.coreAt
  split
  · assumption
  · cases found : findKey Core.coord s.others c with
    | none =>
      show pack (unpackX c) (unpackY c) = c
      unfold pack unpackX unpackY
      omega
    | some core => simpa using List.find?_some found

/-- What is done at another core, and moves neither the focus nor a strand, leaves the focused core as it is. -/
theorem State.atCore_keepsStrands (s : State) {c : Nat} (k : Nat) {f : State → State} (hc : c < 2 ^ 24)
    (hf : ∀ t, KeepsStrands t (f t)) (ho : ∀ t, (f t).others = t.others) : KeepsStrands s (s.atCore c k f) := by
  have h := hf (s.focus c k)
  unfold State.atCore
  by_cases own : s.here = c
  · have stays : s.focus c k = { s with k := k } := if_pos own
    rw [stays] at h ⊢
    have back : (f { s with k := k }).here = s.here := h.here
    rw [State.focus, if_pos back]
    exact ⟨back, rfl, h.strands⟩
  · have away : (f (s.focus c k)).here = c := by
      rw [h.here, State.focus, if_neg own]; exact s.coreAt_coord hc
    have kept : (f (s.focus c k)).others = s.core :: dropKey Core.coord c s.others := by
      rw [ho, State.focus, if_neg own]
    rw [State.focus, if_neg (by rw [away]; exact Ne.symm own)]
    refine .of_core ?_ rfl
    show State.coreAt _ _ = _
    rw [State.coreAt, if_neg (by rw [away]; exact Ne.symm own), kept]
    simp [findKey, State.here]

theorem State.wake_keepsStrands (s : State) (bs : List Nat) : KeepsStrands s (s.wake bs) := by
  unfold State.wake
  refine .foldl (fun s _ => ?_) bs s
  exact .ite ⟨rfl, rfl, rfl⟩ (.refl s)

theorem State.wake_others (s : State) (bs : List Nat) : (s.wake bs).others = s.others := by
  unfold State.wake
  induction bs generalizing s with
  | nil => rfl
  | cons b bs ih => rw [List.foldl_cons, ih]; split <;> rfl

theorem TlbEntry.scratchCore_lt (e : TlbEntry) : e.scratchCore < 2 ^ 24 := Nat.mod_lt _ (by decide)

/-! An engine's reads and writes (R76). -/

theorem State.accessLeaf_keepsStrands (s : State) (p : Party) (e : TlbEntry) (va n : Nat) (w : Option (List Byte)) (dry : Bool) :
    KeepsStrands s (s.accessLeaf p e va n w dry).1 := by
  have hc := e.scratchCore_lt
  unfold State.accessLeaf; dsimp only
  refine .ite_fst (.refl s) (.ite_fst (.refl s) (.ite_fst (.refl s) (.ite_fst ?scratch ?memory)))
  case scratch =>
    refine .ite_fst (.refl s) (.ite_fst (.refl s) ?_)
    split
    · exact .refl s
    · refine .ite_fst ?asleep ?awake
      case asleep =>
        dsimp only
        exact s.atCore_keepsStrands 0 hc (fun t => t.wake_keepsStrands _) fun t => t.wake_others _
      case awake =>
        split
        · exact .refl s
        · exact .refl s
        · refine .ite_fst (.refl s) ?_
          dsimp only
          exact s.atCore_keepsStrands 0 hc (fun t => t.modCore_keepsStrands _ rfl rfl) fun _ => rfl
  case memory =>
    have drawn : KeepsStrands s (if (!dry && e.onHost) = true then s.drawn else s) := .ite s.drawn_keepsStrands (.refl s)
    refine .ite_fst (.refl s) (.ite_fst (.refl s) (.ite_fst s.drawn_keepsStrands ?_))
    generalize (if (!dry && e.onHost) = true then s.drawn else s) = t at drawn ⊢
    generalize memKey e.type (e.home t) (e.pa va) = key
    have evicted : KeepsStrands s (if (e.race && !p.quiet) = true then t.evict key n else t) :=
      drawn.trans (.ite (t.evict_keepsStrands key n) (.refl t))
    generalize (if (e.race && !p.quiet) = true then t.evict key n else t) = u at evicted ⊢
    split
    · exact evicted
    · split
      · split <;> exact evicted
      · refine .ite_fst evicted (evicted.trans ?_)
        exact (u.writeFrame_keepsStrands ..).trans (.of_core rfl rfl)

theorem State.accessPage_keepsStrands (s : State) (p : Party) (va n : Nat) (w : Option (List Byte)) (dry : Bool) :
    KeepsStrands s (s.accessPage p va n w dry).1 := by
  have h := s.translateFor_keepsStrands p va
  unfold State.accessPage
  split <;> rename_i e
  · exact h.of_eq e
  · exact h.of_eq e
  · exact h.of_eq e
  · exact (h.of_eq e).trans (State.accessLeaf_keepsStrands ..)

theorem spanRead_keepsStrands (p : Party) (fuel : Nat) (s : State) (va n : Nat) : KeepsStrands s (spanRead p fuel s va n).1 := by
  induction fuel generalizing s va n with
  | zero => exact .refl s
  | succ fuel ih =>
    have page := s.accessPage_keepsStrands p va (min n (65536 - va % 65536)) none false
    unfold spanRead; dsimp only
    split; · exact .refl s
    split
    case h_1 e =>
      split
      case h_1 e' => exact ((page.of_eq e).trans (ih ..)).of_eq e'
      case h_2 => exact (page.of_eq e).trans (ih ..)
    case h_2 => exact page

theorem spanWrite_keepsStrands (p : Party) (dry : Bool) (fuel : Nat) (s : State) (va : Nat) (bs : List Byte) :
    KeepsStrands s (spanWrite p dry fuel s va bs).1 := by
  induction fuel generalizing s va bs with
  | zero => exact .refl s
  | succ fuel ih =>
    have page := s.accessPage_keepsStrands p va (min bs.length (65536 - va % 65536)) (some (bs.take (min bs.length (65536 - va % 65536)))) dry
    unfold spanWrite; dsimp only
    split; · exact .refl s
    split
    case h_1 e => exact (page.of_eq e).trans (ih ..)
    case h_2 e =>
      split <;> rename_i e'
      · exact ((page.of_eq e).trans (ih ..)).of_eq e'
      · exact ((page.of_eq e).trans (ih ..)).of_eq e'
    case h_3 => exact page

theorem State.engineRead_keepsStrands (s : State) (p : Party) (va n : Nat) : KeepsStrands s (s.engineRead p va n).1 :=
  spanRead_keepsStrands ..

theorem State.engineWrite_keepsStrands (s : State) (p : Party) (va : Nat) (bs : List Byte) : KeepsStrands s (s.engineWrite p va bs).1 :=
  spanWrite_keepsStrands ..

theorem writeAll_keepsStrands (p : Party) (ws : List (Nat × List Byte)) (s : State) (t : Option Trap) :
    KeepsStrands s (writeAll p ws s t).1 := by
  induction ws generalizing s t with
  | nil => exact .refl s
  | cons w ws ih =>
    have one := s.engineWrite_keepsStrands p w.1 w.2
    unfold writeAll
    split
    case h_1 e => exact (one.of_eq e).trans (ih ..)
    case h_2 e => exact (one.of_eq e).trans (ih ..)
    case h_3 e => exact one.of_eq e

theorem readRows_keepsStrands (p : Party) (va : Nat) (r : TileRows) (n i : Nat) (s : State) : KeepsStrands s (readRows p va r n i s).1 := by
  induction n generalizing i s with
  | zero => exact .refl s
  | succ n ih =>
    have row := s.engineRead_keepsStrands p ((va : Int) + i * r.stride).toNat r.len
    unfold readRows
    split
    case h_1 e =>
      split
      case h_1 e' => exact ((row.of_eq e).trans (ih ..)).of_eq e'
      case h_2 => exact (row.of_eq e).trans (ih ..)
    case h_2 => exact row

/-! An index command's data (R183). -/

theorem State.idxAt_keepsStrands (s : State) (p : Party) (base i : Nat) : KeepsStrands s (s.idxAt p base i).1 := by
  have h := s.engineRead_keepsStrands p (base + 4 * i) 4
  unfold State.idxAt
  split <;> rename_i e
  · exact h.of_eq e
  · exact h.of_eq e

theorem State.idxArr_keepsStrands (s : State) (p : Party) (base n : Nat) : KeepsStrands s (s.idxArr p base n).1 := by
  have h := s.engineRead_keepsStrands p base (4 * n)
  unfold State.idxArr
  split <;> rename_i e
  · exact h.of_eq e
  · exact h.of_eq e

theorem State.denseRows_keepsStrands (s : State) (p : Party) (regs : List Word) (w : Word) : KeepsStrands s (s.denseRows p regs w).1 := by
  unfold State.denseRows; dsimp only
  split <;> rename_i e
  · exact (readRows_keepsStrands ..).of_eq e
  · exact (readRows_keepsStrands ..).of_eq e

theorem State.bitmapAt_keepsStrands (s : State) (p : Party) (w : Word) : KeepsStrands s (s.bitmapAt p w).1 := by
  have h := s.engineRead_keepsStrands p (w.toNat % 2 ^ 48) 4096
  unfold State.bitmapAt; dsimp only
  split <;> rename_i e
  · exact h.of_eq e
  · exact h.of_eq e

theorem isectRow_keepsStrands (p : Party) (aidx bidx cap ie je fuel i j : Nat) (out : List Nat) (s : State) :
    KeepsStrands s (isectRow p aidx bidx cap ie je fuel i j out s).1 := by
  induction fuel generalizing i j out s with
  | zero => exact .refl s
  | succ fuel ih =>
    have a := s.idxAt_keepsStrands p aidx i
    unfold isectRow
    split; · exact .refl s
    split <;> rename_i ea
    · exact a.of_eq ea
    · have b := (a.of_eq ea).trans (State.idxAt_keepsStrands _ p bidx j)
      split <;> rename_i eb
      · exact b.of_eq eb
      · have both := b.of_eq eb
        split; · exact both.trans (ih ..)
        split; · exact both.trans (ih ..)
        split
        · exact both
        · exact both.trans (ih ..)

theorem isectRows_keepsStrands (p : Party) (aidx bidx cap : Nat) (as bs : List Nat) (n r : Nat) (cs out : List Nat) (s : State) :
    KeepsStrands s (isectRows p aidx bidx cap as bs n r cs out s).1 := by
  induction n generalizing r cs out s with
  | zero => exact .refl s
  | succ n ih =>
    unfold isectRows; dsimp only
    split <;> rename_i e
    · exact ((isectRow_keepsStrands ..).of_eq e).trans (ih ..)
    · exact (isectRow_keepsStrands ..).of_eq e
    · exact (isectRow_keepsStrands ..).of_eq e

theorem withData_keepsStrands {α : Type} {s : State} {r : State × Except Res α} {f : State → α → State × Except Res IdxOut}
    (hr : KeepsStrands s r.1) (hf : ∀ t x, KeepsStrands t (f t x).1) : KeepsStrands s (withData r f).1 := by
  unfold withData
  split
  · exact hr.trans (hf _ _)
  · exact hr

/-- An index command's work on its data moves no strand: every command reads arrays, a matrix or a bitmap tile and then computes. -/
theorem State.idxRun_keepsStrands (s : State) (p : Party) (o : Op) : KeepsStrands s (s.idxRun p o).1 := by
  unfold State.idxRun; dsimp only
  split
  · exact withData_keepsStrands (s.idxArr_keepsStrands ..) fun t _ => withData_keepsStrands (t.idxArr_keepsStrands ..) fun _ _ =>
      withData_keepsStrands (isectRows_keepsStrands ..) fun u _ => .refl u
  · exact withData_keepsStrands (s.idxArr_keepsStrands ..) fun t _ => .refl t
  · exact withData_keepsStrands (s.denseRows_keepsStrands ..) fun t _ => .refl t
  · exact withData_keepsStrands (s.bitmapAt_keepsStrands ..) fun t _ => .refl t
  · exact withData_keepsStrands (s.bitmapAt_keepsStrands ..) fun t _ => .refl t
  · exact withData_keepsStrands (s.bitmapAt_keepsStrands ..) fun t _ => .refl t
  · exact withData_keepsStrands (s.denseRows_keepsStrands ..) fun t _ => .refl t
  · exact withData_keepsStrands (s.denseRows_keepsStrands ..) fun t _ => withData_keepsStrands (t.denseRows_keepsStrands ..) fun u _ => .refl u

/-! ## What a completion leaves of the core and of the clusters (R77, R106) -/

theorem State.orFlags_core (s : State) (fl : Nat) : ∃ ss, (s.orFlags fl).core = { s.core with strands := ss } := by
  unfold State.orFlags
  split
  · exact ⟨_, rfl⟩
  · exact ⟨_, rfl⟩

/-- Flags merged change nothing of the strand but its control registers. -/
theorem State.orFlags_st {s : State} (fl : Nat) (h : s.k < 16) : ∃ c, (s.orFlags fl).st = { s.st with csr := c } := by
  unfold State.orFlags
  split
  · exact ⟨_, rfl⟩
  · exact ⟨_, State.modCsr_st _ h⟩

/-- A completion without a value: its flags merged, its strand changed, then the locks of a cluster and the ranges of the core (R77, R81). -/
theorem State.completeOp_shape (s : State) (o : Op) (r : Option Trap) (fl : Nat) :
    ∃ (F : Strand → Strand) (n : Nat) (L : List LockEntry → List LockEntry) (R : List RangeEntry → List RangeEntry),
      s.completeOp o r fl none =
        (((s.orFlags fl).modSt F).modCluster n fun c => { c with locks := L c.locks }).modCore fun c => { c with ranges := R c.ranges } := by
  unfold State.completeOp
  rcases r with _ | x <;> rcases o.d with _ | d <;> exact ⟨_, _, _, _, rfl⟩

theorem State.completeOp_tiles (s : State) (o : Op) (r : Option Trap) (fl : Nat) : (s.completeOp o r fl none).core.tiles = s.core.tiles := by
  obtain ⟨_, _, _, _, e⟩ := s.completeOp_shape o r fl
  obtain ⟨_, flags⟩ := s.orFlags_core fl
  simp [e, flags]

theorem State.completeOp_here (s : State) (o : Op) (r : Option Trap) (fl : Nat) : (s.completeOp o r fl none).here = s.here := by
  obtain ⟨_, _, _, _, e⟩ := s.completeOp_shape o r fl
  obtain ⟨_, flags⟩ := s.orFlags_core fl
  simp [e, State.here, flags, Core.coord]

theorem State.completeOp_k (s : State) (o : Op) (r : Option Trap) (fl : Nat) : (s.completeOp o r fl none).k = s.k := by
  obtain ⟨_, _, _, _, e⟩ := s.completeOp_shape o r fl
  simp [e]

theorem findKey_putKey_same {α : Type} (key : α → Nat) (x : α) (l : List α) : findKey key (putKey key x l) (key x) = some x := by
  induction l with
  | nil => simp [findKey, putKey]
  | cons y ys ih =>
    unfold putKey
    split
    next => simp [findKey]
    next other =>
      have skip : (key y == key x) = false := by simpa using other
      simpa [findKey, List.find?_cons, skip] using ih

theorem findKey_putKey_other {α : Type} {key : α → Nat} {x : α} {n : Nat} (h : key x ≠ n) (l : List α) :
    findKey key (putKey key x l) n = findKey key l n := by
  induction l with
  | nil => simp [findKey, putKey, h]
  | cons y ys ih =>
    unfold putKey
    split
    next same =>
      have skip : key y ≠ n := by simp_all
      simp [findKey, h, skip]
    next =>
      simp only [findKey, List.find?_cons] at ih ⊢
      rw [ih]

theorem State.cluster_key (s : State) (n : Nat) : (s.cluster n).key = n := by
  unfold State.cluster
  cases found : findKey Cluster.key s.clusters n with
  | none => rfl
  | some c => simpa using List.find?_some found

theorem State.modCluster_cluster {s : State} {n : Nat} {f : Cluster → Cluster} (h : (f (s.cluster n)).key = n) :
    (s.modCluster n f).cluster n = f (s.cluster n) := by
  have e := findKey_putKey_same Cluster.key (f (s.cluster n)) s.clusters
  rw [h] at e
  rw [State.cluster, State.modCluster_clusters, e]
  rfl

/-- A cluster changed, but for its key and its array queue, leaves the array queue of every cluster. -/
theorem State.modCluster_mxq {s : State} {n : Nat} {f : Cluster → Cluster} (hk : ∀ c, (f c).key = c.key) (hq : ∀ c, (f c).mxq = c.mxq)
    (m : Nat) :
    ((s.modCluster n f).cluster m).mxq = (s.cluster m).mxq := by
  have key : (f (s.cluster n)).key = n := by rw [hk, s.cluster_key]
  by_cases same : m = n
  · rw [same, State.modCluster_cluster key, hq]
  · have e := findKey_putKey_other (key := Cluster.key) (x := f (s.cluster n)) (n := m) (by rw [key]; exact Ne.symm same) s.clusters
    rw [State.cluster, State.modCluster_clusters, e]
    rfl

theorem State.completeOp_mxq (s : State) (o : Op) (r : Option Trap) (fl n : Nat) :
    ((s.completeOp o r fl none).cluster n).mxq = (s.cluster n).mxq := by
  obtain ⟨F, cl, L, R, e⟩ := s.completeOp_shape o r fl
  rw [e]
  show ((((s.orFlags fl).modSt F).modCluster cl fun c => { c with locks := L c.locks }).cluster n).mxq = _
  refine (State.modCluster_mxq ?_ ?_ n).trans ?_
  · exact fun _ => rfl
  · exact fun _ => rfl
  · simp [State.cluster]

/-- A completion whose flags raise no enabled exception is one without flags, after the flags have merged (R106). -/
theorem State.completeOp_quiet {s : State} {o : Op} {fl : Nat} (h : fl &&& enables o.fpctl = 0) (v : Option Word) :
    s.completeOp o none fl v = (s.orFlags fl).completeOp o none 0 v := by
  have merged (t : State) : t.orFlags 0 = t := rfl
  unfold State.completeOp
  simp only [h, merged, Nat.zero_and, if_true]

theorem Retired.of_same {o : Op} {v : Option Word} {s s' t : State} (h : Retired o v s' t) (ops : s'.st.ops = s.st.ops)
    (q2 : s'.st.q2 = s.st.q2) (pc : s'.st.pc = s.st.pc) : Retired o v s t :=
  ⟨by rw [h.ops, ops], by rw [h.record, q2], h.value, by rw [h.goes, pc]⟩

/-- A completion with flags that raise no enabled exception retires its operation. -/
theorem State.completeOp_quiet_retired {s : State} {o : Op} {fl : Nat} (quiet : fl &&& enables o.fpctl = 0) (h : s.k < 16) :
    Retired o none s (s.completeOp o none fl none) := by
  obtain ⟨c, e⟩ := State.orFlags_st fl h
  rw [State.completeOp_quiet quiet]
  exact (State.completeOp_retired o none (by simpa using h)).of_same (by rw [e]) (by rw [e]) (by rw [e])

theorem State.completeOp_quiet_sys {s : State} {o : Op} {fl : Nat} (quiet : fl &&& enables o.fpctl = 0) :
    (s.completeOp o none fl none).sys = s.sys := by
  rw [State.completeOp_quiet quiet, State.completeOp_sys, State.orFlags_sys]

/-! ## The array (R162, R168, R170) -/

theorem Core.tileRowsPut_same (c : Core) (t : Nat) (r : TileRows) (bs : List Byte) :
    (c.tileRowsPut t r bs).coord = c.coord ∧ (c.tileRowsPut t r bs).strands = c.strands := by
  unfold Core.tileRowsPut
  induction List.range r.n generalizing c with
  | nil => exact ⟨rfl, rfl⟩
  | cons i is ih => exact ih _

/-- A strand with an outstanding operation is one of the sixteen. -/
theorem State.strand_of_opById {s : State} {id : Nat} {o : Op} (h : s.st.opById id = some o) : s.k < 16 := by
  refine Nat.lt_of_not_le fun beyond => ?_
  have empty : s.st = {} := by
    simp only [State.st, vget, List.getD_eq_getElem?_getD, Vector.getElem?_toList, Vector.getElem?_eq_none beyond, Option.getD_none]
  rw [empty] at h
  cases h

/-- A step whose tiles are neither poisoned nor wrong computes its sums and flags (R168). -/
theorem Core.runStep_sound {c : Core} {m : MxCmd} (clean : c.stepPoison m = none) (a : tileCheck m.tgeomA.toNat (c.tileBytes m.ta) = none)
    (b : tileCheck m.tgeomB.toNat (c.tileBytes m.tb) = none) :
    c.runStep m =
      let r := matrixStep m.kind m.fpctl m.tgeomA.toNat m.tgeomB.toNat m.ageom.toNat m.zero (c.tileBytes m.ta) (c.tileBytes m.tb)
        (c.tileBytes (8 + m.acc))
      { m with executing := true, out := r.1, flags := r.2 } := by
  simp [Core.runStep, clean, a, b]

/-- What is done at the focused core and leaves the focus there. -/
theorem State.atCore_focused {s t : State} {f : State → State} (e : f s = t) (here : t.here = s.here) (strand : t.k = s.k) :
    s.atCore s.here s.k f = t := by
  rw [State.atCore_self (by rw [e, here]) (by rw [e, strand]), e]

/-- The state with a step of the focused strand carried out: its result stands in the queue, and its operation has only the accumulator still
to write (R160, R170). -/
def State.stepRun (s : State) (cl : Nat) (m : MxCmd) : State :=
  (s.modOp m.id fun o => { o with tiles := [(8 + m.acc, true)], started := true }).modCluster cl fun c =>
    { c with mxq := c.mxq.map fun x => if x.id = m.id then s.core.runStep m else x }

theorem State.stepRun_mxq (s : State) (cl : Nat) (m : MxCmd) :
    ((s.stepRun cl m).cluster cl).mxq = (s.cluster cl).mxq.map fun x => if x.id = m.id then s.core.runStep m else x :=
  congrArg Cluster.mxq (State.modCluster_cluster (s.cluster_key cl))

/-- The oldest step that does not execute yet, of the focused strand and with its tiles free, is carried out (R170). -/
theorem execMatrixStepExecute_runs {cl : Nat} {m : MxCmd} {o : Op} {s : State}
    (oldest : (s.cluster cl).mxq.find? (fun m => !m.executing) = some m) (here : s.here = m.core) (strand : s.k = m.strand)
    (op : s.st.opById m.id = some o) (free : s.core.tileBlocked o = false) : execMatrixStepExecute cl s = .next (s.stepRun cl m) := by
  unfold execMatrixStepExecute
  rw [oldest]
  dsimp only
  rw [← here, ← strand]
  refine congrArg Host.Outcome.next (State.atCore_focused (s := s) (t := s.stepRun cl m) ?_ rfl rfl)
  simp only [op, free, Bool.false_eq_true, if_false]
  rfl

/-- The state with a step out of its array's queue (R170). -/
def State.stepLeft (s : State) (cl : Nat) (m : MxCmd) : State :=
  s.modCluster cl fun c => { c with mxq := c.mxq.filter fun x => x.id != m.id }

theorem State.stepLeft_mxq (s : State) (cl : Nat) (m : MxCmd) :
    ((s.stepLeft cl m).cluster cl).mxq = (s.cluster cl).mxq.filter fun x => x.id != m.id :=
  congrArg Cluster.mxq (State.modCluster_cluster (s.cluster_key cl))

theorem State.stepLeft_core (s : State) (cl : Nat) (m : MxCmd) : (s.stepLeft cl m).core = s.core := rfl

theorem State.stepLeft_keepsStrands (s : State) (cl : Nat) (m : MxCmd) : KeepsStrands s (s.stepLeft cl m) := .of_core rfl rfl

/-- The state with the rows of an executed step in its accumulator and a saturation noted in the accumulator's geometry (R168, R170). -/
def State.accWritten (s : State) (m : MxCmd) : State :=
  let t := s.modCore fun c => c.tileRowsPut (8 + m.acc) (accRows m.ageom.toNat) m.out
  if bit m.flags 5 then t.modCore fun c => { c with ageom := vset c.ageom m.acc (vget c.ageom m.acc 0 ||| 2 ^ 13) } else t

theorem State.accWritten_tiles (s : State) (m : MxCmd) :
    (s.accWritten m).core.tiles = (s.core.tileRowsPut (8 + m.acc) (accRows m.ageom.toNat) m.out).tiles := by
  unfold State.accWritten; dsimp only; split <;> rfl

theorem State.accWritten_cluster (s : State) (m : MxCmd) (n : Nat) : (s.accWritten m).cluster n = s.cluster n := by
  unfold State.accWritten; dsimp only; split <;> rfl

theorem State.accWritten_keepsStrands (s : State) (m : MxCmd) : KeepsStrands s (s.accWritten m) := by
  obtain ⟨coord, strands⟩ := s.core.tileRowsPut_same (8 + m.acc) (accRows m.ageom.toNat) m.out
  exact .ite ((s.modCore_keepsStrands _ coord strands).trans (State.modCore_keepsStrands _ _ rfl rfl)) (s.modCore_keepsStrands _ coord strands)

/-- The step that has executed leaves the queue and writes its accumulator, and its operation completes with its flags (R170). -/
theorem execMatrixStepComplete_completes {cl : Nat} {m : MxCmd} {o : Op} {s : State}
    (oldest : (s.cluster cl).mxq.find? (fun m => m.executing) = some m) (here : s.here = m.core) (strand : s.k = m.strand)
    (op : s.st.opById m.id = some o) (sound : m.status = none) :
    execMatrixStepComplete cl s = .next (((s.stepLeft cl m).accWritten m).completeOp o none (m.flags % 32) none) := by
  have left := s.stepLeft_keepsStrands cl m
  have kept := (s.stepLeft cl m).accWritten_keepsStrands m
  unfold execMatrixStepComplete
  rw [oldest]
  dsimp only
  rw [← here, ← strand, ← left.here, ← left.strand]
  refine congrArg Host.Outcome.next (State.atCore_focused (s := s.stepLeft cl m) ?_ ?_ ?_)
  · simp only [left.st, op, sound]
    rfl
  · rw [State.completeOp_here, kept.here]
  · rw [State.completeOp_k, kept.strand]

/-! ## The index engine (R183) -/

/-- An index command whose turn it is, and none of whose accesses fails, completes in the state its writes leave, with its flags. -/
theorem execIndexCommandComplete_completes {o : Op} {s u w : State} {r : IdxOut} {x : List Byte} (waits : Waits o s) (engine : o.kind.engine = 2)
    (present : o.absentAt ≤ s.sys.now) (oldest : ∀ q ∈ s.st.ops, q.kind.engine = 2 → q.complete = false → o.id ≤ q.id)
    (idle : s.idxBusy o.id = false) (legal : (idxPlan o.op o.a o.b o.regs (s.idxNow (s.party o) o)).check = none)
    (run : s.idxRun (s.party o) o = (u, .ok r)) (wrote : writeAll (s.party o) r.ws u none = (w, .ok x)) :
    execIndexCommandComplete s.here s.k o.id s = .next (w.completeOp o r.fail r.fl none) := by
  have kept : KeepsStrands s w :=
    ((s.idxRun_keepsStrands (s.party o) o).of_eq run).trans ((writeAll_keepsStrands (s.party o) r.ws u none).of_eq wrote)
  have first : (s.st.ops.any fun q => q.kind.engine == 2 && !q.complete && decide (q.id < o.id)) = false := by
    rw [List.any_eq_false]
    intro q member older
    simp only [Bool.and_eq_true, beq_iff_eq, Bool.not_eq_true', decide_eq_true_eq] at older
    obtain ⟨⟨index, pending⟩, before⟩ := older
    exact absurd (oldest q member index pending) (Nat.not_le.mpr before)
  have now : decide (s.sys.now < o.absentAt) = false := decide_eq_false (Nat.not_lt.mpr present)
  unfold execIndexCommandComplete
  rw [opEvent_waits waits (by simp [engine])]
  simp only [first, now, idle, legal, run, wrote, Bool.or_self, Bool.false_eq_true, if_false]
  rw [← kept.here, ← kept.strand, ← w.completeOp_here o r.fail r.fl, ← w.completeOp_k o r.fail r.fl, State.focus_self]

/-! ## The obligation -/

/-- A completion from a state that has kept the strands retires the operation of the strand that was (R78). -/
theorem KeepsStrands.retired {s w : State} {o : Op} {fl : Nat} (kept : KeepsStrands s w) (quiet : fl &&& enables o.fpctl = 0) (h : s.k < 16) :
    Retired o none s (w.completeOp o none fl none) := by
  have same := kept.st
  exact (State.completeOp_quiet_retired quiet (by rw [kept.strand]; exact h)).of_same (by rw [same]) (by rw [same]) (by rw [same])

/-- Settles O43: a step that executes leaves its sums and flags in the queue, one that completes puts them in its accumulator, and an index
command completes on the strand that issued it, which its reads and writes do not touch. -/
theorem matrixAndIndexComplete : Obligations.MatrixAndIndexComplete := by
  unfold Obligations.MatrixAndIndexComplete
  refine ⟨?executes, ?completes, ?index⟩
  case executes =>
    intro cl m o s oldest _ here strand op free a b clean soundA soundB
    refine ⟨s.stepRun cl m, s.core.runStep m, execMatrixStepExecute_runs oldest here strand op free, ?_, ?_, ?_, ?_⟩
    · rw [State.stepRun_mxq, List.mem_map]
      exact ⟨m, List.mem_of_find?_eq_some oldest, if_pos rfl⟩
    all_goals rw [Core.runStep_sound clean soundA soundB]
  case completes =>
    intro cl m o s oldest here strand op _ sound quiet
    have kept := (s.stepLeft_keepsStrands cl m).trans (State.accWritten_keepsStrands _ m)
    refine ⟨_, execMatrixStepComplete_completes oldest here strand op sound, kept.retired quiet (State.strand_of_opById op), ?_, ?_⟩
    · rw [State.completeOp_tiles, State.accWritten_tiles, State.stepLeft_core]
    · rw [State.completeOp_mxq, State.accWritten_cluster, State.stepLeft_mxq]
  case index =>
    intro o s u w r x waits engine present oldest idle legal run sound quiet wrote
    have kept : KeepsStrands s w :=
      ((s.idxRun_keepsStrands (s.party o) o).of_eq run).trans ((writeAll_keepsStrands (s.party o) r.ws u none).of_eq wrote)
    refine ⟨_, execIndexCommandComplete_completes waits engine present oldest idle legal run wrote, ?_, ?_⟩ <;> rw [sound]
    · exact kept.retired quiet waits.strand
    · rw [State.completeOp_quiet_sys quiet]

end Sys2Proof.Machine
end
